-- ==== Sys2Proof/Word.lean ====
section
/-! DEFINITION. The words of the Petil: bytes, 32-bit words, 64-bit doublewords, vector and mask registers
(spec 00_scope R1, 02_bundles R20, 08_vector R166, R167). -/
namespace Sys2Proof

/-- One byte. -/
abbrev Byte := BitVec 8
/-- A 32-bit word: an instruction word, an element of i32 or f32, a word index. -/
abbrev Word := BitVec 32
/-- A 64-bit doubleword: a scalar register, a staging register, a counter. -/
abbrev DWord := BitVec 64
/-- A vector register, 4,096 bits (R166). -/
abbrev VWord := BitVec 4096
/-- A mask register, 1,024 bits (R167). -/
abbrev MWord := BitVec 1024
/-- The 27 immediate bits of an L word (R28). -/
abbrev LWord := BitVec 27
/-- A scalar or vector register number. -/
abbrev Reg := BitVec 5
/-- A predicate or mask register number. -/
abbrev Reg3 := BitVec 3

end Sys2Proof
end

