-- ==== Sys2Proof/Machine/Kinds.lean ====
section
/-! DEFINITION. The fixed sets of names that instruction fields and events use: element types, conditions, engines,
spaces, system registers, trap causes, and the records an event carries. -/
namespace Sys2Proof

/-- Element types of V and X words, in the order of their codes 0 to 7 (R166, Table VEC-1). -/
inductive VType where
  | i4 | i8 | i16 | i32 | bf16 | f32 | l4 | l8
  deriving DecidableEq, Repr

/-- Bits of one lane (Table VEC-1). -/
def VType.width : VType → Nat
  | .i4 | .l4 => 4
  | .i8 | .l8 => 8
  | .i16 | .bf16 => 16
  | .i32 | .f32 => 32

/-- Lanes of a register (R166). -/
def VType.lanes (t : VType) : Nat := 4096 / t.width

/-- The integer types. -/
def VType.isInt : VType → Bool
  | .i4 | .i8 | .i16 | .i32 => true
  | .bf16 | .f32 | .l4 | .l8 => false

/-- The floating-point types. -/
def VType.isFp : VType → Bool
  | .bf16 | .f32 => true
  | .i4 | .i8 | .i16 | .i32 | .l4 | .l8 => false

/-- The logarithmic types. -/
def VType.isLog : VType → Bool
  | .l4 | .l8 => true
  | .i4 | .i8 | .i16 | .i32 | .bf16 | .f32 => false

/-- Comparison conditions, codes 0 to 5 (R144, R177). -/
inductive Cond where
  | eq | ne | lt | ge | ltn | gen
  deriving DecidableEq, Repr

/-- PLOG functions, codes 0 to 3 (R145). -/
inductive PFn where
  | and | or | xor | andn
  deriving DecidableEq, Repr

/-- Staging sets, engine codes 0 to 4 (R38, Table WRD-10). -/
inductive Eng where
  | array | stream | quilt | fabric | kiln
  deriving DecidableEq, Repr

/-- GETI selectors 0 to 10 (R147). -/
inductive GetiSel where
  | strand | tile | cluster | die | package | wuid | wucount | cycle | superstep | launch | panel
  deriving DecidableEq, Repr

/-- Spaces of M words (Table COR-6). -/
inductive MSpace where
  | global | scratch | store
  deriving DecidableEq, Repr

/-- Spaces of D words (R115, Table STR-2). -/
inductive DSpace where
  | global | store | scratch | remote
  deriving DecidableEq, Repr

/-- Completion kinds of D words (R119). -/
inductive Cmpl where
  | none | count | arrive
  deriving DecidableEq, Repr

/-- Rounding modes, codes 0 to 3 (Table WRD-3, VCVT; Table NUM-9). -/
inductive Rnd where
  | rne | rtz | rdn | rup
  deriving DecidableEq, Repr

/-- Output formats of DRN (R205). -/
inductive DrnFmt where
  | f32 | bf16 | log
  deriving DecidableEq, Repr

/-- RAM operations, codes 0 to 7 (Table FAB-8). -/
inductive RamOp where
  | add | min | max | minn | maxn | and | or | xor
  deriving DecidableEq, Repr

/-- MLR operations, codes 0 to 3 (R253). -/
inductive MlrOp where
  | sum | max | min | agree
  deriving DecidableEq, Repr

/-- MLR element types, codes 0 to 3 (R253). -/
inductive MlrType where
  | bf16 | f32 | l8 | i32
  deriving DecidableEq, Repr

/-- Scopes (R261, Table CON-1). -/
inductive Scope where
  | cluster | die | package | system
  deriving DecidableEq, Repr

/-- Targets of STOP (R326). -/
inductive StopKind where
  | strand | tile | launch
  deriving DecidableEq, Repr

/-- Record queues that SFLT pops (R329). -/
inductive RecQueue where
  | memory | migration | remote | health
  deriving DecidableEq, Repr

/-- System registers (R323, Table TRP-7). -/
inductive SysReg where
  | schedmode | efrv | efra | loop0se | loop0ct | loop1se | loop1ct
  | trapst | trappc | trapvec | traprec | stopflag | savearea | waypart | ptroot
  | migthr | agelimit | rfctr | mlrjoin | ctrarea | memgov | savepool
  | bundlelimit | stopwin | qcfg (q : BitVec 4) | readymap
  deriving DecidableEq, Repr

/-- Trap causes (Table TRP-1), in the order of their codes 1 to 34. -/
inductive Cause where
  | illegal | privileged | schedule | align | scratchRange | storeRange | splitBusy | splitRange | splitOrder
  | translate | memory | fetchRange | loopRange | nodeRange | predecessor | sizeClass | software | gangState
  | arrayNar | panelFollow | arrayCounter | stream | quilt | quiltRange | fabric | counter | counterRange
  | barrierMismatch | overrun | thermal | kiln | invalidateRange | restore | digest
  deriving DecidableEq, Repr

/-- What a trap record and the entry into the handler need (R309, Table TRP-2): the cause, the failing engine, the
sequence number, the engine's internal status word, the address, the bundle that the command index names, the node of
that bundle with its entry word, and the word index to resume at. -/
structure TrapInfo where
  cause  : Cause
  engine : Nat
  seq    : Nat
  isw    : Word
  addr   : DWord
  pc     : Word
  node   : BitVec 22
  entry  : Word
  resume : Word
  deriving DecidableEq, Repr

/-- A destination that takes its new value at a bound (R31): registers of the issuing strand, the array staging set,
scratchpad bytes at an address (R150, R181), or a window of an arrival word (R276). -/
inductive Write where
  | g    (r : Reg) (x : DWord)
  | p    (r : Reg3) (x : Bool)
  | v    (r : Reg) (x : VWord)
  | m    (r : Reg3) (x : MWord)
  | stg  (e : Eng) (i : BitVec 4) (x : DWord)
  | mem  (addr : Nat) (bytes : List Byte)
  | nib  (addr : Nat) (hi : Bool) (x : BitVec 4)
  deriving DecidableEq, Repr

/-- The bundle that issued a command: its word index, the node it stands in and that node's entry word. -/
structure Origin where
  tile   : Nat
  strand : Nat
  seq    : Nat
  pc     : Word
  node   : BitVec 22
  entry  : Word
  deriving DecidableEq, Repr

/-- Who made a counter add, for the report of a refused one (R270, R273, R202, R333). -/
inductive Adder where
  | silent
  | cadd (o : Origin)
  | remoteCadd (o : Origin) (peer : BitVec 16)
  | credit (o : Origin)
  | host
  deriving DecidableEq, Repr

/-- What a rick entry does at its home (R240, R247, R273). -/
inductive EntryKind where
  | store
  | ram (op : RamOp)
  | cadd
  deriving DecidableEq, Repr

/-- A rick entry (R236): virtual address, home peer and stack offset, data, doubleword flag, issuer, and the issuers of the
entries that merged into it (R239). For a remote CADD
`va` is the counter id and `data` the increment. -/
structure Entry where
  kind : EntryKind
  va   : DWord
  peer : BitVec 16
  off  : Nat
  data : DWord
  dbl  : Bool
  org  : Origin
  also : List Origin
  deriving DecidableEq, Repr

/-- A cord: the entries of a departed rick on their way to one peer (R238, R240), its packet number (R232), and the cc by which
its home performs it (R235). -/
structure Cord where
  id      : Nat
  die     : Nat
  launch  : Nat
  peer    : BitVec 16
  entries : List Entry
  due     : Nat
  deriving DecidableEq, Repr

/-- A remote-load request (R248, R149): the address with the home it translated to, its size in bytes, sign extension,
the register, the issuer, the cc of its bound, the source that numbers it (0 for an M word, 5 for an RLD), its bundle, the bytes
of it that the strand had written itself when it issued (P1), and once it has left, its packet number (R232) and the cc by
which its home performs it. -/
structure RemoteLoad where
  va     : DWord
  peer   : BitVec 16
  off    : Nat
  mode   : BitVec 2
  size   : Nat
  signed : Bool
  dest   : Reg
  org    : Origin
  due    : Nat
  engine : Nat
  bundle : Nat
  own    : List (Option Byte)
  sent   : Option (Nat × Nat)
  deriving DecidableEq, Repr

/-- A packet that takes its own slot and acts at its home when it gets there (R230, R232). -/
inductive Packet where
  | cord (c : Cord)
  | load (r : RemoteLoad)
  deriving DecidableEq, Repr

/-- A TLBI or SHOT command (R106 to R108); `dropped` says that a TLBI has removed its translations. -/
structure TransCmd where
  id    : Nat
  shot  : Bool
  scope : Scope
  va    : DWord
  size  : Nat
  all   : Bool
  ctx   : BitVec 12
  cnt   : Bool
  ctr   : BitVec 24
  xgen  : BitVec 16
  gate  : Nat
  org   : Origin
  dropped : Bool
  deriving DecidableEq, Repr

/-- Where a member's part in a reduction stands (R255). -/
inductive MlrPhase where
  | failed | joined | resolved | done
  deriving DecidableEq, Repr

/-- One member's part in a reduction (R253 to R256): who it is, what it agreed on, the elements it contributes, where
its result goes, and the cause, the code of Table XLT-7 and the address if it failed. `local_` tells a strand of this
package from a member in another package; `gate` counts the releases that its strand had issued. -/
structure MlrMember where
  id      : Nat
  local_  : Bool
  phase   : MlrPhase
  org     : Origin
  die     : Nat
  peer    : BitVec 16
  tag     : Word
  round   : Nat
  op      : MlrOp
  type    : MlrType
  tp      : Bool
  n       : Nat
  otype   : Nat
  fcode   : BitVec 2
  members : List (BitVec 16)
  start   : Nat
  window  : Nat
  slot    : BitVec 4
  src     : DWord
  dst     : DWord
  exp     : DWord
  cpl     : Bool
  ctr     : BitVec 24
  inc     : DWord
  gate    : Nat
  data    : List Word
  exps    : List Word
  fail    : Option (Nat × Nat × DWord)
  deriving DecidableEq, Repr

/-- Functions that READYMAP shows (R335, Table SYS-3). -/
inductive ReadyFn where
  | boot | mgmt | attest | loader | torus (x y z ex ey ez : Nat) | linkdie (i : Nat) | die (k : Nat) | stack (k : Nat)
  deriving DecidableEq, Repr

/-- Stages of the boot ROM (R336). -/
inductive BootStage where
  | link | die (k : Nat) | loader
  deriving DecidableEq, Repr

/-- Units a targeted self-test tests (R318, Table TRP-5): the code of the unit, and where it is. -/
structure TestUnit where
  code : Nat
  die  : Nat
  tile : Nat
  index : Nat
  deriving DecidableEq, Repr

end Sys2Proof
end

