-- ==== Sys2Proof/Config.lean ====
section
/-! DEFINITION. What the spec leaves open: the free values (log 11). None has a body, so nothing can be proved about the
value of one; each is applied to the plain counter `State.fresh` or to what the spec says it may depend on. -/
namespace Sys2Proof.Config

/-- An undefined 64-bit value (R4): staging, accumulator, kiln configuration and digest words after a cheap resume
or at launch start. -/
opaque freeD : Nat → DWord
/-- An undefined 32-bit value (R4). -/
opaque freeW : Nat → Word
/-- An undefined vector register (R168, R312). -/
opaque freeV : Nat → VWord
/-- An undefined mask register (R168, R312). -/
opaque freeM : Nat → MWord
/-- An undefined byte of memory (R312, R76 beyond ten symbols). -/
opaque freeByte : Nat → Byte
/-- The symbols that have gone wrong in a stack since the last epoch (R76): lines by number, with how many more of their
symbols are wrong (log 35). -/
opaque decay : Nat → List (Nat × Nat)
/-- A byte of another package's memory, as this package finds it when it asks (log 1, log 11). -/
opaque otherByte : Nat → BitVec 16 → Nat → Byte
/-- Bytes of certificates, signatures and hashes of the attestation responder and of the boot measurements
(R336, R337): the keys are fused at manufacture and the spec gives none. -/
opaque attestByte : Nat → Nat → Byte

end Sys2Proof.Config
end

