-- ==== Sys2Proof/Syntax.lean ====
section
/-! DEFINITION. The instructions and events of the Petil: one constructor for each row of spec/opcode_table.json. The
first 216 have an encoding (02_bundles R20 to R30); the chain bit C belongs to the bundle and is no operand, and the L
words that extend an instruction (R28) stand in `ext`, in their order. The other 88 are the steps the part makes on its
own or on an outside input (95_what_each_step_holds); their operands say which unit they concern and what the
environment supplies. -/
namespace Sys2Proof

/-- One instruction word with its L words, or one event. -/
inductive Instr where
  /-- NOP (R41). -/
  | nop
  /-- ADD (R141). -/
  | add (d a b : Reg) (p : Reg3)
  /-- ADD_IMM (R141). -/
  | addImm (d a : Reg) (i : BitVec 10) (ext : List LWord)
  /-- SUB (R141). -/
  | sub (d a b : Reg) (p : Reg3)
  /-- SUB_IMM (R141). -/
  | subImm (d a : Reg) (i : BitVec 10) (ext : List LWord)
  /-- MUL (R141). -/
  | mul (d a b : Reg) (p : Reg3)
  /-- MUL_IMM (R141). -/
  | mulImm (d a : Reg) (i : BitVec 10) (ext : List LWord)
  /-- MULH (R141). -/
  | mulh (d a b : Reg) (p : Reg3)
  /-- MULH_IMM (R141). -/
  | mulhImm (d a : Reg) (i : BitVec 10) (ext : List LWord)
  /-- MULHN (R141). -/
  | mulhn (d a b : Reg) (p : Reg3)
  /-- MULHN_IMM (R141). -/
  | mulhnImm (d a : Reg) (i : BitVec 10) (ext : List LWord)
  /-- DIV (R142). -/
  | div (d a b : Reg) (p : Reg3)
  /-- DIV_IMM (R142). -/
  | divImm (d a : Reg) (i : BitVec 10) (ext : List LWord)
  /-- DIVN (R142). -/
  | divn (d a b : Reg) (p : Reg3)
  /-- DIVN_IMM (R142). -/
  | divnImm (d a : Reg) (i : BitVec 10) (ext : List LWord)
  /-- REM (R142). -/
  | rem (d a b : Reg) (p : Reg3)
  /-- REM_IMM (R142). -/
  | remImm (d a : Reg) (i : BitVec 10) (ext : List LWord)
  /-- REMN (R142). -/
  | remn (d a b : Reg) (p : Reg3)
  /-- REMN_IMM (R142). -/
  | remnImm (d a : Reg) (i : BitVec 10) (ext : List LWord)
  /-- ADDW (R141). -/
  | addw (d a b : Reg) (p : Reg3)
  /-- ADDW_IMM (R141). -/
  | addwImm (d a : Reg) (i : BitVec 10) (ext : List LWord)
  /-- SUBW (R141). -/
  | subw (d a b : Reg) (p : Reg3)
  /-- SUBW_IMM (R141). -/
  | subwImm (d a : Reg) (i : BitVec 10) (ext : List LWord)
  /-- MULW (R141). -/
  | mulw (d a b : Reg) (p : Reg3)
  /-- MULW_IMM (R141). -/
  | mulwImm (d a : Reg) (i : BitVec 10) (ext : List LWord)
  /-- AND (R141). -/
  | and (d a b : Reg) (p : Reg3)
  /-- AND_IMM (R141). -/
  | andImm (d a : Reg) (i : BitVec 10) (ext : List LWord)
  /-- OR (R141). -/
  | or (d a b : Reg) (p : Reg3)
  /-- OR_IMM (R141). -/
  | orImm (d a : Reg) (i : BitVec 10) (ext : List LWord)
  /-- XOR (R141). -/
  | xor (d a b : Reg) (p : Reg3)
  /-- XOR_IMM (R141). -/
  | xorImm (d a : Reg) (i : BitVec 10) (ext : List LWord)
  /-- ANDN (R141). -/
  | andn (d a b : Reg) (p : Reg3)
  /-- ANDN_IMM (R141). -/
  | andnImm (d a : Reg) (i : BitVec 10) (ext : List LWord)
  /-- SHL (R141). -/
  | shl (d a b : Reg) (p : Reg3)
  /-- SHL_IMM (R141). -/
  | shlImm (d a : Reg) (i : BitVec 10) (ext : List LWord)
  /-- SHR (R141). -/
  | shr (d a b : Reg) (p : Reg3)
  /-- SHR_IMM (R141). -/
  | shrImm (d a : Reg) (i : BitVec 10) (ext : List LWord)
  /-- SHRA (R141). -/
  | shra (d a b : Reg) (p : Reg3)
  /-- SHRA_IMM (R141). -/
  | shraImm (d a : Reg) (i : BitVec 10) (ext : List LWord)
  /-- SHLW (R141). -/
  | shlw (d a b : Reg) (p : Reg3)
  /-- SHLW_IMM (R141). -/
  | shlwImm (d a : Reg) (i : BitVec 10) (ext : List LWord)
  /-- SHRW (R141). -/
  | shrw (d a b : Reg) (p : Reg3)
  /-- SHRW_IMM (R141). -/
  | shrwImm (d a : Reg) (i : BitVec 10) (ext : List LWord)
  /-- SHRAW (R141). -/
  | shraw (d a b : Reg) (p : Reg3)
  /-- SHRAW_IMM (R141). -/
  | shrawImm (d a : Reg) (i : BitVec 10) (ext : List LWord)
  /-- MIN (R141). -/
  | min (d a b : Reg) (p : Reg3)
  /-- MIN_IMM (R141). -/
  | minImm (d a : Reg) (i : BitVec 10) (ext : List LWord)
  /-- MAX (R141). -/
  | max (d a b : Reg) (p : Reg3)
  /-- MAX_IMM (R141). -/
  | maxImm (d a : Reg) (i : BitVec 10) (ext : List LWord)
  /-- MINN (R141). -/
  | minn (d a b : Reg) (p : Reg3)
  /-- MINN_IMM (R141). -/
  | minnImm (d a : Reg) (i : BitVec 10) (ext : List LWord)
  /-- MAXN (R141). -/
  | maxn (d a b : Reg) (p : Reg3)
  /-- MAXN_IMM (R141). -/
  | maxnImm (d a : Reg) (i : BitVec 10) (ext : List LWord)
  /-- CLZ (R141). -/
  | clz (d a : Reg) (p : Reg3)
  /-- POPC (R141). -/
  | popc (d a : Reg) (p : Reg3)
  /-- BFX (R143). -/
  | bfx (d a b : Reg) (p : Reg3)
  /-- BFX_IMM (R143). -/
  | bfxImm (d a : Reg) (i : BitVec 10) (ext : List LWord)
  /-- BFI (R143). -/
  | bfi (d a b : Reg) (p : Reg3)
  /-- BFI_IMM (R143). -/
  | bfiImm (d a : Reg) (i : BitVec 10) (ext : List LWord)
  /-- SEL (R143). -/
  | sel (d a b : Reg) (p : Reg3)
  /-- CMP (R144). -/
  | cmp (p : Reg3) (k : Cond) (w : Bool) (a b : Reg)
  /-- CMP_IMM (R144). -/
  | cmpImm (p : Reg3) (k : Cond) (w : Bool) (a : Reg) (i : BitVec 8) (ext : List LWord)
  /-- PLOG (R145). -/
  | plog (d a b : Reg3) (f : PFn) (n : Bool)
  /-- STG (R146). -/
  | stg (e : Eng) (x : BitVec 4) (a : Reg)
  /-- RSTG (R146). -/
  | rstg (d : Reg) (e : Eng) (x : BitVec 4)
  /-- GETI (R147). -/
  | geti (d : Reg) (s : GetiSel)
  /-- LDB (R149). -/
  | ldb (g b : Reg) (s : MSpace) (i : BitVec 10) (ext : List LWord)
  /-- LDBN (R149). -/
  | ldbn (g b : Reg) (s : MSpace) (i : BitVec 10) (ext : List LWord)
  /-- LDH (R149). -/
  | ldh (g b : Reg) (s : MSpace) (i : BitVec 10) (ext : List LWord)
  /-- LDHN (R149). -/
  | ldhn (g b : Reg) (s : MSpace) (i : BitVec 10) (ext : List LWord)
  /-- LDW (R149). -/
  | ldw (g b : Reg) (s : MSpace) (i : BitVec 10) (ext : List LWord)
  /-- LDWN (R149). -/
  | ldwn (g b : Reg) (s : MSpace) (i : BitVec 10) (ext : List LWord)
  /-- LDD (R149). -/
  | ldd (g b : Reg) (s : MSpace) (i : BitVec 10) (ext : List LWord)
  /-- STB (R149). -/
  | stb (g b : Reg) (s : MSpace) (i : BitVec 10) (ext : List LWord)
  /-- STH (R149). -/
  | sth (g b : Reg) (s : MSpace) (i : BitVec 10) (ext : List LWord)
  /-- STW (R149). -/
  | stw (g b : Reg) (s : MSpace) (i : BitVec 10) (ext : List LWord)
  /-- STD (R149). -/
  | std (g b : Reg) (s : MSpace) (i : BitVec 10) (ext : List LWord)
  /-- PREF (R90). -/
  | pref (b : Reg) (i : BitVec 10) (ext : List LWord)
  /-- DISC (R90). -/
  | disc (b : Reg) (i : BitVec 10) (ext : List LWord)
  /-- LUSE (R90). -/
  | luse (b : Reg) (i : BitVec 10) (ext : List LWord)
  /-- BR (R151). -/
  | br (p : Reg3) (n : Bool) (disp : BitVec 18)
  /-- JMP (R151). -/
  | jmp (disp : BitVec 22)
  /-- CALL (R151). -/
  | call (disp : BitVec 22)
  /-- JR (R151). -/
  | jr (a : Reg)
  /-- LSET (R153). -/
  | lset (l : Bool) (g : Reg) (e : BitVec 16)
  /-- LSETI (R153). -/
  | lseti (l : Bool) (n : BitVec 12) (e : BitVec 9)
  /-- LEXIT (R156). -/
  | lexit (l : Bool)
  /-- DLY (R157). -/
  | dly (n : BitVec 8)
  /-- NODE (R158). -/
  | node (n : BitVec 22)
  /-- SELS (R159). -/
  | sels (g : Reg) (t : BitVec 17)
  /-- YIELD (R160). -/
  | yield
  /-- HALT (R161). -/
  | halt
  /-- TRAP (R162). -/
  | trap (k : BitVec 16)
  /-- GANG_ENTER (R163). -/
  | gangEnter
  /-- GANG_EXIT (R165). -/
  | gangExit
  /-- VADD (R170). -/
  | vadd (t : VType) (d a b : Reg) (m : Reg3)
  /-- VSUB (R170). -/
  | vsub (t : VType) (d a b : Reg) (m : Reg3)
  /-- VADDS (R170). -/
  | vadds (t : VType) (d a b : Reg) (m : Reg3)
  /-- VSUBS (R170). -/
  | vsubs (t : VType) (d a b : Reg) (m : Reg3)
  /-- VMUL (R170). -/
  | vmul (t : VType) (d a b : Reg) (m : Reg3)
  /-- VMULH (R170). -/
  | vmulh (t : VType) (d a b : Reg) (m : Reg3)
  /-- VMAD (R170). -/
  | vmad (t : VType) (d a b : Reg) (m : Reg3)
  /-- VMIN (R170). -/
  | vmin (t : VType) (d a b : Reg) (m : Reg3)
  /-- VMAX (R170). -/
  | vmax (t : VType) (d a b : Reg) (m : Reg3)
  /-- VMINN (R170). -/
  | vminn (t : VType) (d a b : Reg) (m : Reg3)
  /-- VMAXN (R170). -/
  | vmaxn (t : VType) (d a b : Reg) (m : Reg3)
  /-- VABS (R170). -/
  | vabs (t : VType) (d a : Reg) (m : Reg3)
  /-- VAND (R170). -/
  | vand (t : VType) (d a b : Reg) (m : Reg3)
  /-- VOR (R170). -/
  | vor (t : VType) (d a b : Reg) (m : Reg3)
  /-- VXOR (R170). -/
  | vxor (t : VType) (d a b : Reg) (m : Reg3)
  /-- VSHL (R170). -/
  | vshl (t : VType) (d a b : Reg) (m : Reg3)
  /-- VSHR (R170). -/
  | vshr (t : VType) (d a b : Reg) (m : Reg3)
  /-- VSHRA (R170). -/
  | vshra (t : VType) (d a b : Reg) (m : Reg3)
  /-- VADDW (R172). -/
  | vaddw (t : VType) (d a b : Reg) (m : Reg3)
  /-- VMULW (R172). -/
  | vmulw (t : VType) (d a b : Reg) (m : Reg3)
  /-- VMULQ (R172). -/
  | vmulq (t : VType) (d a b : Reg) (m : Reg3)
  /-- VMADQ (R172). -/
  | vmadq (t : VType) (d a b : Reg) (m : Reg3)
  /-- VFADD (R173). -/
  | vfadd (t : VType) (d a b : Reg) (m : Reg3)
  /-- VFSUB (R173). -/
  | vfsub (t : VType) (d a b : Reg) (m : Reg3)
  /-- VFMUL (R173). -/
  | vfmul (t : VType) (d a b : Reg) (m : Reg3)
  /-- VFMA (R173). -/
  | vfma (t : VType) (d a b : Reg) (m : Reg3)
  /-- VFMIN (R174). -/
  | vfmin (t : VType) (d a b : Reg) (m : Reg3)
  /-- VFMAX (R174). -/
  | vfmax (t : VType) (d a b : Reg) (m : Reg3)
  /-- VFABS (R174). -/
  | vfabs (t : VType) (d a : Reg) (m : Reg3)
  /-- VFNEG (R174). -/
  | vfneg (t : VType) (d a : Reg) (m : Reg3)
  /-- VFRCP (R175). -/
  | vfrcp (t : VType) (d a : Reg) (m : Reg3)
  /-- VFRSQ (R175). -/
  | vfrsq (t : VType) (d a : Reg) (m : Reg3)
  /-- VFEXP2 (R175). -/
  | vfexp2 (t : VType) (d a : Reg) (m : Reg3)
  /-- VFLOG2 (R175). -/
  | vflog2 (t : VType) (d a : Reg) (m : Reg3)
  /-- VLMUL (R176). -/
  | vlmul (t : VType) (d a b : Reg) (m : Reg3)
  /-- VLRCP (R176). -/
  | vlrcp (t : VType) (d a : Reg) (m : Reg3)
  /-- VCMP (R177). -/
  | vcmp (t : VType) (d : Reg3) (k : Cond) (a b : Reg)
  /-- VSEL (R178). -/
  | vsel (t : VType) (d a b : Reg) (m : Reg3)
  /-- VREDS (R179). -/
  | vreds (t : VType) (d a : Reg) (m : Reg3)
  /-- VREDX (R179). -/
  | vredx (t : VType) (d a : Reg) (m : Reg3)
  /-- VREDN (R179). -/
  | vredn (t : VType) (d a : Reg) (m : Reg3)
  /-- VLD (R180). -/
  | vld (t : VType) (v b s : Reg) (m : Reg3) (ext : List LWord)
  /-- VST (R180). -/
  | vst (t : VType) (v b s : Reg) (m : Reg3) (ext : List LWord)
  /-- VGTH (R182). -/
  | vgth (t : VType) (v b x : Reg) (m : Reg3)
  /-- VSCT (R182). -/
  | vsct (t : VType) (v b x : Reg) (m : Reg3)
  /-- VBC (R183). -/
  | vbc (t : VType) (d a : Reg) (m : Reg3)
  /-- VGET (R183). -/
  | vget (t : VType) (d a : Reg) (l : BitVec 8) (ext : List LWord)
  /-- VPUT (R183). -/
  | vput (t : VType) (d a : Reg) (l : BitVec 8) (ext : List LWord)
  /-- VPRM (R184). -/
  | vprm (t : VType) (d a b : Reg) (m : Reg3)
  /-- VTRP (R185). -/
  | vtrp (t : VType) (g : BitVec 3)
  /-- VCVT (R188). -/
  | vcvt (s : VType) (d a : Reg) (t : VType) (r : Rnd) (m : Reg3)
  /-- VQNT (R189). -/
  | vqnt (t : VType) (d a s : Reg) (bf : Bool)
  /-- VDQNT (R190). -/
  | vdqnt (t : VType) (d a s : Reg) (bf : Bool)
  /-- VRND (R191). -/
  | vrnd (d k b : Reg) (m : Reg3)
  /-- VIOTA (R186). -/
  | viota (t : VType) (d a : Reg) (m : Reg3)
  /-- VEXT (R186). -/
  | vext (t : VType) (d a b : Reg) (m : Reg3)
  /-- VCMPR (R186). -/
  | vcmpr (t : VType) (d a b : Reg) (m : Reg3)
  /-- VMOVM (R187). -/
  | vmovm (toMask : Bool) (v : Reg) (m : Reg3)
  /-- AFMT (R199). -/
  | afmt (aw : Bool) (af : BitVec 2) (as_ ww : Bool) (wf : BitVec 2) (ws : Bool) (nsub sp : BitVec 2)
  /-- WLD (R200). -/
  | wld (beats : BitVec 12) (first : BitVec 7)
  /-- ASWP (R201). -/
  | aswp
  /-- STRM (R202). -/
  | strm (beats : BitVec 12) (first : BitVec 8)
  /-- DRN (R205). -/
  | drn (beats : BitVec 12) (zr : Bool) (fmt : DrnFmt) (first : BitVec 8)
  /-- ACLR (R206). -/
  | aclr (beats : BitVec 12) (first : BitVec 8)
  /-- AGNG (R207). -/
  | agng (chain : Bool)
  /-- ASTA (R208). -/
  | asta (clr : Bool)
  /-- KSA (R209). -/
  | ksa (a : Reg) (i : BitVec 19) (ext : List LWord)
  /-- KSW (R209). -/
  | ksw (a : Reg) (col : BitVec 7) (i : BitVec 12) (ext : List LWord)
  /-- KSO (R209). -/
  | kso (a : Reg) (i : BitVec 19) (ext : List LWord)
  /-- KCLR (R209). -/
  | kclr
  /-- DCPY (R126). -/
  | dcpy (k : Cmpl) (shd : Bool) (s d : DSpace)
  /-- DUNF (R127). -/
  | dunf (k : Cmpl) (shd : Bool) (s d : DSpace)
  /-- DPUB_INIT (R131). -/
  | dpubInit (k : Cmpl) (pair : BitVec 3)
  /-- DPUB (R131). -/
  | dpub (k : Cmpl) (pair : BitVec 3)
  /-- DFIL (R129). -/
  | dfil (k : Cmpl) (shd : Bool) (s d : DSpace)
  /-- DGTH (R130). -/
  | dgth (k : Cmpl) (shd : Bool) (s d : DSpace)
  /-- DSTA (R132). -/
  | dsta (clr : Bool)
  /-- QPAT (R223). -/
  | qpat (cells : BitVec 12) (first : BitVec 8)
  /-- QLDY (R223). -/
  | qldy (cells : BitVec 12) (first : BitVec 8)
  /-- QDOM (R224). -/
  | qdom (d : BitVec 2)
  /-- QSTP (R225). -/
  | qstp (steps : BitVec 12) (d : BitVec 2) (mask : BitVec 4)
  /-- QSAV (R226). -/
  | qsav
  /-- QRST (R226). -/
  | qrst
  /-- QRDV (R228). -/
  | qrdv (blk : Bool) (d : Reg)
  /-- QSTA (R229). -/
  | qsta (clr : Bool)
  /-- RSW (R247). -/
  | rsw (a b : Reg) (w : Bool)
  /-- RAM (R247). -/
  | ram (a b : Reg) (o : RamOp) (w : Bool)
  /-- RLD (R248). -/
  | rld (d a : Reg) (w s : Bool)
  /-- RFL (R249). -/
  | rfl (a : Reg) (all : Bool)
  /-- MGRP (R252). -/
  | mgrp (slot : BitVec 4)
  /-- MLR (R253). -/
  | mlr (o : MlrOp) (t : MlrType) (tp : Bool) (cnt : Bool)
  /-- RFQ (R250). -/
  | rfq (d : Reg)
  /-- RSTA (R251). -/
  | rsta (d : Reg) (clr : Bool)
  /-- CADD (R273). -/
  | cadd (a b : Reg) (rel : Bool)
  /-- CADD_REMOTE (R273). -/
  | caddRemote (a b : Reg) (rel : Bool) (peer : LWord)
  /-- CWT (R274). -/
  | cwt (a b : Reg) (acq : Bool)
  /-- CRD (R275). -/
  | crd (a d : Reg)
  /-- AARM (R276). -/
  | aarm (a b : Reg)
  /-- AWT (R277). -/
  | awt (a b : Reg) (acq : Bool)
  /-- PHS (R278). -/
  | phs (rel acq : Bool) (scope : Scope)
  /-- BAR (R279). -/
  | bar (ss : Bool) (scope : Scope)
  /-- FEN (R280). -/
  | fen (mask : BitVec 8)
  /-- SPLT (R87). -/
  | splt (a : Reg)
  /-- DGS_ON (R281). -/
  | dgsOn
  /-- DGS_OFF (R281). -/
  | dgsOff
  /-- DGS_RD (R281). -/
  | dgsRd (g : Reg)
  /-- DGS_FOLD (R281). -/
  | dgsFold (a b : Reg)
  /-- UPCF (R92). -/
  | upcf
  /-- UPDM (R94). -/
  | updm (mom : Bool) (cnt : Bool) (bf : Bool)
  /-- UPMO (R93). -/
  | upmo (cnt : Bool) (bf : Bool)
  /-- UPST (R96). -/
  | upst (clr : Bool)
  /-- SRD (R324). -/
  | srd (g : Reg) (reg : SysReg)
  /-- SWR (R324). -/
  | swr (g : Reg) (reg : SysReg)
  /-- TRET (R325). -/
  | tret (loops : Bool)
  /-- TLBI (R107). -/
  | tlbi (a b : Reg) (cnt all : Bool) (scope : Scope)
  /-- SHOT (R108). -/
  | shot (a b : Reg) (size : BitVec 5) (cnt all : Bool) (scope : Scope)
  /-- CSAV (R327). -/
  | csav (g : Reg)
  /-- CRST (R327). -/
  | crst (g : Reg)
  /-- STOP (R326). -/
  | stop (a : Reg) (deep : Bool) (kind : StopKind)
  /-- SLP (R328). -/
  | slp (g : Reg) (mask : BitVec 5)
  /-- SFLT (R329). -/
  | sflt (g b : Reg) (q : RecQueue)
  /-- PENDING_WRITE_COMPLETE (R31). -/
  | pendingWriteComplete (tile strand : Nat) (w : Write)
  /-- STRAND_SELECT (R136). -/
  | strandSelect (tile : Nat)
  /-- WAIT_SATISFIED (R274). -/
  | waitSatisfied (tile strand : Nat)
  /-- TAKE_TRAP (R309). -/
  | takeTrap (tile strand : Nat) (info : TrapInfo)
  /-- OVERRUN (R298). -/
  | overrun (tile strand : Nat)
  /-- EXTENT_PLACEMENT (R138). -/
  | extentPlacement (tile strand : Nat)
  /-- PAGE_WALK_COMPLETE (R104). -/
  | pageWalkComplete (cluster page : Nat)
  /-- RELEASE_COMPLETE (R262). -/
  | releaseComplete (tile strand rel : Nat)
  /-- COUNTER_ADD (R270). -/
  | counterAdd (die id : Nat) (inc : DWord) (adder : Adder)
  /-- BARRIER_COMPLETE (R279). -/
  | barrierComplete (bar : Nat)
  /-- STREAM_COMMAND_START (R112). -/
  | streamCommandStart (tile : Nat)
  /-- STREAM_COMMAND_COMPLETE (R114). -/
  | streamCommandComplete (tile cmd : Nat)
  /-- ARRIVAL (R120). -/
  | arrival (tile addr bytes : Nat)
  /-- DUNF_ROW (R128). -/
  | dunfRow (tile cmd row : Nat)
  /-- PUBLISH_SWAP (R124). -/
  | publishSwap (tile cmd : Nat)
  /-- KILN_COMMAND_START (R91). -/
  | kilnCommandStart (cluster : Nat)
  /-- KILN_COMMAND_COMPLETE (R95). -/
  | kilnCommandComplete (cluster : Nat)
  /-- SPLT_DRAIN (R87). -/
  | spltDrain (cluster : Nat)
  /-- SPLT_COMPLETE (R89). -/
  | spltComplete (cluster : Nat)
  /-- WLD_BEAT (R200). -/
  | wldBeat (tile beat : Nat)
  /-- STRM_BEAT (R202). -/
  | strmBeat (tile beat : Nat)
  /-- STRM_ROWS_FINAL (R202). -/
  | strmRowsFinal (tile cmd : Nat)
  /-- DRN_BEAT (R205). -/
  | drnBeat (tile beat : Nat)
  /-- DRN_OUTPUT_FINAL (R205). -/
  | drnOutputFinal (tile cmd : Nat)
  /-- ACLR_BEAT (R206). -/
  | aclrBeat (tile beat : Nat)
  /-- QUILT_BEAT (R223). -/
  | quiltBeat (tile beat : Nat)
  /-- QUILT_STEP_CYCLE (R217). -/
  | quiltStepCycle (tile offset : Nat)
  /-- QUILT_COMMAND_COMPLETE (R220). -/
  | quiltCommandComplete (tile : Nat)
  /-- FABRIC_QUEUE_ARRIVAL (R237). -/
  | fabricQueueArrival (tile : Nat)
  /-- RICK_AGE_DEPARTURE (R238). -/
  | rickAgeDeparture (die rick : Nat)
  /-- RING_SLOT_ARRIVAL (R231). -/
  | ringSlotArrival (pkt : Packet) (lap : Nat) (refused : Bool)
  /-- CORD_PERFORM (R240). -/
  | cordPerform (cord : Cord)
  /-- REMOTE_LOAD_REQUEST (R248). -/
  | remoteLoadRequest (req : RemoteLoad)
  /-- FLIT_CRC_FAILURE (R234). -/
  | flitCrcFailure (port tries : Nat)
  /-- MGRP_COMPLETE (R252). -/
  | mgrpComplete (org : Origin) (slot : BitVec 4) (addr : DWord)
  /-- MLR_JOIN (R255). -/
  | mlrJoin (member : MlrMember)
  /-- MLR_JOIN_DEADLINE (R255). -/
  | mlrJoinDeadline (member : Nat)
  /-- MLR_COMPLETE (R258). -/
  | mlrComplete (member : Nat)
  /-- TLBI_COMPLETE (R107). -/
  | tlbiComplete (cmd : TransCmd)
  /-- SHOOTDOWN_ARRIVAL (R108). -/
  | shootdownArrival (die : Nat) (cmd : TransCmd)
  /-- HOLDER_COUNT_UPDATE (R101). -/
  | holderCountUpdate (home frame reader : Nat) (add : Bool)
  /-- SHOT_COMPLETE (R109). -/
  | shotComplete (cmd : TransCmd)
  /-- GOVERNOR_EPOCH (R77). -/
  | governorEpoch (die : Nat)
  /-- PATROL_SCRUB (R78). -/
  | patrolScrub (die symbols : Nat)
  /-- LAUNCH_TAKE (R284). -/
  | launchTake (queue : Nat)
  /-- ADMISSION (R289). -/
  | admission (queue : Nat)
  /-- LAUNCH_START (R294). -/
  | launchStart (queue : Nat)
  /-- WORK_UNIT_START (R295). -/
  | workUnitStart (queue : Nat)
  /-- WORK_UNIT_COMPLETE (R161). -/
  | workUnitComplete (tile : Nat)
  /-- LAUNCH_END (R296). -/
  | launchEnd (queue : Nat)
  /-- LAUNCH_RESUME (R314). -/
  | launchResume (queue : Nat)
  /-- SUPERSTEP_BOUNDARY (R300). -/
  | superstepBoundary (queue : Nat)
  /-- IDLE_SUPERSTEP (R302). -/
  | idleSuperstep (queue blocks : Nat)
  /-- IDLE_SUPERSTEP_END (R302). -/
  | idleSuperstepEnd (queue : Nat)
  /-- CLOCK_CHANGE (R301). -/
  | clockChange (mhz : Nat)
  /-- POWER_LIMIT (R303). -/
  | powerLimit (mhz blocks : Nat)
  /-- THERMAL_EMERGENCY (R303). -/
  | thermalEmergency
  /-- STOP_FLAG_SET (R326). -/
  | stopFlagSet (tile strand : Nat) (deep : Bool)
  /-- STOP_WINDOW_EXPIRY (R311). -/
  | stopWindowExpiry (tile strand : Nat)
  /-- TILE_SAVE_COMPLETE (R313). -/
  | tileSaveComplete (tile : Nat)
  /-- CLUSTER_REGION_SAVE (R316). -/
  | clusterRegionSave (cluster : Nat)
  /-- CLUSTER_STOP_COMPLETE (R316). -/
  | clusterStopComplete (cluster : Nat)
  /-- HANG_WATCHDOG (R317). -/
  | hangWatchdog (tile : Nat)
  /-- SEQUENCER_OVERRUN (R317). -/
  | sequencerOverrun (tile : Nat)
  /-- SELF_TEST_START (R318). -/
  | selfTestStart (unit : TestUnit)
  /-- SELF_TEST_VERDICT (R318). -/
  | selfTestVerdict (unit : TestUnit) (lasting spared : Bool)
  /-- SYSTEM_REGISTER_PROPAGATE (R323). -/
  | systemRegisterPropagate (tile strand : Nat) (reg : SysReg) (value : DWord)
  /-- PACKAGE_RESET (R335). -/
  | packageReset
  /-- FUNCTION_READY (R335). -/
  | functionReady (fn : ReadyFn)
  /-- BOOT_STAGE (R336). -/
  | bootStage (stage : BootStage) (edOk mlOk : Bool)
  /-- GET_VERSION (R337). -/
  | getVersion
  /-- GET_CAPABILITIES (R337). -/
  | getCapabilities
  /-- NEGOTIATE_ALGORITHMS (R337). -/
  | negotiateAlgorithms
  /-- GET_DIGESTS (R337). -/
  | getDigests
  /-- GET_CERTIFICATE (R337). -/
  | getCertificate (chain : Nat)
  /-- CHALLENGE (R337). -/
  | challenge (nonce : Nat)
  /-- GET_MEASUREMENTS (R337). -/
  | getMeasurements (nonce : Nat)
  /-- HDM_READ (R331). -/
  | hdmRead (offset bytes : Nat)
  /-- HDM_WRITE (R331). -/
  | hdmWrite (offset : Nat) (bytes : List Byte)
  /-- COUNTER_ADD_PORT (R333). -/
  | counterAddPort (bytes die id : Nat) (inc : DWord)
  /-- COUNTER_READ_SLOT (R334). -/
  | counterReadSlot (slot : Nat)
  /-- WATCH_ENTRY_WRITE (R334). -/
  | watchEntryWrite (entry die id : Nat) (value : DWord)
  /-- POP_PORT_READ (R334). -/
  | popPortRead (die queue bytes : Nat)
  /-- STAGGER_WRITE (R339). -/
  | staggerWrite (value : DWord)
  /-- STAGGER_MESSAGE (R339). -/
  | staggerMessage (en : Bool) (width : Nat)
  /-- MGMT_REGISTER_WRITE (R332). -/
  | mgmtRegisterWrite (offset bytes : Nat) (value : BitVec 128)
  /-- CORE_DIE_TEMPERATURE (R77). -/
  | coreDieTemperature (die : Nat) (hot : Bool)
  /-- MGMT_WINDOW_READ (R332). -/
  | mgmtWindowRead (offset bytes : Nat)
  deriving DecidableEq, Repr

end Sys2Proof
end

