-- ==== Sys2Proof/Machine/Event.lean ====
section
/-! DEFINITION. The steps that the agenda holds: one for each event of the opcode table, with the same operands as the
constructor of Instr, and which event an instruction is. Lean's compiled code cannot build a constructor beyond the
245th, so the agenda holds these and not instructions; exec and the step call the same meanings for both (log 14). -/
namespace Sys2Proof

/-- A step that the part makes on its own or on an outside input (95_what_each_step_holds). -/
inductive Event where
  | pendingWriteComplete (tile strand : Nat) (w : Write)
  | strandSelect (tile : Nat)
  | waitSatisfied (tile strand : Nat)
  | takeTrap (tile strand : Nat) (info : TrapInfo)
  | overrun (tile strand : Nat)
  | extentPlacement (tile strand : Nat)
  | pageWalkComplete (cluster page : Nat)
  | releaseComplete (tile strand rel : Nat)
  | counterAdd (die id : Nat) (inc : DWord) (adder : Adder)
  | barrierComplete (bar : Nat)
  | streamCommandStart (tile : Nat)
  | streamCommandComplete (tile cmd : Nat)
  | arrival (tile addr bytes : Nat)
  | dunfRow (tile cmd row : Nat)
  | publishSwap (tile cmd : Nat)
  | kilnCommandStart (cluster : Nat)
  | kilnCommandComplete (cluster : Nat)
  | spltDrain (cluster : Nat)
  | spltComplete (cluster : Nat)
  | wldBeat (tile beat : Nat)
  | strmBeat (tile beat : Nat)
  | strmRowsFinal (tile cmd : Nat)
  | drnBeat (tile beat : Nat)
  | drnOutputFinal (tile cmd : Nat)
  | aclrBeat (tile beat : Nat)
  | quiltBeat (tile beat : Nat)
  | quiltStepCycle (tile offset : Nat)
  | quiltCommandComplete (tile : Nat)
  | fabricQueueArrival (tile : Nat)
  | rickAgeDeparture (die rick : Nat)
  | ringSlotArrival (pkt : Packet) (lap : Nat) (refused : Bool)
  | cordPerform (cord : Cord)
  | remoteLoadRequest (req : RemoteLoad)
  | flitCrcFailure (port tries : Nat)
  | mgrpComplete (org : Origin) (slot : BitVec 4) (addr : DWord)
  | mlrJoin (member : MlrMember)
  | mlrJoinDeadline (member : Nat)
  | mlrComplete (member : Nat)
  | tlbiComplete (cmd : TransCmd)
  | shootdownArrival (die : Nat) (cmd : TransCmd)
  | holderCountUpdate (home frame reader : Nat) (add : Bool)
  | shotComplete (cmd : TransCmd)
  | governorEpoch (die : Nat)
  | patrolScrub (die symbols : Nat)
  | launchTake (queue : Nat)
  | admission (queue : Nat)
  | launchStart (queue : Nat)
  | workUnitStart (queue : Nat)
  | workUnitComplete (tile : Nat)
  | launchEnd (queue : Nat)
  | launchResume (queue : Nat)
  | superstepBoundary (queue : Nat)
  | idleSuperstep (queue blocks : Nat)
  | idleSuperstepEnd (queue : Nat)
  | clockChange (mhz : Nat)
  | powerLimit (mhz blocks : Nat)
  | thermalEmergency
  | stopFlagSet (tile strand : Nat) (deep : Bool)
  | stopWindowExpiry (tile strand : Nat)
  | tileSaveComplete (tile : Nat)
  | clusterRegionSave (cluster : Nat)
  | clusterStopComplete (cluster : Nat)
  | hangWatchdog (tile : Nat)
  | sequencerOverrun (tile : Nat)
  | selfTestStart (unit : TestUnit)
  | selfTestVerdict (unit : TestUnit) (lasting spared : Bool)
  | systemRegisterPropagate (tile strand : Nat) (reg : SysReg) (value : DWord)
  | packageReset
  | functionReady (fn : ReadyFn)
  | bootStage (stage : BootStage) (edOk mlOk : Bool)
  | getVersion
  | getCapabilities
  | negotiateAlgorithms
  | getDigests
  | getCertificate (chain : Nat)
  | challenge (nonce : Nat)
  | getMeasurements (nonce : Nat)
  | hdmRead (offset bytes : Nat)
  | hdmWrite (offset : Nat) (bytes : List Byte)
  | counterAddPort (bytes die id : Nat) (inc : DWord)
  | counterReadSlot (slot : Nat)
  | watchEntryWrite (entry die id : Nat) (value : DWord)
  | popPortRead (die queue bytes : Nat)
  | staggerWrite (value : DWord)
  | staggerMessage (en : Bool) (width : Nat)
  | mgmtRegisterWrite (offset bytes : Nat) (value : BitVec 128)
  | coreDieTemperature (die : Nat) (hot : Bool)
  | mgmtWindowRead (offset bytes : Nat)
  deriving DecidableEq, Repr

/-- The event that an instruction of the table stands for; none for a word. -/
def Instr.event? : Instr → Option Event
  | .pendingWriteComplete x0 x1 x2 => some (.pendingWriteComplete x0 x1 x2)
  | .strandSelect x0 => some (.strandSelect x0)
  | .waitSatisfied x0 x1 => some (.waitSatisfied x0 x1)
  | .takeTrap x0 x1 x2 => some (.takeTrap x0 x1 x2)
  | .overrun x0 x1 => some (.overrun x0 x1)
  | .extentPlacement x0 x1 => some (.extentPlacement x0 x1)
  | .pageWalkComplete x0 x1 => some (.pageWalkComplete x0 x1)
  | .releaseComplete x0 x1 x2 => some (.releaseComplete x0 x1 x2)
  | .counterAdd x0 x1 x2 x3 => some (.counterAdd x0 x1 x2 x3)
  | .barrierComplete x0 => some (.barrierComplete x0)
  | .streamCommandStart x0 => some (.streamCommandStart x0)
  | .streamCommandComplete x0 x1 => some (.streamCommandComplete x0 x1)
  | .arrival x0 x1 x2 => some (.arrival x0 x1 x2)
  | .dunfRow x0 x1 x2 => some (.dunfRow x0 x1 x2)
  | .publishSwap x0 x1 => some (.publishSwap x0 x1)
  | .kilnCommandStart x0 => some (.kilnCommandStart x0)
  | .kilnCommandComplete x0 => some (.kilnCommandComplete x0)
  | .spltDrain x0 => some (.spltDrain x0)
  | .spltComplete x0 => some (.spltComplete x0)
  | .wldBeat x0 x1 => some (.wldBeat x0 x1)
  | .strmBeat x0 x1 => some (.strmBeat x0 x1)
  | .strmRowsFinal x0 x1 => some (.strmRowsFinal x0 x1)
  | .drnBeat x0 x1 => some (.drnBeat x0 x1)
  | .drnOutputFinal x0 x1 => some (.drnOutputFinal x0 x1)
  | .aclrBeat x0 x1 => some (.aclrBeat x0 x1)
  | .quiltBeat x0 x1 => some (.quiltBeat x0 x1)
  | .quiltStepCycle x0 x1 => some (.quiltStepCycle x0 x1)
  | .quiltCommandComplete x0 => some (.quiltCommandComplete x0)
  | .fabricQueueArrival x0 => some (.fabricQueueArrival x0)
  | .rickAgeDeparture x0 x1 => some (.rickAgeDeparture x0 x1)
  | .ringSlotArrival x0 x1 x2 => some (.ringSlotArrival x0 x1 x2)
  | .cordPerform x0 => some (.cordPerform x0)
  | .remoteLoadRequest x0 => some (.remoteLoadRequest x0)
  | .flitCrcFailure x0 x1 => some (.flitCrcFailure x0 x1)
  | .mgrpComplete x0 x1 x2 => some (.mgrpComplete x0 x1 x2)
  | .mlrJoin x0 => some (.mlrJoin x0)
  | .mlrJoinDeadline x0 => some (.mlrJoinDeadline x0)
  | .mlrComplete x0 => some (.mlrComplete x0)
  | .tlbiComplete x0 => some (.tlbiComplete x0)
  | .shootdownArrival x0 x1 => some (.shootdownArrival x0 x1)
  | .holderCountUpdate x0 x1 x2 x3 => some (.holderCountUpdate x0 x1 x2 x3)
  | .shotComplete x0 => some (.shotComplete x0)
  | .governorEpoch x0 => some (.governorEpoch x0)
  | .patrolScrub x0 x1 => some (.patrolScrub x0 x1)
  | .launchTake x0 => some (.launchTake x0)
  | .admission x0 => some (.admission x0)
  | .launchStart x0 => some (.launchStart x0)
  | .workUnitStart x0 => some (.workUnitStart x0)
  | .workUnitComplete x0 => some (.workUnitComplete x0)
  | .launchEnd x0 => some (.launchEnd x0)
  | .launchResume x0 => some (.launchResume x0)
  | .superstepBoundary x0 => some (.superstepBoundary x0)
  | .idleSuperstep x0 x1 => some (.idleSuperstep x0 x1)
  | .idleSuperstepEnd x0 => some (.idleSuperstepEnd x0)
  | .clockChange x0 => some (.clockChange x0)
  | .powerLimit x0 x1 => some (.powerLimit x0 x1)
  | .thermalEmergency => some .thermalEmergency
  | .stopFlagSet x0 x1 x2 => some (.stopFlagSet x0 x1 x2)
  | .stopWindowExpiry x0 x1 => some (.stopWindowExpiry x0 x1)
  | .tileSaveComplete x0 => some (.tileSaveComplete x0)
  | .clusterRegionSave x0 => some (.clusterRegionSave x0)
  | .clusterStopComplete x0 => some (.clusterStopComplete x0)
  | .hangWatchdog x0 => some (.hangWatchdog x0)
  | .sequencerOverrun x0 => some (.sequencerOverrun x0)
  | .selfTestStart x0 => some (.selfTestStart x0)
  | .selfTestVerdict x0 x1 x2 => some (.selfTestVerdict x0 x1 x2)
  | .systemRegisterPropagate x0 x1 x2 x3 => some (.systemRegisterPropagate x0 x1 x2 x3)
  | .packageReset => some .packageReset
  | .functionReady x0 => some (.functionReady x0)
  | .bootStage x0 x1 x2 => some (.bootStage x0 x1 x2)
  | .getVersion => some .getVersion
  | .getCapabilities => some .getCapabilities
  | .negotiateAlgorithms => some .negotiateAlgorithms
  | .getDigests => some .getDigests
  | .getCertificate x0 => some (.getCertificate x0)
  | .challenge x0 => some (.challenge x0)
  | .getMeasurements x0 => some (.getMeasurements x0)
  | .hdmRead x0 x1 => some (.hdmRead x0 x1)
  | .hdmWrite x0 x1 => some (.hdmWrite x0 x1)
  | .counterAddPort x0 x1 x2 x3 => some (.counterAddPort x0 x1 x2 x3)
  | .counterReadSlot x0 => some (.counterReadSlot x0)
  | .watchEntryWrite x0 x1 x2 x3 => some (.watchEntryWrite x0 x1 x2 x3)
  | .popPortRead x0 x1 x2 => some (.popPortRead x0 x1 x2)
  | .staggerWrite x0 => some (.staggerWrite x0)
  | .staggerMessage x0 x1 => some (.staggerMessage x0 x1)
  | .mgmtRegisterWrite x0 x1 x2 => some (.mgmtRegisterWrite x0 x1 x2)
  | .coreDieTemperature x0 x1 => some (.coreDieTemperature x0 x1)
  | .mgmtWindowRead x0 x1 => some (.mgmtWindowRead x0 x1)
  | .nop | .add .. | .addImm .. | .sub .. | .subImm .. | .mul .. | .mulImm .. | .mulh .. | .mulhImm .. |
  .mulhn .. | .mulhnImm .. | .div .. | .divImm .. | .divn .. | .divnImm .. | .rem .. | .remImm .. | .remn .. |
  .remnImm .. | .addw .. | .addwImm .. | .subw .. | .subwImm .. | .mulw .. | .mulwImm .. | .and .. | .andImm ..
  | .or .. | .orImm .. | .xor .. | .xorImm .. | .andn .. | .andnImm .. | .shl .. | .shlImm .. | .shr .. |
  .shrImm .. | .shra .. | .shraImm .. | .shlw .. | .shlwImm .. | .shrw .. | .shrwImm .. | .shraw .. |
  .shrawImm .. | .min .. | .minImm .. | .max .. | .maxImm .. | .minn .. | .minnImm .. | .maxn .. | .maxnImm .. |
  .clz .. | .popc .. | .bfx .. | .bfxImm .. | .bfi .. | .bfiImm .. | .sel .. | .cmp .. | .cmpImm .. | .plog .. |
  .stg .. | .rstg .. | .geti .. | .ldb .. | .ldbn .. | .ldh .. | .ldhn .. | .ldw .. | .ldwn .. | .ldd .. |
  .stb .. | .sth .. | .stw .. | .std .. | .pref .. | .disc .. | .luse .. | .br .. | .jmp .. | .call .. | .jr ..
  | .lset .. | .lseti .. | .lexit .. | .dly .. | .node .. | .sels .. | .yield | .halt | .trap .. | .gangEnter |
  .gangExit | .vadd .. | .vsub .. | .vadds .. | .vsubs .. | .vmul .. | .vmulh .. | .vmad .. | .vmin .. |
  .vmax .. | .vminn .. | .vmaxn .. | .vabs .. | .vand .. | .vor .. | .vxor .. | .vshl .. | .vshr .. | .vshra ..
  | .vaddw .. | .vmulw .. | .vmulq .. | .vmadq .. | .vfadd .. | .vfsub .. | .vfmul .. | .vfma .. | .vfmin .. |
  .vfmax .. | .vfabs .. | .vfneg .. | .vfrcp .. | .vfrsq .. | .vfexp2 .. | .vflog2 .. | .vlmul .. | .vlrcp .. |
  .vcmp .. | .vsel .. | .vreds .. | .vredx .. | .vredn .. | .vld .. | .vst .. | .vgth .. | .vsct .. | .vbc .. |
  .vget .. | .vput .. | .vprm .. | .vtrp .. | .vcvt .. | .vqnt .. | .vdqnt .. | .vrnd .. | .viota .. | .vext ..
  | .vcmpr .. | .vmovm .. | .afmt .. | .wld .. | .aswp | .strm .. | .drn .. | .aclr .. | .agng .. | .asta .. |
  .ksa .. | .ksw .. | .kso .. | .kclr | .dcpy .. | .dunf .. | .dpubInit .. | .dpub .. | .dfil .. | .dgth .. |
  .dsta .. | .qpat .. | .qldy .. | .qdom .. | .qstp .. | .qsav | .qrst | .qrdv .. | .qsta .. | .rsw .. | .ram ..
  | .rld .. | .rfl .. | .mgrp .. | .mlr .. | .rfq .. | .rsta .. | .cadd .. | .caddRemote .. | .cwt .. | .crd ..
  | .aarm .. | .awt .. | .phs .. | .bar .. | .fen .. | .splt .. | .dgsOn | .dgsOff | .dgsRd .. | .dgsFold .. |
  .upcf | .updm .. | .upmo .. | .upst .. | .srd .. | .swr .. | .tret .. | .tlbi .. | .shot .. | .csav .. |
  .crst .. | .stop .. | .slp .. | .sflt .. => none

end Sys2Proof
end

