-- ==== Sys2Proof/Machine/SMap.lean ====
section
/-! DEFINITION. Sparse maps by a natural key, sorted by key, and byte memories in canonical form. -/
namespace Sys2Proof

/-- Insert an element behind those that come before it or with it. -/
def insertBy {α : Type} (le : α → α → Bool) (x : α) : List α → List α
  | [] => [x]
  | y :: l => if le y x then y :: insertBy le x l else x :: y :: l

/-- A list in order; what stands level keeps its order. -/
def sortBy {α : Type} (le : α → α → Bool) (l : List α) : List α := l.foldl (fun r x => insertBy le x r) []

/-- A finite map from naturals, kept sorted by key. -/
abbrev SMap (α : Type) := List (Nat × α)

/-- The value at a key, or `dflt`. -/
def SMap.get {α : Type} (dflt : α) : SMap α → Nat → α
  | [], _ => dflt
  | (j, x) :: m, k => if j = k then x else SMap.get dflt m k

/-- The value at a key, if the map has one. -/
def SMap.find {α : Type} : SMap α → Nat → Option α
  | [], _ => none
  | (j, x) :: m, k => if j = k then some x else SMap.find m k

/-- Set the value at a key, keeping the order of keys. -/
def SMap.put {α : Type} : SMap α → Nat → α → SMap α
  | [], k, v => [(k, v)]
  | (j, x) :: m, k, v =>
    if k < j then (k, v) :: (j, x) :: m
    else if k = j then (k, v) :: m
    else (j, x) :: SMap.put m k v

/-- Remove a key. -/
def SMap.del {α : Type} (m : SMap α) (k : Nat) : SMap α := m.filter fun e => e.1 != k

/-- Change the value at a key that is present. -/
def SMap.upd {α : Type} (f : α → α) : SMap α → Nat → SMap α
  | [], _ => []
  | (j, x) :: m, k => if j = k then (j, f x) :: m else (j, x) :: SMap.upd f m k

/-- A memory: addresses strictly rising, no entry equal to zero, which an unlisted address reads as (log 3). -/
abbrev Memory := List Host.Cell

/-- The byte at an address. -/
def Memory.read : Memory → Nat → Byte
  | [], _ => 0
  | (j, x) :: m, a => if j = a then x else Memory.read m a

/-- Write one byte; writing zero removes the entry. -/
def Memory.write : Memory → Nat → Byte → Memory
  | [], a, b => if b = 0 then [] else [(a, b)]
  | (j, x) :: m, a, b =>
    if a < j then (if b = 0 then (j, x) :: m else (a, b) :: (j, x) :: m)
    else if a = j then (if b = 0 then m else (a, b) :: m)
    else (j, x) :: Memory.write m a b

/-- The cells of bytes that stand from an address on. -/
def cellsOf : Nat → List Byte → Memory
  | _, [] => []
  | a, b :: bs => if b = 0 then cellsOf (a + 1) bs else (a, b) :: cellsOf (a + 1) bs

/-- The cells from an address on. -/
def Memory.rest : Memory → Nat → Memory
  | [], _ => []
  | (j, x) :: m, a => if j < a then Memory.rest m a else (j, x) :: m

/-- Write bytes at rising addresses. -/
def Memory.writes : Memory → Nat → List Byte → Memory
  | [], a, bs => cellsOf a bs
  | (j, x) :: m, a, bs =>
    if j < a then (j, x) :: Memory.writes m a bs else cellsOf a bs ++ Memory.rest ((j, x) :: m) (a + bs.length)

/-- The n bytes at rising addresses from a. -/
def Memory.reads : Memory → Nat → Nat → List Byte
  | [], _, n => List.replicate n 0
  | (j, x) :: m, a, n =>
    if j < a then Memory.reads m a n
    else if a + n ≤ j then List.replicate n 0
    else List.replicate (j - a) 0 ++ x :: Memory.reads m (j + 1) (n - (j - a) - 1)

/-- Write one nibble of a byte (R180). -/
def Memory.writeNib (m : Memory) (a : Nat) (hi : Bool) (x : BitVec 4) : Memory :=
  m.write a (if hi then x ++ (m.read a).extractLsb' 0 4 else (m.read a).extractLsb' 4 4 ++ x)

/-- Whether every address of the list is above `lo` and rises, and no byte is zero. -/
def Memory.above : Option Nat → Memory → Bool
  | _, [] => true
  | lo, (j, x) :: m => (match lo with | none => true | some l => l < j) && x != 0 && Memory.above (some j) m

/-- The canonical form of a memory. -/
def Memory.wf (m : Memory) : Bool := Memory.above none m

/-- Forget the bytes in [lo, hi). -/
def Memory.clear (m : Memory) (lo hi : Nat) : Memory := m.filter fun c => !(lo ≤ c.1 && c.1 < hi)

/-- The cells of [lo, hi) replaced by others of that range. -/
def Memory.splice (m : Memory) (lo hi : Nat) (new : Memory) : Memory :=
  (m.filter fun c => c.1 < lo) ++ new ++ m.filter fun c => hi ≤ c.1

/-- The cells of [lo, hi), moved to begin at `a`. -/
def Memory.part (m : Memory) (lo hi a : Nat) : Memory :=
  (m.filter fun c => lo ≤ c.1 && c.1 < hi).map fun c => (c.1 - lo + a, c.2)

/-- The value of little-endian bytes (R1). -/
def leNat : List Byte → Nat
  | [] => 0
  | b :: bs => b.toNat + 256 * leNat bs

/-- The n little-endian bytes of a natural (R1). -/
def leBytes : Nat → Nat → List Byte
  | 0, _ => []
  | n + 1, x => BitVec.ofNat 8 x :: leBytes n (x / 256)

end Sys2Proof
end

