-- ==== Sys2Proof/Machine/State.lean ====
section
/-! DEFINITION. The state of a Petil package, whole and as plain data: the package, its eight dies, 256 clusters, 2,048
tiles and their strands, and the steps that are still to come. INVENTORY.md lists every field with its rule and its
reset value. -/
namespace Sys2Proof.Machine

/-- Faults of the model. The spec turns every error of a program into a trap, a record or a refused access, all of which
are next states; no meaning raises a model fault (safe: there is none). -/
inductive Fault where
  /-- Raised by no meaning and by no step. Safe: a run never ends in it. -/
  | none
  deriving DecidableEq, Repr

/-- Refusals of the model. -/
inductive Refusal where
  /-- Raised by an arm of exec whose instruction has no meaning yet. Safe: the run stops. -/
  | notModelled (mnemonic : String)
  deriving DecidableEq, Repr

/-! ### Registers and formats -/

/-- A loop register (Table COR-9). `stop` is its END field. -/
structure Loop where
  start : Word
  stop  : Word
  count : Word
  act   : Bool
  nest  : Bool
  deriving DecidableEq, Repr

/-- A loop at reset: every field 0. -/
def Loop.zero : Loop := ⟨0, 0, 0, false, false⟩

/-- Sticky flags of EFR.V (Table NUM-9); `ov` is OF. -/
structure Flags where
  cl : Bool
  nx : Bool
  uf : Bool
  ov : Bool
  dz : Bool
  nv : Bool
  deriving DecidableEq, Repr

/-- No flag set. -/
def Flags.zero : Flags := ⟨false, false, false, false, false, false⟩

/-- Sticky flags of EFR.A and of the kilns (Table NUM-8, Table MEM-10); `ov` is OF. -/
structure EngFlags where
  cl : Bool
  ov : Bool
  nv : Bool
  deriving DecidableEq, Repr

/-- No flag set. -/
def EngFlags.zero : EngFlags := ⟨false, false, false⟩

/-- Format fields of EFR.V (Table NUM-9). -/
structure FmtV where
  l4f : BitVec 2
  l8f : BitVec 2
  rm  : BitVec 2
  deriving DecidableEq, Repr

/-- EFR.V's format fields at reset. -/
def FmtV.reset : FmtV := ⟨1, 1, 0⟩

/-- Format fields of EFR.A (Table NUM-8). -/
structure FmtA where
  aw   : Bool
  af   : BitVec 2
  sgn  : Bool
  ww   : Bool
  wf   : BitVec 2
  ws   : Bool
  nsub : BitVec 2
  sp   : BitVec 2
  deriving DecidableEq, Repr

/-- EFR.A's format fields at reset. -/
def FmtA.reset : FmtA := ⟨false, 1, true, false, 1, true, 0, 0⟩

/-- A pending write of EFR.A's format (R71): who wrote it, from which bundle of the writer and from which cc of other
strands it is seen. -/
structure FmtAWrite where
  strand : Nat
  fromBundle : Nat
  fromCc : Nat
  fmt : FmtA
  deriving DecidableEq, Repr

/-- A pending write of EFR.V's format (R71), seen from the named bundle on. -/
structure FmtVWrite where
  fromBundle : Nat
  fmt : FmtV
  deriving DecidableEq, Repr

/-! ### Strands -/

/-- A destination that the shadow scoreboard watches (R32). -/
inductive Dest where
  | g (r : Reg)
  | p (r : Reg3)
  | v (r : Reg)
  | m (r : Reg3)
  | stg (e : Eng) (i : BitVec 4)
  | loop (l : Bool)
  deriving DecidableEq, Repr

/-- Why a blocked bundle waits (R135). -/
inductive Wait where
  | streamQueue
  | fabricQueue
  | syncQueue
  | transQueue
  | kilnQueue
  | walkQueue
  | counter (id : Nat) (value : DWord)
  | arrival (addr : Nat) (gen : Word)
  | barrier (scope : Scope) (ss : Bool)
  | engines (mask : BitVec 8)
  | gang
  | sleep (deadline : DWord) (mask : BitVec 5)
  | region
  deriving DecidableEq, Repr

/-- Why a strand whose bundle has issued is held and not ready. -/
inductive Hold where
  | split
  | release
  | superstep
  deriving DecidableEq, Repr

/-- How a strand has stopped (R311). -/
inductive Stopped where
  | no | cheap | deep
  deriving DecidableEq, Repr

/-- A strand's part in gang mode (R163 to R165). -/
inductive Gang where
  | no
  | waiting
  | ganged
  | held
  deriving DecidableEq, Repr

/-- A command of a strand that has not completed: its source (Table TRP-1's ENGINE code), its number, whether it is a
rick entry, its node, and whether it is a load (an RLD, or an M load of a remote page), which no FEN waits for (R280). -/
structure Outstanding where
  engine : Nat
  seq    : Nat
  entry  : Bool
  node   : Option (BitVec 22)
  load   : Bool
  deriving DecidableEq, Repr

/-- An owned word (R260): its word index in cluster store, or its virtual word index with the home it translated to,
the bytes written and their values. -/
structure Owned where
  store : Bool
  word  : Nat
  die   : Nat
  off   : Nat
  mask  : BitVec 4
  data  : Word
  deriving DecidableEq, Repr

/-- A release that has not completed (R262): its number, its words, the fabric numbers of the entries it drains, whether
its words were folded into the digest, whether its words have been performed, whether a HALT or a BAR asked for it, and
what follows it. -/
structure Release where
  id      : Nat
  words   : List Owned
  entries : List Nat
  folds   : Bool
  written : Bool
  halts   : Bool
  bar     : Bool
  org     : Origin
  deriving DecidableEq, Repr

/-- The node a strand is in (R297, R298): its index, its entry word, the cc from which it counts, its bound, the cc of an
interval that is not counted and has not ended, and whether its count has reached the bound. -/
structure NodeRun where
  index : BitVec 22
  entry : Word
  since : Nat
  bound : Nat
  pause : Option Nat
  late  : Bool
  deriving DecidableEq, Repr

/-- Numbers of the next event of each source (R246, R308). -/
structure Seqs where
  array  : Nat
  stream : Nat
  quilt  : Nat
  fabric : Nat
  sync   : Nat
  kiln   : Nat
  trans  : Nat
  deriving DecidableEq, Repr

/-- TRAPST, TRAPPC, TRAPVEC, TRAPREC and STOPFLAG (Table TRP-8). -/
structure TrapRegs where
  lact1 : Bool
  lact0 : Bool
  ppriv : Bool
  priv  : Bool
  inh   : Bool
  pc    : Word
  en    : Bool
  entry : Word
  area  : Nat
  exp   : Bool
  deep  : Bool
  pend  : Bool
  deriving DecidableEq, Repr

/-- The private state of one strand (Table COR-1) and what the core remembers of it. -/
structure Strand where
  started : Bool
  halted  : Bool
  stopped : Stopped
  pc      : Word
  g       : Vector DWord 32
  p       : Vector Bool 8
  v       : Vector VWord 32
  m       : Vector MWord 8
  d       : Vector DWord 16
  q       : Vector DWord 8
  f       : Vector DWord 8
  n       : Vector DWord 8
  loop0   : Loop
  loop1   : Loop
  schedTrap : Bool
  fmtV    : FmtV
  fmtVLog : List FmtVWrite
  flags   : Flags
  trap    : TrapRegs
  owned   : List Owned
  rels    : List Release
  relNext : Nat
  digest  : BitVec 128
  folding : Bool
  node    : Option NodeRun
  ended   : List (BitVec 22)
  bundles : Nat
  seqs    : Seqs
  outst   : List Outstanding
  faults  : List (Nat × TrapInfo)
  overrun : Bool
  thermal : Bool
  board   : List (Dest × Nat)
  block   : Option Wait
  wake    : Bool
  cleared : Option Nat
  regionDue : Option Nat
  barFaults : List TrapInfo
  yielded : Bool
  hold    : Option Hold
  gang    : Gang
  barPassed : SMap Nat
  mismatch : Bool
  splitGen : Option Nat
  nextCc  : Nat
  transferFrom : Option Word
  stopSince : Nat
  stopUntil : Nat
  stopHere : Bool
  extent  : Option Word
  gangSeq : Nat
  panelTraps : List TrapInfo
  gangBase : Seqs
  gangEnd : Option Seqs
  deriving DecidableEq, Repr

/-- Reset values of TRAPST and its companions for strand s (R310, Table TRP-8). -/
def TrapRegs.reset (s : Nat) : TrapRegs :=
  ⟨false, false, false, false, false, 0, false, 0, 0x1FFF00 + 64 * s, false, false, false⟩

/-- A strand after package reset (log 4): idle, every register zero. -/
def Strand.reset (s : Nat) : Strand where
  started := false
  halted := false
  stopped := .no
  pc := 0
  g := Vector.replicate 32 0
  p := Vector.replicate 8 false
  v := Vector.replicate 32 0
  m := Vector.replicate 8 0
  d := Vector.replicate 16 0
  q := Vector.replicate 8 0
  f := Vector.replicate 8 0
  n := Vector.replicate 8 0
  loop0 := .zero
  loop1 := .zero
  schedTrap := false
  fmtV := .reset
  fmtVLog := []
  flags := .zero
  trap := .reset s
  owned := []
  rels := []
  relNext := 0
  digest := 0
  folding := false
  node := none
  ended := []
  bundles := 0
  seqs := ⟨0, 0, 0, 0, 0, 0, 0⟩
  outst := []
  faults := []
  overrun := false
  thermal := false
  board := []
  block := none
  wake := false
  cleared := none
  regionDue := none
  barFaults := []
  yielded := false
  hold := none
  gang := .no
  barPassed := []
  mismatch := false
  splitGen := none
  nextCc := 0
  transferFrom := none
  stopSince := 0
  stopUntil := 0
  stopHere := false
  extent := none
  gangSeq := 0
  panelTraps := []
  gangBase := ⟨0, 0, 0, 0, 0, 0, 0⟩
  gangEnd := none

/-! ### Engines of a tile -/

/-- An SX32 latch with the writes still in their delay (R195): the value and, oldest first, the cc from which each later
value governs. -/
structure Latch where
  base : Word
  log  : List (Nat × Word)
  deriving DecidableEq, Repr

/-- A latch at work-unit start. -/
def Latch.zero : Latch := ⟨0, []⟩

/-- A cell of a weight bank: two codes and two indices (Table ARR-1). -/
structure Cell where
  c0 : Byte
  c1 : Byte
  i0 : BitVec 3
  i1 : BitVec 3
  deriving DecidableEq, Repr

/-- A cell at work-unit start. -/
def Cell.zero : Cell := ⟨0, 0, 0, 0⟩

/-- The format record of a bank (R69). -/
structure BankRec where
  ww : Bool
  wf : BitVec 2
  ws : Bool
  sp : BitVec 2
  deriving DecidableEq, Repr

/-- A weight bank; the cell of row r and column c stands at 96 r + c. -/
structure Bank where
  cells : SMap Cell
  fmt   : BankRec
  deriving DecidableEq, Repr

/-- A bank at work-unit start (R193). -/
def Bank.zero : Bank := ⟨[], ⟨false, 1, true, 0⟩⟩

/-- The kinds of array command. -/
inductive ArrOp where
  | wld | strm | drn (zr : Bool) (fmt : DrnFmt) | aclr
  deriving DecidableEq, Repr

/-- An array command in flight: what it sampled at issue, the staging it read, and what it found on the way. -/
structure ArrCmd where
  id     : Nat
  op     : ArrOp
  org    : Origin
  start  : Nat
  beats  : Nat
  first  : Nat
  fmt    : FmtA
  addr   : Nat
  pitch  : Nat
  idx    : Nat
  ring   : Nat
  cred   : Option Nat
  so     : Word
  cols   : SMap Word
  final  : Nat
  chain  : Bool
  out    : List (Nat × List Byte)
  nar    : Bool
  refused : Bool
  deriving DecidableEq, Repr

/-- A Quilt cell (Table QLT-1). -/
structure QCell where
  y    : Word
  res  : Word
  patch : DWord
  cnt  : BitVec 12
  out  : BitVec 2
  frz  : Bool
  deriving DecidableEq, Repr

/-- A Quilt cell at work-unit start. -/
def QCell.zero : QCell := ⟨0, 0, 0, 0, 0, false⟩

/-- A Quilt domain (Table QLT-1): DIV and n are those of QDOM. -/
structure QDom where
  conf : Bool
  div  : Nat
  n    : Nat
  deriving DecidableEq, Repr

/-- A domain at work-unit start (R213): CONF 0, with a divider of 1 and a width of 0 that nothing reads. -/
def QDom.zero : QDom := ⟨false, 1, 0⟩

/-- The kinds of Quilt slot command. -/
inductive QOp where
  | pat | ldy | stp (d : Nat) (mask : Nat) | sav | rst | rdv
  deriving DecidableEq, Repr

/-- A Quilt fault (R220): cause, cell, input, domain, and the address field it would give. -/
structure QFault where
  cause : Nat
  cell  : Nat
  input : Nat
  dom   : Nat
  addr  : Nat
  deriving DecidableEq, Repr

/-- The Quilt command in flight. -/
structure QCmd where
  op    : QOp
  org   : Origin
  start : Nat
  beats : Nat
  first : Nat
  addr  : Nat
  count : Nat
  fault : Option QFault
  nfault : Nat
  deriving DecidableEq, Repr

/-- The kinds of stream command. -/
inductive SOp where
  | dcpy | dunf | dpub (init : Bool) (pair : Nat) | dfil | dgth
  deriving DecidableEq, Repr

/-- A stream command (R112): its word, the staging and the descriptor bytes read at issue, and its progress. -/
structure SCmd where
  id    : Nat
  op    : SOp
  cmpl  : Cmpl
  shd   : Bool
  src   : DSpace
  dst   : DSpace
  d     : Vector DWord 8
  desc  : List Byte
  org   : Origin
  queued : Nat
  gate  : Nat
  split : Nat
  start : Nat
  c0    : DWord
  row   : Nat
  efault : Option (Nat × Nat × Nat)
  nfault : Nat
  deriving DecidableEq, Repr

/-- A shadow pair (R123); `pub` says that the alternate region is the published one. -/
structure Pair where
  base : Nat
  alt  : Nat
  len  : Nat
  pub  : Bool
  deriving DecidableEq, Repr

/-- An item of a tile's fabric queue (R237). -/
inductive FabItem where
  | entry (kind : EntryKind) (va : DWord) (data : DWord) (dbl : Bool) (org : Origin) (issue : Nat)
  | remoteAdd (id : Nat) (inc : DWord) (peer : BitVec 16) (org : Origin) (issue : Nat) (gate : Option Nat)
  | load (va : DWord) (size : Nat) (signed : Bool) (dest : Reg) (org : Origin) (due bundle : Nat) (own : List (Option Byte))
  | flush (all : Bool) (peer : BitVec 16) (org : Origin)
  | group (slot : BitVec 4) (addr : DWord) (org : Origin)
  | reduce (m : MlrMember)
  | drain (org : Origin) (rel : Nat)
  deriving DecidableEq, Repr

/-- A remote-fault record with its DATA and TILE (Table FAB-5). -/
structure RFRecord where
  tile : Nat
  data : DWord
  cause : Nat
  xcause : Nat
  dbl  : Bool
  kind : Nat
  peer : BitVec 16
  strand : Nat
  seq  : Nat
  addr : DWord
  deriving DecidableEq, Repr

/-- A local CADD in a tile's synchronisation queue (R273); it waits for the release numbered `gate`, if any. -/
structure SyncItem where
  id   : Nat
  inc  : DWord
  org  : Origin
  gate : Option Nat
  sent : Bool
  deriving DecidableEq, Repr

/-- How a tile is being saved (R311 to R313). -/
inductive Saving where
  | no | cheap | deep
  deriving DecidableEq, Repr

/-- A TLB entry (R104): context, first page and size in 64 KiB pages, and the leaf it came from. -/
structure TlbEntry where
  ctx   : BitVec 12
  page  : Nat
  pages : Nat
  mode  : BitVec 2
  ro    : Bool
  tidx  : BitVec 4
  peer  : BitVec 16
  frame : Nat
  count : Nat
  pinned : Bool
  deriving DecidableEq, Repr

/-- The status of a tile's engines that its save area has no field for: the counts of commands and of faults, and the latest
causes (Tables ARR-5, QLT-8, STR-9, FAB-7). -/
structure EngStatus where
  arrDone : Word
  qDone   : Word
  qCause  : Nat
  sDone   : Word
  sFaults : Nat
  sCause  : Nat
  fFaults : Nat
  fOvf    : Nat
  fCause  : Nat
  deriving DecidableEq, Repr

/-- The status at reset. -/
def EngStatus.zero : EngStatus := ⟨0, 0, 0, 0, 0, 0, 0, 0, 0⟩

/-- The state of one tile; `marks` keeps its engines' status of the work unit's start (R314), and `qOld` keeps the bytes that QSAV replaces, for engine commands that started before (R227). -/
structure Tile where
  launch  : Option Nat
  unitOn  : Bool
  running : Option Nat
  last    : Nat
  act     : Option Nat
  strands : SMap Strand
  scratch : Memory
  pairs   : SMap Pair
  a       : Vector DWord 8
  fmtA    : FmtA
  fmtALog : List FmtAWrite
  flagsA  : EngFlags
  bankA   : Bank
  bankS   : Bank
  acc     : SMap DWord
  actL    : Latch
  colL    : SMap Latch
  outL    : Latch
  chain   : Bool
  wFree   : Nat
  sFree   : Nat
  dFree   : Nat
  arr     : List ArrCmd
  arrNext : Nat
  arrDone : Word
  partner : SMap DWord
  qcells  : SMap QCell
  qdoms   : SMap QDom
  qFree   : Nat
  qcmd    : Option QCmd
  qOld    : List (Nat × Nat × Byte)
  qDone   : Word
  qCause  : Nat
  qCauseCc : Nat
  sq      : List SCmd
  sp      : List SCmd
  sNext   : Nat
  sDone   : Word
  sFaults : Nat
  sCause  : Nat
  sNew    : Nat × Nat
  fq      : List FabItem
  fqCc    : Nat
  fqWalk  : Option Nat
  rfq     : List RFRecord
  rfNew   : List RFRecord
  rfDrop  : Nat
  fFaults : Nat
  fOvf    : Nat
  fCause  : Nat
  fNew    : Nat × Nat
  yq      : List SyncItem
  tq      : Nat
  saveArea : DWord
  saving  : Saving
  saveAt  : Option Nat
  saved   : Bool
  deepRun : Option Nat
  retired : Bool
  isolated : Bool
  hang    : Nat
  tlb     : List TlbEntry
  marks   : EngStatus
  deriving DecidableEq, Repr

/-- A tile after package reset (log 4). -/
def Tile.reset : Tile where
  launch := none
  unitOn := false
  running := none
  last := 3
  act := none
  strands := []
  scratch := []
  pairs := []
  a := Vector.replicate 8 0
  fmtA := .reset
  fmtALog := []
  flagsA := .zero
  bankA := .zero
  bankS := .zero
  acc := []
  actL := .zero
  colL := []
  outL := .zero
  chain := false
  wFree := 0
  sFree := 0
  dFree := 0
  arr := []
  arrNext := 0
  arrDone := 0
  partner := []
  qcells := []
  qdoms := []
  qFree := 0
  qcmd := none
  qOld := []
  qDone := 0
  qCause := 0
  qCauseCc := 0
  sq := []
  sp := []
  sNext := 0
  sDone := 0
  sFaults := 0
  sCause := 0
  sNew := (0, 0)
  fq := []
  fqCc := 0
  fqWalk := none
  rfq := []
  rfNew := []
  rfDrop := 0
  fFaults := 0
  fOvf := 0
  fCause := 0
  fNew := (0, 0)
  yq := []
  tq := 0
  saveArea := 0
  saving := .no
  saveAt := none
  saved := false
  deepRun := none
  retired := false
  isolated := false
  hang := 0
  tlb := []
  marks := .zero

/-! ### Clusters -/

/-- A walk in progress or queued (R104): its context, its page (va[51:16]), and what it finds: the leaf, or the cause
and level of its fault. -/
structure Walk where
  ctx  : BitVec 12
  page : Nat
  res  : Option TlbEntry
  flt  : Nat × Nat
  deriving DecidableEq, Repr

/-- The level-1 pointer that a page walker keeps (R104): the context and the 2 MiB region that it serves, and the level-0
table that it names. -/
structure WalkPtr where
  ctx    : BitVec 12
  region : Nat
  peer   : BitVec 16
  frame  : Nat
  deriving DecidableEq, Repr

/-- The kiln configuration (R92). -/
structure KilnCfg where
  lr  : Word
  eps : Word
  c1  : Word
  c2  : Word
  decay : BitVec 16
  deriving DecidableEq, Repr

/-- The kinds of kiln command. -/
inductive KOp where
  | upcf | updm (mom : Bool) | upmo
  deriving DecidableEq, Repr

/-- A kiln command (R91) with the staging it read, and, once it runs, its flags, its first element fault and how many
elements it skipped. -/
structure KCmd where
  op   : KOp
  cnt  : Bool
  bf   : Bool
  n    : Vector DWord 8
  org  : Origin
  gate : Nat
  split : Nat
  fl   : EngFlags
  err  : Option (Nat × Nat × Nat)
  skip : Nat
  deriving DecidableEq, Repr

/-- A panel (R163): the strand that each of the eight tiles gangs, the number of the lead's next item, how many members
have left, and the trap that the whole panel takes at the first bundle that the lead issues at or after a cc (R211). -/
structure Panel where
  strands : List Nat
  next    : Nat
  gone    : Nat
  traps   : List (Nat × TrapInfo)
  deriving DecidableEq, Repr

/-- What a lead passes on (R14, R164): a bundle to issue; one to try, so that each member joins a barrier at its own skew
while the lead waits (R279); a trap; a stop. -/
inductive LeadKind where
  | issue
  | try
  | trap (i : TrapInfo)
  | stop
  deriving DecidableEq, Repr

/-- An item of a lead's stream: when the lead came to it, its first word, the lead's array staging, and, for a bundle, what
the lead decided: the next bundle, the loops and the node. -/
structure LeadBundle where
  seq   : Nat
  cc    : Nat
  kind  : LeadKind
  pc    : Word
  stg   : Vector DWord 8
  next  : Word
  loop0 : Loop
  loop1 : Loop
  node  : Option NodeRun
  stopHere : Bool
  deriving DecidableEq, Repr

/-- A SPLT that drains (R87): who issued it, the count it sets, and the commands issued before it (their total). -/
structure Split where
  org   : Origin
  wn    : Nat
  deriving DecidableEq, Repr

/-- The state of one cluster. -/
structure Cluster where
  cw     : Nat
  tw     : Nat
  busy   : Bool
  seq    : Word
  store  : Memory
  split  : Option Split
  splits : Nat
  lastSplitGen : Option Nat
  kcfg   : KilnCfg
  kq     : List KCmd
  krun   : Option KCmd
  kDone  : Word
  kSkip  : Nat
  kFlags : EngFlags
  kNew   : Nat × EngFlags
  tlb    : List TlbEntry
  walks  : List Walk
  walkers : List (Option WalkPtr)
  fused  : Bool
  maxCw  : Nat
  ptPeer : BitVec 16
  ptFrame : BitVec 20
  ptCtx  : BitVec 12
  launch : Option Nat
  panel  : Option Panel
  gangs  : List Nat
  stream : List LeadBundle
  saved  : Bool
  saving : Bool
  deriving DecidableEq, Repr

/-- A cluster after package reset: WAYPART at its reset values, the kiln configuration zero (log 4). -/
def Cluster.reset : Cluster where
  cw := 16
  tw := 16
  busy := false
  seq := 0
  store := []
  split := none
  splits := 0
  lastSplitGen := none
  kcfg := ⟨0, 0, 0, 0, 0⟩
  kq := []
  krun := none
  kDone := 0
  kSkip := 0
  kFlags := .zero
  kNew := (0, .zero)
  tlb := []
  walks := []
  walkers := []
  fused := false
  maxCw := 16
  ptPeer := 0
  ptFrame := 0
  ptCtx := 0
  launch := none
  panel := none
  gangs := []
  stream := []
  saved := false
  saving := false

/-! ### Dies -/

/-- A rick entry in place, with the issue cc from which it ages and the page generation it carries. -/
structure Placed where
  e     : Entry
  issue : Nat
  ctx   : BitVec 12
  xgen  : BitVec 16
  deriving DecidableEq, Repr

/-- A rick that holds entries (R236): peer, launch, allocation order, age limit, entries in placement order. -/
structure Rick where
  id     : Nat
  peer   : BitVec 16
  launch : Nat
  limit  : Nat
  entries : List Placed
  deriving DecidableEq, Repr

/-- A group (Table FAB-9). -/
structure Group where
  tag : Word
  members : List (BitVec 16)
  deriving DecidableEq, Repr

/-- A context set of a launch at a die's station (R243). -/
structure CtxSet where
  age    : Nat
  rfEn   : Bool
  rfCid  : Nat
  groups : SMap Group
  deriving DecidableEq, Repr

/-- A context set at reset (Tables FAB-2, FAB-3). -/
def CtxSet.reset : CtxSet := ⟨2048, false, 0, []⟩

/-- A record queue of a die with the records dropped since the last SFLT (R329), and the records pushed in this cc, each with
the rank of its source (R137). Records are bytes. `popped` is one more than the cc of the last pop by SFLT, 0 before it
(R334). -/
structure RecQ where
  recs  : List (List Byte)
  drops : Nat
  new   : List (Nat × List Byte)
  popped : Nat
  deriving DecidableEq, Repr

/-- MEMGOV (Table MEM-2). -/
structure MemGov where
  scrubh : BitVec 8
  hi     : BitVec 16
  lo     : BitVec 16
  hold   : Bool
  wmax   : BitVec 3
  wmin   : BitVec 3
  wcur   : BitVec 3
  deriving DecidableEq, Repr

/-- A read-only copy of a frame (R101): its home peer and frame, the context and page that tag it, and, for a frame of another
package, the key of the bytes it was fetched with. -/
structure Copy where
  peer  : BitVec 16
  frame : Nat
  ctx   : BitVec 12
  page  : Nat
  key   : Nat
  deriving DecidableEq, Repr

/-- The state of one compute die, its stack and its fabric station. Of the stack: its bytes, its uncorrectable lines, the
number of wrong symbols in a line, the rows on spares and the retired frames (R76, R80). Of the station: the ricks that hold
entries; how many have departed in which cc, which are free in the next (R238); and the peers and launches whose ricks a
flush, a trap or a stop has sent off, by cc, so that what is placed later in that cc goes with them (R238). -/
structure Die where
  mem      : Memory
  bad      : List Nat
  wrong    : SMap Nat
  spared   : List Nat
  retired  : List Nat
  counters : SMap DWord
  migthr   : DWord
  mlrjoin  : Nat
  ctrFrame : Nat
  ctrNfr   : Nat
  gov      : MemGov
  corrected : Nat
  epoch    : Nat
  scrub    : Nat
  hot      : Bool
  poolEn   : Bool
  poolFrame : Nat
  memQ     : RecQ
  migQ     : RecQ
  healthQ  : RecQ
  ricks    : List Rick
  rickNext : Nat
  freed    : Nat × Nat
  flushing : List (Nat × BitVec 16 × Nat)
  sets     : SMap CtxSet
  xgen     : SMap (BitVec 16)
  holders  : SMap (List Nat)
  copies   : List Copy
  rounds   : SMap Nat
  isolated : Bool
  deriving DecidableEq, Repr

/-- A die after package reset (Tables MEM-2, XLT-5, FAB-11, CON-5, TRP-8; log 3, log 4). -/
def Die.reset : Die where
  mem := []
  bad := []
  wrong := []
  spared := []
  retired := []
  counters := []
  migthr := 0
  mlrjoin := 65536
  ctrFrame := 0
  ctrNfr := 0
  gov := ⟨8, 256, 16, false, 4, 0, 1⟩
  corrected := 0
  epoch := 0
  scrub := 0
  hot := false
  poolEn := false
  poolFrame := 0
  memQ := ⟨[], 0, [], 0⟩
  migQ := ⟨[], 0, [], 0⟩
  healthQ := ⟨[], 0, [], 0⟩
  ricks := []
  rickNext := 0
  freed := (0, 0)
  flushing := []
  sets := []
  xgen := []
  holders := []
  copies := []
  rounds := []
  isolated := false

/-! ### The package -/

/-- QCFGq (Table SCH-1). -/
structure QCfg where
  en    : Bool
  stn   : BitVec 4
  frame : BitVec 20
  scid  : BitVec 24
  deriving DecidableEq, Repr

/-- QCFGq at reset. -/
def QCfg.reset : QCfg := ⟨false, 0, 0, 0⟩

/-- The fields of a launch record (Table SCH-2). -/
structure LaunchRec where
  args     : Vector DWord 8
  fabshare : Nat
  commcc   : Nat
  ctrn     : Nat
  ctrlo    : Nat
  rfen     : Bool
  rfcid    : Nat
  age      : Nat
  estn     : Nat
  ecid     : Nat
  cstn     : Nat
  ccid     : Nat
  rm       : BitVec 2
  l8f      : BitVec 2
  l4f      : BitVec 2
  strap    : Bool
  fuse     : Bool
  strands  : BitVec 4
  clcount  : Nat
  clbase   : Nat
  wucount  : Nat
  launchid : Word
  entry    : Word
  peer     : BitVec 16
  frame    : BitVec 20
  ctx      : BitVec 12
  image    : DWord
  deriving DecidableEq, Repr

/-- A node-table entry (Table SCH-7). -/
structure NodeEntry where
  node  : Nat
  entry : Nat
  sched : Nat
  preds : List Nat
  deriving DecidableEq, Repr

/-- What the loader keeps of an image (R291). -/
structure Image where
  code   : List Word
  nodes  : List NodeEntry
  handler : Word
  scratch : List Byte
  ranges : List (Nat × Nat)
  deriving DecidableEq, Repr

/-- An empty image. -/
def Image.empty : Image := ⟨[], [], 0xFFFFFFFF, [], []⟩

/-- Where a launch stands. -/
inductive Phase where
  | taken | admitted | running | between | stopping | stopped
  deriving DecidableEq, Repr

/-- A launch that has been taken and has not ended; `fresh` counts the undefined values that it has met (R4, log 11). -/
structure Launch where
  k       : Nat
  desc    : LaunchRec
  img     : Image
  phase   : Phase
  unit    : Nat
  supers  : Nat
  idle    : Nat
  idleRun : Nat
  heldTo  : Option Nat
  digest  : BitVec 128
  first   : BitVec 128
  runs    : Nat
  det     : Bool
  reexec  : Bool
  recorded : BitVec 128
  broken  : Bool
  unbound : Bool
  preempted : Bool
  endCode : Option Nat
  edge    : Option Nat
  keptT   : SMap Tile
  keptC   : SMap Cluster
  fresh   : Nat
  deriving DecidableEq, Repr

/-- A barrier generation that is open or completing (R279): its scope, its instance, its launch, who has joined with
which SS flag, whether every participant has joined, and once every release is complete the cc at which it completes; or
the meeting of a panel (R163). -/
structure Barrier where
  id     : Nat
  gang   : Bool
  scope  : Scope
  inst   : Nat
  launch : Nat
  joined : List (Nat × Nat × Bool)
  full   : Bool
  due    : Option Nat
  deriving DecidableEq, Repr

/-- What leaves the package (log 1). -/
inductive Output where
  | cord (c : Cord)
  | packet (peer : BitVec 16) (tile : Nat) (addr : Nat) (shd : Bool) (bytes : List Byte)
  | write (peer : BitVec 16) (off : Nat) (bytes : List Byte)
  | arrive (peer : BitVec 16) (tile : Nat) (addr : Nat) (bytes : Nat)
  | adds (peer : BitVec 16) (id : Nat) (inc : DWord)
  | load (r : RemoteLoad)
  | shoot (c : TransCmd)
  | holder (peer : BitVec 16) (frame : Nat) (add : Bool)
  | member (m : MlrMember)
  | stagger (en : Bool) (width : Nat)
  | msix (k : Nat)
  | data (bytes : List Byte)
  | message (kind : Nat) (bytes : List Byte)
  | broken (what : Nat) (which : Nat)
  deriving DecidableEq, Repr

/-- The bundle whose words are executing: its strand, its first word and length, whether its checks have passed, and what
its words ask of the core at its end; whether the strand follows a lead, and the lead's array staging (R38, R164). -/
structure Bundle where
  tile    : Nat
  strand  : Nat
  first   : Word
  len     : Nat
  checked : Bool
  target  : Option Word
  jump    : Option Word
  stall   : Nat
  yields  : Bool
  halts   : Bool
  soft    : Option (BitVec 16)
  tret    : Option Bool
  csav    : Option DWord
  crst    : Option (List Byte)
  follow  : Bool
  stg     : Option (Vector DWord 8)
  deriving DecidableEq, Repr

/-- No bundle. -/
def Bundle.none : Bundle := 
  ⟨0, 0, 0, 0, false, Option.none, Option.none, 0, false, false, Option.none, Option.none, Option.none, Option.none, false,
   Option.none⟩

/-- DAMPER and STAGGER (Tables SYS-4, SYS-5), and what the damper holds (R338): the package power of the last eight ms, the
latest first; the cc at which the ms ends; whether a power or thermal limit stands in it, and whether a thermal emergency lifts
the limit on its fall. -/
structure Power where
  rate    : BitVec 9
  floor   : BitVec 9
  stgEn   : Bool
  stgSlot : BitVec 12
  stgWidth : BitVec 16
  watts   : List Nat
  msAt    : Nat
  limited : Bool
  fallFree : Bool
  deriving DecidableEq, Repr

/-- The state of the package. `ports` lists the link ports whose lanes are being tested, each with the queues of the launches
whose traffic it holds (R234). -/
structure State where
  cc       : Nat
  late     : Bool
  bun      : Bundle
  tiles    : SMap Tile
  clusters : SMap Cluster
  dies     : SMap Die
  launches : SMap Launch
  qcfg     : SMap QCfg
  qtaken   : SMap Nat
  bars     : List Barrier
  barNext  : Nat
  barCount : Nat
  mlrs     : List MlrMember
  mlrNext  : Nat
  mlrFailed : List (BitVec 16 × Word × Nat)
  cordNext : Nat
  ports    : SMap (List Nat)
  shotNext : Nat
  mhz      : Nat
  wantMhz  : Option Nat
  wantIdle : Nat
  riseAt   : Nat
  ready    : DWord
  hosterr  : DWord
  coord    : BitVec 12
  extent   : Nat × Nat × Nat
  power    : Power
  bundlelimit : Nat
  stopwin  : Nat
  tests    : List TestUnit
  watches  : SMap (Nat × Nat × DWord)
  slots    : SMap (Nat × Nat)
  booted   : List BootStage
  measured : List (Nat × List Byte)
  outputs  : List Output
  agenda   : List (Nat × Event)
  slack    : List Nat
  fresh    : Nat
  deriving DecidableEq, Repr

/-- The package right after reset: every field at the value the spec gives, and where it gives none at the value that
log 4 names. Nothing runs, nothing is listed in any memory, and no step is to come. -/
def State.reset : State where
  cc := 0
  late := false
  bun := .none
  tiles := []
  clusters := []
  dies := []
  launches := []
  qcfg := []
  qtaken := []
  bars := []
  barNext := 0
  barCount := 0
  mlrs := []
  mlrNext := 0
  mlrFailed := []
  cordNext := 0
  ports := []
  shotNext := 0
  mhz := 1100
  wantMhz := none
  wantIdle := 0
  riseAt := 0
  ready := 0
  hosterr := 0
  coord := 0
  extent := (1, 1, 1)
  power := ⟨300, 60, false, 0, 100, [0], 1100000, false, false⟩
  bundlelimit := 4096
  stopwin := 65536
  tests := []
  watches := []
  slots := []
  booted := []
  measured := []
  outputs := []
  agenda := []
  slack := []
  fresh := 0

end Sys2Proof.Machine
end

