-- ==== Sys2Proof/Machine/Base.lean ====
section
/-! DEFINITION. The parts of the state by number, the agenda of steps to come, pending register writes, free values,
scratchpad addresses under shadow pairs, and which strand is ready. -/
namespace Sys2Proof.Machine

/-! ### Parts of the state -/

/-- The tile numbered die * 256 + id (R13). -/
def State.tile (s : State) (t : Nat) : Tile := SMap.get Tile.reset s.tiles t
/-- Replace a tile. -/
def State.setTile (s : State) (t : Nat) (x : Tile) : State := { s with tiles := SMap.put s.tiles t x }
/-- Change a tile. -/
def State.onTile (s : State) (t : Nat) (f : Tile → Tile) : State := s.setTile t (f (s.tile t))

/-- Strand k of a tile. -/
def Tile.strand (x : Tile) (k : Nat) : Strand := SMap.get (Strand.reset k) x.strands k
/-- Replace a strand of a tile. -/
def Tile.setStrand (x : Tile) (k : Nat) (y : Strand) : Tile := { x with strands := SMap.put x.strands k y }

/-- Strand k of tile t. -/
def State.strand (s : State) (t k : Nat) : Strand := (s.tile t).strand k
/-- Replace a strand. -/
def State.setStrand (s : State) (t k : Nat) (y : Strand) : State := s.onTile t fun x => x.setStrand k y
/-- Change a strand. -/
def State.onStrand (s : State) (t k : Nat) (f : Strand → Strand) : State := s.setStrand t k (f (s.strand t k))

/-- The cluster numbered die * 32 + cluster. -/
def State.cluster (s : State) (c : Nat) : Cluster := SMap.get Cluster.reset s.clusters c
/-- Change a cluster. -/
def State.onCluster (s : State) (c : Nat) (f : Cluster → Cluster) : State :=
  { s with clusters := SMap.put s.clusters c (f (s.cluster c)) }

/-- A die. -/
def State.die (s : State) (d : Nat) : Die := SMap.get Die.reset s.dies d
/-- Change a die. -/
def State.onDie (s : State) (d : Nat) (f : Die → Die) : State := { s with dies := SMap.put s.dies d (f (s.die d)) }

/-- The launch of a queue, if one has been taken and has not ended. -/
def State.launch (s : State) (q : Nat) : Option Launch := SMap.find s.launches q
/-- Change the launch of a queue. -/
def State.onLaunch (s : State) (q : Nat) (f : Launch → Launch) : State :=
  { s with launches := SMap.upd f s.launches q }

/-- Die of a tile. -/
def dieOf (t : Nat) : Nat := t / 256
/-- Cluster of a tile (R13). -/
def clusterOf (t : Nat) : Nat := t / 8
/-- Position of a tile in its cluster. -/
def posOf (t : Nat) : Nat := t % 8
/-- The tiles of a cluster. -/
def tilesOf (c : Nat) : List Nat := (List.range 8).map (8 * c + ·)
/-- The strands of a tile. -/
def strandIds : List Nat := [0, 1, 2, 3]

/-- The launch that runs on a tile. -/
def State.launchOf (s : State) (t : Nat) : Option Launch := ((s.tile t).launch).bind s.launch
/-- The queue of the launch on a tile; 16 when there is none. -/
def State.queueOf (s : State) (t : Nat) : Nat := ((s.tile t).launch).getD 16

/-- The tile of the words that execute. -/
def State.myTile (s : State) : Tile := s.tile s.bun.tile
/-- The strand of the words that execute. -/
def State.me (s : State) : Strand := s.strand s.bun.tile s.bun.strand
/-- Change the strand of the words that execute. -/
def State.onMe (s : State) (f : Strand → Strand) : State := s.onStrand s.bun.tile s.bun.strand f
/-- Change the tile of the words that execute. -/
def State.onMyTile (s : State) (f : Tile → Tile) : State := s.onTile s.bun.tile f
/-- The die of the words that execute. -/
def State.myDie (s : State) : Nat := dieOf s.bun.tile
/-- The cluster of the words that execute. -/
def State.myCluster (s : State) : Nat := clusterOf s.bun.tile

/-- The peer number of a die of this package (R15). -/
def State.peerOf (s : State) (d : Nat) : BitVec 16 := s.coord ++ BitVec.ofNat 4 d
/-- Whether a peer number lies in this package (R16). -/
def State.ownPackage (s : State) (p : BitVec 16) : Bool := p.extractLsb' 4 12 == s.coord
/-- The station of a peer number (R15). -/
def stnOf (p : BitVec 16) : Nat := (p.extractLsb' 0 4).toNat
/-- Whether a peer number names a package outside the torus (R16). -/
def State.absent (s : State) (p : BitVec 16) : Bool :=
  !((p.extractLsb' 4 4).toNat < s.extent.1 && (p.extractLsb' 8 4).toNat < s.extent.2.1 &&
    (p.extractLsb' 12 4).toNat < s.extent.2.2)

/-- Torus hops of one dimension (R233, R235). -/
def hops1 (a b e : Nat) : Nat := let d := if a ≤ b then b - a else a - b; min d (e - d)

/-- The links along one dimension (R233): the shorter way, the positive one of two equal ways. A link is numbered as its port,
2 * dimension in the positive direction and 2 * dimension + 1 in the negative (log 43). -/
def axisLinks (dim a b e : Nat) : List Nat :=
  List.replicate (hops1 a b e) (2 * dim + if (b + e - a) % e = hops1 a b e then 0 else 1)

/-- The fixed route from this package to another (R233): along X, then Y, then Z. -/
def State.route (s : State) (p : BitVec 16) : List Nat :=
  axisLinks 0 (s.coord.extractLsb' 0 4).toNat (p.extractLsb' 4 4).toNat s.extent.1 ++
  axisLinks 1 (s.coord.extractLsb' 4 4).toNat (p.extractLsb' 8 4).toNat s.extent.2.1 ++
  axisLinks 2 (s.coord.extractLsb' 8 4).toNat (p.extractLsb' 12 4).toNat s.extent.2.2

/-- The link port of this package that traffic to a peer leaves by; none for the own package (R16, R233). -/
def State.portTo (s : State) (p : BitVec 16) : Option Nat := if s.ownPackage p then none else (s.route p).head?

/-- The transit bound X(p) from a die (Table FAB-1). -/
def State.transit (s : State) (d : Nat) (p : BitVec 16) : Nat :=
  if s.ownPackage p then (if stnOf p = d then 32 else 128) else 256 + 256 * (s.route p).length

/-! ### The agenda -/

/-- The agenda's key of a slot in a cc: slots below 32,768 come before the cores issue in that cc, the others after
(log 7). -/
def keyOf (cc slot : Nat) : Nat := cc * 65536 + slot
/-- First slot after the cores have issued. -/
def lateSlot : Nat := 32768
/-- Slot in which a tile's fabric queue passes a word: in increasing tile id (R237). -/
def slotQueue (t : Nat) : Nat := lateSlot + t
/-- First slot behind the placements of entries (R238). -/
def afterQueues : Nat := lateSlot + 2048
/-- Slot of cords on the ring. -/
def slotRing : Nat := afterQueues + 1
/-- Slot of the rows of an unfolding. -/
def slotRow : Nat := afterQueues + 2
/-- Slot of departures for a flush, a release, a trap or a stop (R238). -/
def slotFlush : Nat := afterQueues + 4
/-- Slot of remote loads. -/
def slotLoad : Nat := afterQueues + 6
/-- Slot of arrivals at arrival words, after the cores of a cc (R121). -/
def slotArrive : Nat := afterQueues + 7
/-- Slot of departures for age (R238). -/
def slotAge : Nat := afterQueues + 8
/-- Slot of the deadlines of reductions: a join in the same cc still counts (R255). -/
def slotDeadline : Nat := afterQueues + 9
/-- Slot of the beats of the array and the Quilt. -/
def slotBeat : Nat := afterQueues + 16
/-- Slot of starts of stream commands. -/
def slotStart : Nat := afterQueues + 20
/-- Slot of starts of kiln commands. -/
def slotKilnStart : Nat := afterQueues + 21
/-- Slot of the drain of a way split. -/
def slotSplit : Nat := afterQueues + 22
/-- Slots of counter adds, by source (R270). -/
def slotCore (t : Nat) : Nat := 16 + t
/-- Slot of the adds of a stream engine. -/
def slotStream (t : Nat) : Nat := 4096 + t
/-- Slot of the adds of a kiln engine. -/
def slotKiln (c : Nat) : Nat := 8192 + c
/-- Slot of the credit adds of an array. -/
def slotArray (t : Nat) : Nat := 12288 + t
/-- Slot of adds that arrive through the fabric. -/
def slotFabric : Nat := 16384
/-- Slot in which TLBI and SHOT commands complete, with their adds. -/
def slotTrans : Nat := 17408
/-- Slot of the loader's adds. -/
def slotLoader : Nat := 18432
/-- Slot of the host's adds. -/
def slotHost : Nat := 20480
/-- Slot of starts of engine commands that something of this cc lets start: before the cores issue, so that a push of this cc
finds the room (R137). -/
def slotBegin : Nat := 24576

/-- Insert a step behind those of the same key. -/
def insertKey (k : Nat) (i : Event) : List (Nat × Event) → List (Nat × Event)
  | [] => [(k, i)]
  | (j, x) :: l => if j ≤ k then (j, x) :: insertKey k i l else (k, i) :: (j, x) :: l

/-- Put a step on the agenda. -/
def State.sched (s : State) (cc slot : Nat) (i : Event) : State :=
  { s with agenda := insertKey (keyOf cc slot) i s.agenda }

/-- The cc at which something bounded by `bound` happens: at the bound less what the model's free amount takes off
(R3, log 2). -/
def State.dueCc (s : State) (bound : Nat) : Nat :=
  s.cc + (bound - min (s.slack.headD 0) (bound - 1))

/-- Put a bounded step on the agenda. -/
def State.soon (s : State) (bound slot : Nat) (i : Event) : State :=
  { s with agenda := insertKey (keyOf (s.dueCc bound) slot) i s.agenda, slack := s.slack.tail }

/-- Remove from the agenda the steps that satisfy a test. -/
def State.unsched (s : State) (f : Event → Bool) : State := { s with agenda := s.agenda.filter fun e => !f e.2 }

/-- Use up one free value. -/
def State.spend (s : State) : State := { s with fresh := s.fresh + 1 }

/-- The key of the undefined values that the launch of a queue meets now (R4): it depends on nothing but the launch, so that
two of one launch may differ and none tells of another (log 11). -/
def State.launchKey (s : State) (q : Nat) : Nat :=
  match s.launch q with
  | none => s.fresh
  | some l => 2 ^ 128 * (16 * l.k + q + 1) + l.fresh
/-- The key for the launch on a tile. -/
def State.freeKey (s : State) (t : Nat) : Nat := s.launchKey (s.queueOf t)

/-- Use up one undefined value of a tile's launch. -/
def State.spendOn (s : State) (t : Nat) : State := s.spend.onLaunch (s.queueOf t) fun l => { l with fresh := l.fresh + 1 }

/-- Traffic of a queue's launch leaves for a peer: a port whose lanes are being tested holds it (R234). -/
def State.carry (s : State) (q : Nat) (p : BitVec 16) : State :=
  match s.portTo p with
  | none => s
  | some i => { s with ports := SMap.upd (fun l => if l.contains q then l else q :: l) s.ports i }

/-- Something leaves the package. -/
def State.emit (s : State) (o : Output) : State := { s with outputs := s.outputs ++ [o] }

/-- One more refused host operation (Table SYS-1). -/
def State.hostErr (s : State) : State :=
  { s with hosterr := if s.hosterr = BitVec.allOnes 64 then s.hosterr else s.hosterr + 1 }

/-! ### Registers of a strand -/

/-- Read a scalar register; g0 reads zero (Table COR-1). -/
def Strand.readG (x : Strand) (r : Reg) : DWord := if r = 0 then 0 else x.g[r.toNat]
/-- Read a predicate; p0 reads true. -/
def Strand.readP (x : Strand) (r : Reg3) : Bool := if r = 0 then true else x.p[r.toNat]
/-- Read a vector register. -/
def Strand.readV (x : Strand) (r : Reg) : VWord := x.v[r.toNat]
/-- Read a mask register; m0 reads all ones (R167). -/
def Strand.readM (x : Strand) (r : Reg3) : MWord := if r = 0 then BitVec.allOnes 1024 else x.m[r.toNat]
/-- Write a scalar register; g0 discards. -/
def Strand.writeG (x : Strand) (r : Reg) (w : DWord) : Strand := if r = 0 then x else { x with g := x.g.set r.toNat w }
/-- Write a predicate; p0 discards. -/
def Strand.writeP (x : Strand) (r : Reg3) (w : Bool) : Strand := if r = 0 then x else { x with p := x.p.set r.toNat w }
/-- Write a vector register. -/
def Strand.writeV (x : Strand) (r : Reg) (w : VWord) : Strand := { x with v := x.v.set r.toNat w }
/-- Write a mask register; m0 discards. -/
def Strand.writeM (x : Strand) (r : Reg3) (w : MWord) : Strand := if r = 0 then x else { x with m := x.m.set r.toNat w }

/-- An index of a staging set of eight. -/
def idx8 (i : BitVec 4) : Fin 8 := ⟨i.toNat % 8, Nat.mod_lt _ (by decide)⟩
/-- An index of the stream engine's set. -/
def idx16 (i : BitVec 4) : Fin 16 := ⟨i.toNat, i.isLt⟩

/-- Read a staging register of a strand; the array set is the tile's. -/
def Tile.readStg (x : Tile) (k : Nat) (e : Eng) (i : BitVec 4) : DWord :=
  match e with
  | .array => x.a[idx8 i]
  | .stream => (x.strand k).d[idx16 i]
  | .quilt => (x.strand k).q[idx8 i]
  | .fabric => (x.strand k).f[idx8 i]
  | .kiln => (x.strand k).n[idx8 i]

/-- The bits of a staging register that are no reserved field of Table ARR-3 or QLT-6. A reserved field ignores what is
written and reads zero (R5, R7), whatever whole word STG brings (R39; log 27). -/
def stgMask (e : Eng) (i : BitVec 4) : DWord :=
  match e with
  | .array => match i.toNat % 8 with
    | 2 => 0x00000000FFFFFFFF
    | 5 => 0xFFFFFF000001FFFF
    | 6 | 7 => 0
    | _ => BitVec.allOnes 64
  | .quilt => match i.toNat % 8 with
    | 1 => 0x00000000FFFFFFFF
    | 2 | 5 | 6 | 7 => 0
    | _ => BitVec.allOnes 64
  | .stream | .fabric | .kiln => BitVec.allOnes 64

/-- Write a staging register; its reserved fields stay zero. -/
def Tile.writeStg (x : Tile) (k : Nat) (e : Eng) (i : BitVec 4) (v : DWord) : Tile :=
  let w := v &&& stgMask e i
  match e with
  | .array => { x with a := x.a.set (idx8 i) w }
  | .stream => x.setStrand k { x.strand k with d := (x.strand k).d.set (idx16 i) w }
  | .quilt => x.setStrand k { x.strand k with q := (x.strand k).q.set (idx8 i) w }
  | .fabric => x.setStrand k { x.strand k with f := (x.strand k).f.set (idx8 i) w }
  | .kiln => x.setStrand k { x.strand k with n := (x.strand k).n.set (idx8 i) w }

/-- A pending write reaches its destination (R31). -/
def Tile.commit (x : Tile) (k : Nat) : Write → Tile
  | .g r w => x.setStrand k ((x.strand k).writeG r w)
  | .p r w => x.setStrand k ((x.strand k).writeP r w)
  | .v r w => x.setStrand k ((x.strand k).writeV r w)
  | .m r w => x.setStrand k ((x.strand k).writeM r w)
  | .stg e i w => x.writeStg k e i w
  | .mem a bs => { x with scratch := x.scratch.writes a bs }
  | .nib a hi w => { x with scratch := x.scratch.writeNib a hi w }

/-- The destination of a pending write on the scoreboard. -/
def destOf : Write → Option Dest
  | .g r _ => if r = 0 then none else some (.g r)
  | .p r _ => if r = 0 then none else some (.p r)
  | .v r _ => some (.v r)
  | .m r _ => if r = 0 then none else some (.m r)
  | .stg e i _ => some (.stg e i)
  | .mem .. | .nib .. => none

/-- Whether a destination is a register that reads a constant and discards what is written (Table COR-1, R167): nothing is
ever pending on it. -/
def Dest.constant : Dest → Bool
  | .g r => r == 0
  | .p r | .m r => r == 0
  | _ => false

/-- Watch a destination of the executing strand until a cc (R32). -/
def State.watch (s : State) (d : Dest) (cc : Nat) : State :=
  if d.constant then s else s.onMe fun x => { x with board := (d, cc) :: x.board }

/-- The executing word writes a destination at its bound (R31): the write stands on the agenda until then, and the
scoreboard watches the destination. -/
def State.write (s : State) (b : Nat) (w : Write) : State :=
  let s := s.sched (s.cc + b) 0 (.pendingWriteComplete s.bun.tile s.bun.strand w)
  match destOf w with
  | none => s
  | some d => s.watch d (s.cc + b)

/-- Set flags of the executing strand (R66, R67). R67 lets a read between the issue of a word and its bound find its flags or
not; the model's choice is that they are there from the issue on (DESIGN CHOICE, log 28). -/
def State.raise (s : State) (f : Flags) : State :=
  s.onMe fun x => { x with flags := ⟨x.flags.cl || f.cl, x.flags.nx || f.nx, x.flags.uf || f.uf, x.flags.ov || f.ov,
    x.flags.dz || f.dz, x.flags.nv || f.nv⟩ }

/-- The number of a strand's next bundle, as records give it (R308): `bundles` counts on, so that the delay of R71 holds over a
wrap of the number. -/
def Strand.bundleSeq (x : Strand) : Nat := x.bundles % 2 ^ 32

/-- EFR.V's format as the executing bundle sees it (R71): the last write whose bundle has come. -/
def Strand.fmt (x : Strand) : FmtV :=
  x.fmtVLog.foldl (fun a w => if w.fromBundle ≤ x.bundles then w.fmt else a) x.fmtV

/-- EFR.A's format as strand k sees it at a cc (R71). -/
def Tile.fmt (x : Tile) (k cc : Nat) : FmtA :=
  x.fmtALog.foldl (fun a w => if (if w.strand = k then w.fromBundle ≤ (x.strand k).bundles else w.fromCc ≤ cc)
    then w.fmt else a) x.fmtA

/-! ### Scratchpad -/

/-- The physical byte that a scratchpad address reaches under one pair (R123). -/
def Pair.phys (p : Pair) (a : Nat) : Nat :=
  if !p.pub then a
  else if p.base ≤ a ∧ a < p.base + p.len then p.alt + (a - p.base)
  else if p.alt ≤ a ∧ a < p.alt + p.len then p.base + (a - p.alt)
  else a

/-- The physical byte that a scratchpad address reaches. -/
def Tile.phys (x : Tile) (a : Nat) : Nat := x.pairs.foldl (fun b p => p.2.phys b) a

/-- Read n scratchpad bytes by address. -/
def Tile.readBytes (x : Tile) (a n : Nat) : List Byte :=
  if x.pairs.isEmpty then x.scratch.reads a n else (List.range n).map fun i => x.scratch.read (x.phys (a + i))

/-- Write scratchpad bytes by address. -/
def Tile.writeBytes (x : Tile) (a : Nat) (bs : List Byte) : Tile :=
  { x with scratch :=
      if x.pairs.isEmpty then x.scratch.writes a bs
      else (bs.zipIdx).foldl (fun m b => m.write (x.phys (a + b.2)) b.1) x.scratch }

/-- Read a little-endian value by address. -/
def Tile.readNat (x : Tile) (a n : Nat) : Nat := leNat (x.readBytes a n)

/-- The size of a scratchpad (R9). -/
def scratchSize : Nat := 0x200000

/-! ### Readiness -/

/-- Of two numbers of one source, modulo 2^32, whether the first was given earlier (R308). -/
def seqBefore (a b : Nat) : Bool := a != b && (b + 2 ^ 32 - a) % 2 ^ 32 < 2 ^ 31

/-- The faults of a strand that have fallen due and may be taken (R307 to R309): none while a handler runs; none of a source
before an earlier command of it has completed, or while an earlier fault of it is still to fall due; and behind a bundle
whose wait had been met when the fault fell due, which issues first (R348; log 25). -/
def Strand.dueFaults (x : Strand) (cc : Nat) : List TrapInfo :=
  if x.trap.inh then []
  else (x.faults.filter fun f => f.1 ≤ cc && (match x.cleared with | none => true | some c => f.1 < c) &&
    (x.outst.all fun o => o.engine != f.2.engine || !seqBefore o.seq f.2.seq) &&
    x.faults.all fun g => g.2.engine != f.2.engine || g.1 ≤ cc || !seqBefore g.2.seq f.2.seq).map (·.2)

/-- Of two faults, the one taken first (R307). -/
def before (a b : TrapInfo) : Bool := a.engine < b.engine || (a.engine == b.engine && !seqBefore b.seq a.seq)

/-- The fault to take at this boundary (R307). -/
def Strand.dueFault (x : Strand) (cc : Nat) : Option TrapInfo :=
  (x.dueFaults cc).foldl (fun o f => match o with | none => some f | some g => if before g f then some g else some f) none

/-- Whether a trap is due that does not wait for a block to clear (R306). -/
def Strand.trapDue (x : Strand) (cc : Nat) : Bool :=
  x.thermal || x.overrun || (x.dueFault cc).isSome

/-- Whether a launch is held in an idle superstep, or stopped (R302, R311). -/
def State.heldTile (s : State) (t : Nat) : Bool :=
  match s.launchOf t with
  | none => false
  | some l => match l.heldTo with | none => false | some c => s.cc < c

/-- A tile whose core waits looks again, in this cc when the cores have not yet issued in it, else in the next. -/
def State.stir (s : State) (t : Nat) : State :=
  let now := s.cc + if s.late then 1 else 0
  match (s.tile t).running, (s.tile t).act with
  | none, none => s.onTile t fun x => { x with act := some now }
  | none, some a => if a ≤ s.cc + 1 then s else s.onTile t fun x => { x with act := some now }
  | _, _ => s

/-- A strand gives up the core (R136): the core selects in the next cc. -/
def State.leave (s : State) (t k : Nat) : State :=
  if (s.tile t).running = some k then s.onTile t fun x => { x with running := none, last := k, act := some (s.cc + 1) }
  else s.stir t

/-- A blocked strand's wait has ended: it is ready (R136). -/
def State.wake (s : State) (t k : Nat) : State :=
  (s.onStrand t k fun x => { x with wake := true, cleared := x.cleared.or (some s.cc) }).stir t

/-- The strands that a test holds of, over every tile that is listed. -/
def State.strandsWith (s : State) (f : Nat → Nat → Strand → Bool) : List (Nat × Nat) :=
  s.tiles.flatMap fun e => (e.2.strands.filter fun y => f e.1 y.1 y.2).map fun y => (e.1, y.1)

/-- Fold a step over a list. -/
def State.each {α : Type} (s : State) (l : List α) (f : State → α → State) : State := l.foldl f s

/-- A fault of a strand falls due at a cc; a blocked strand then is ready (R306). -/
def State.addFault (s : State) (t k : Nat) (due : Nat) (i : TrapInfo) : State :=
  let s := s.onStrand t k fun x => { x with faults := x.faults ++ [(due, i)] }
  if due ≤ s.cc then s.stir t else s.sched due 12 (.waitSatisfied t k)

end Sys2Proof.Machine
end

