-- ==== Sys2Proof/Machine/Home.lean ====
section
/-! DEFINITION. What is done at a home: the bytes of a stack with its uncorrectable lines, records on the queues of a
die, counters, page walks and the cluster TLB, refused writes to shared frames. -/
namespace Sys2Proof.Machine

/-! ### Records -/

/-- Fields of a record, lowest first, each with its width, as one natural. -/
def packLow : List (Nat × Nat) → Nat
  | [] => 0
  | (w, x) :: l => x % 2 ^ w + 2 ^ w * packLow l

/-- A source pushes a record in this cc: rank 0 is the core, 1 a stream engine, 2 the fabric station, 3 any other (R137). -/
def RecQ.post (q : RecQ) (rank : Nat) (r : List Byte) : RecQ := { q with new := q.new ++ [(rank, r)] }

/-- Add a record to a queue of `depth`; a record that finds it full is dropped and counted (R102, R329). -/
def RecQ.push (q : RecQ) (depth : Nat) (r : List Byte) : RecQ :=
  if q.recs.length < depth then { q with recs := q.recs ++ [r] }
  else { q with drops := min (q.drops + 1) 0xFFFFFFFF }

/-- The pushes of a cc enter a queue at its end, behind its pops, in the order of their sources (R137). -/
def RecQ.settle (q : RecQ) (depth : Nat) : RecQ :=
  if q.new.isEmpty then q
  else ([0, 1, 2, 3].flatMap fun n => q.new.filter (·.1 == n)).foldl (fun q r => q.push depth r.2) { q with new := [] }

/-- The records of a cc enter a tile's remote-fault queue of 16 (R137, R250). -/
def Tile.settle (x : Tile) : Tile :=
  x.rfNew.foldl (fun x r =>
    if x.rfq.length < 16 then { x with rfq := x.rfq ++ [r] }
    else { x with fOvf := min (x.fOvf + 1) 0xFFFF, rfDrop := min (x.rfDrop + 1) 0xFFFFFFFF }) { x with rfNew := [] }

/-- The record queues of a die at the end of a cc. The depth of the memory error queue is the model's (log 16). -/
def Die.settle (x : Die) : Die :=
  { x with memQ := x.memQ.settle 64, migQ := x.migQ.settle 64, healthQ := x.healthQ.settle 32 }

/-- Whether a die has records pushed in this cc. -/
def Die.unsettled (x : Die) : Bool := !(x.memQ.new.isEmpty && x.migQ.new.isEmpty && x.healthQ.new.isEmpty)

/-- Whether a selected queue holds a record (R328). -/
def State.queueReady (s : State) (t : Nat) (mask : BitVec 5) : Bool :=
  (mask.getLsbD 0 && !(s.die (dieOf t)).memQ.recs.isEmpty) || (mask.getLsbD 1 && !(s.die (dieOf t)).migQ.recs.isEmpty) ||
  (mask.getLsbD 2 && !(s.tile t).rfq.isEmpty) || (mask.getLsbD 3 && !(s.die (dieOf t)).healthQ.recs.isEmpty)

/-- Sleeping strands whose condition a queue now meets become ready within 64 cc (R328). -/
def State.wakeSleepers (s : State) : State :=
  s.each (s.strandsWith fun t k x => match x.block with
      | some (.sleep _ m) => !x.wake && (s.queueReady t m || (m.getLsbD 4 && (s.strand t k).trap.pend))
      | _ => false)
    fun s w => s.soon 64 12 (.waitSatisfied w.1 w.2)

/-- The channel of a line (R74). -/
def channel (off : Nat) : Nat := (off / 128 % 32) ^^^ (off / 4096 % 32)

/-- The pushes of a cc enter the record queues, and strands that sleep for them wake (R137, R328). -/
def State.settleQueues (s : State) : State :=
  if s.dies.any (fun e => e.2.unsettled) || s.tiles.any (fun e => !e.2.rfNew.isEmpty) then
    let s' : State := { s with
      dies := s.dies.map fun e => (e.1, e.2.settle)
      tiles := s.tiles.map fun e => (e.1, e.2.settle) }
    s'.wakeSleepers
  else s

/-- Queue a memory error record (Table MEM-4). -/
def State.memRecord (s : State) (d off cause syms verdict : Nat) (rank : Nat := 3) : State :=
  s.onDie d fun x => { x with memQ := x.memQ.post rank (leBytes 32 (packLow
    [(36, off / 128 * 128), (28, 0), (8, cause), (3, d), (5, channel off), (8, syms), (2, verdict), (38, 0),
     (64, x.epoch)])) }

/-- The code of a trap cause (Table TRP-1). -/
def causeCode : Cause → Nat
  | .illegal => 1 | .privileged => 2 | .schedule => 3 | .align => 4 | .scratchRange => 5 | .storeRange => 6
  | .splitBusy => 7 | .splitRange => 8 | .splitOrder => 9 | .translate => 10 | .memory => 11 | .fetchRange => 12
  | .loopRange => 13 | .nodeRange => 14 | .predecessor => 15 | .sizeClass => 16 | .software => 17 | .gangState => 18
  | .arrayNar => 19 | .panelFollow => 20 | .arrayCounter => 21 | .stream => 22 | .quilt => 23 | .quiltRange => 24
  | .fabric => 25 | .counter => 26 | .counterRange => 27 | .barrierMismatch => 28 | .overrun => 29 | .thermal => 30
  | .kiln => 31 | .invalidateRange => 32 | .restore => 33 | .digest => 34

/-- A 64-byte trap or health record with a cause code (Table TRP-2). -/
def recordOf (cc t k hkind verdict unit code : Nat) (i : TrapInfo) : List Byte :=
  leBytes 64 (packLow
    [(64, i.addr.toNat), (32, i.isw.toNat), (32, 0), (32, i.seq), (32, (i.pc - i.entry).toNat), (22, i.node.toNat),
     (2, k), (8, t % 256), (4, dieOf t), (4, i.engine), (8, code), (16, 0), (64, i.pc.toNat), (64, cc),
     (4, 0), (2, hkind), (2, verdict), (8, unit)])

/-- The record of a trap. -/
def trapRecord (cc t k hkind verdict unit : Nat) (i : TrapInfo) : List Byte :=
  recordOf cc t k hkind verdict unit (causeCode i.cause) i

/-- Queue a health record (R309, R318, R321). -/
def State.health (s : State) (d : Nat) (r : List Byte) : State :=
  s.onDie d fun x => { x with healthQ := x.healthQ.post 3 r }

/-- The clusters that a launch reserves. -/
def Launch.clusters (l : Launch) : List Nat := (List.range l.desc.clcount).map (l.desc.clbase + ·)

/-- Whether a launch uses a unit (R318): links serve every launch, stacks, stations and counters those of their die, the
other units those of their cluster. -/
def Launch.uses (l : Launch) (u : TestUnit) : Bool :=
  let lo := l.desc.clbase
  let hi := lo + l.desc.clcount
  if u.code = 8 then true
  else if u.code = 3 ∨ u.code = 9 ∨ u.code = 10 then lo < 32 * (u.die + 1) && 32 * u.die < hi
  else lo ≤ clusterOf u.tile && clusterOf u.tile < hi

/-- An error starts a targeted self-test (R318): at once, or inside the idle superstep of the next boundary of a launch that
uses the unit. -/
def State.startTest (s : State) (u : TestUnit) : State :=
  if s.launches.any fun l => (l.2.phase == .running || l.2.phase == .between) && l.2.uses u then { s with tests := s.tests ++ [u] }
  else s.sched s.cc 14 (.selfTestStart u)

/-! ### The stack and cluster store -/

/-- The low 64 bits of the sign extension of a w-bit value. -/
def sext (w x : Nat) : DWord := if x < 2 ^ (w - 1) then BitVec.ofNat 64 x else BitVec.ofInt 64 ((x : Int) - 2 ^ w)

/-- Loaded bytes as a register (Table COR-7). -/
def loaded (signed : Bool) (bs : List Byte) : DWord :=
  if signed then sext (8 * bs.length) (leNat bs) else BitVec.ofNat 64 (leNat bs)

/-- Size of a cluster's store (R84). -/
def Cluster.storeSize (x : Cluster) : Nat := (16 - x.cw) * 0x400000

/-- Whether some byte of a range lies in an uncorrectable line (R79). -/
def State.isBad (s : State) (d off n : Nat) : Bool :=
  (s.die d).bad.any fun l => off < l + 128 && l < off + n

/-- Bytes at home; those of an uncorrectable line are zero (Table MEM-3). -/
def State.memRead (s : State) (d off n : Nat) : List Byte :=
  if (s.die d).bad.isEmpty then (s.die d).mem.reads off n
  else (List.range n).map fun i => if s.isBad d (off + i) 1 then 0 else (s.die d).mem.read (off + i)

/-- Whether a line overlaps a range. -/
def onLine (off n l : Nat) : Bool := off < l + 128 && l < off + n

/-- A refresh window while a core die of the stack is hot: at most 64 ms (R77). -/
def cool (hot : Bool) (w : BitVec 3) : BitVec 3 := if hot && 1 < w.toNat then 1 else w

/-- An uncorrectable error is detected (R77, R79, R80): W falls to WMIN, a record is queued, the row is tested. -/
def State.uncorrectable (s : State) (d off cause : Nat) (rank : Nat := 3) : State :=
  let s := s.onDie d fun x => { x with gov := { x.gov with wcur := cool x.hot x.gov.wmin } }
  (s.memRecord d off cause 0xFF 0 rank).startTest ⟨3, d, 0, off / 128 * 128⟩

/-- The symbols of a range that the code corrects: those of lines with at most 6 wrong (R76). -/
def Die.correctable (x : Die) (off n : Nat) : Nat :=
  ((x.wrong.filter fun e => e.2 ≤ 6 && onLine off n e.1).map (·.2)).sum

/-- A range of a stack is read (R76, R77, R79): what the code corrects is counted, and what it cannot correct is detected. -/
def State.noteRead (s : State) (d off n : Nat) (rank : Nat := 3) : State :=
  let x := s.die d
  if x.bad.isEmpty && x.wrong.isEmpty then s
  else
    let s := s.onDie d fun x => { x with corrected := x.corrected + x.correctable off n }
    s.each (x.bad.filter (onLine off n)) fun s l => s.uncorrectable d l 1 rank

/-- Lines are replaced: nothing is wrong with them (Table MEM-3). -/
def Die.renew (x : Die) (f : Nat → Bool) : Die :=
  { x with bad := x.bad.filter fun l => !f l, wrong := x.wrong.filter fun e => !f e.1 }

/-- Write bytes at home. A partial write over an uncorrectable line leaves the line's other bytes zero and queues a
record; one over a line with fewer wrong symbols corrects them; a full-line write replaces the line (Table MEM-3). -/
def State.memWrite (s : State) (d off : Nat) (bs : List Byte) : State :=
  let hit := (s.die d).bad.filter (onLine off bs.length)
  let full (l : Nat) : Bool := off ≤ l && l + 128 ≤ off + bs.length
  let part := hit.filter fun l => !full l
  let s := s.onDie d fun x =>
    { (x.renew (onLine off bs.length)) with
      corrected := x.corrected + ((x.wrong.filter fun e => e.2 ≤ 6 && onLine off bs.length e.1 && !full e.1).map (·.2)).sum
      mem := (hit.foldl (fun m l => m.clear l (l + 128)) x.mem).writes off bs }
  s.each part fun s l => s.uncorrectable d l 3

/-- Whether a frame has holders, so that a write to it is refused with cause SHARED (R101). -/
def State.shared (s : State) (d off : Nat) : Bool := !(SMap.get [] (s.die d).holders (off / 65536)).isEmpty

/-! ### Counters -/

/-- Whether a counter id exists on a die (Table CON-4). -/
def State.ctrOk (s : State) (d id : Nat) : Bool := id < 65536 + 8192 * (s.die d).ctrNfr

/-- Stack offset of an overflow counter (R269). -/
def State.ctrOff (s : State) (d id : Nat) : Nat := (s.die d).ctrFrame * 65536 + 8 * (id - 65536)

/-- The value of a counter. -/
def State.ctrGet (s : State) (d id : Nat) : DWord :=
  if id < 65536 then SMap.get 0 (s.die d).counters id
  else BitVec.ofNat 64 (leNat (s.memRead d (s.ctrOff d id) 8))

/-- A counter is read: one of the overflow area stands in the stack (R269). -/
def State.ctrNote (s : State) (d id : Nat) : State := if id < 65536 then s else s.noteRead d (s.ctrOff d id) 8

/-- Set a counter. -/
def State.ctrSet (s : State) (d id : Nat) (v : DWord) : State :=
  if id < 65536 then s.onDie d fun x =>
    { x with counters := if v = 0 then SMap.del x.counters id else SMap.put x.counters id v }
  else s.memWrite d (s.ctrOff d id) (leBytes 8 v.toNat)

/-- The add and read bound of a counter (Table CON-4). -/
def ctrBound (id : Nat) : Nat := if id < 65536 then 64 else 1024

/-- Whether a strand waits in vain no longer: it waits for this counter, and the counter has reached its value. -/
def waitsFor (s : State) (d id t : Nat) (x : Strand) : Bool :=
  dieOf t == d && !x.wake && match x.block with
    | some (.counter j v) => j == id && v.toNat ≤ (s.ctrGet d id).toNat
    | _ => false

/-- What follows a counter that rose: waiting strands become ready (R274), watch entries raise their vectors (R334), a
submission counter announces launches (R284), a stalled DUNF has its credit (R128). -/
def State.ctrRose (s : State) (d id : Nat) : State :=
  let s := s.each (s.strandsWith fun t _ x => waitsFor s d id t x) fun s w =>
    (s.onStrand w.1 w.2 fun x => { x with cleared := x.cleared.or (some s.cc) }).soon (ctrBound id) 12 (.waitSatisfied w.1 w.2)
  let s := s.each (s.watches.filter fun w => w.2.1 == d && w.2.2.1 == id && w.2.2.2 != 0 && s.ready.getLsbD (8 + d) &&
      w.2.2.2.toNat ≤ (s.ctrGet d id).toNat) fun s w =>
    { s.emit (.msix w.1) with watches := SMap.upd (fun v => (v.1, v.2.1, 0)) s.watches w.1 }
  let s := s.each (s.qcfg.filter fun q => q.2.en && q.2.stn.toNat == d && q.2.scid.toNat == id) fun s q =>
    s.sched s.cc 13 (.launchTake q.1)
  s.each (s.tiles.flatMap fun e => if dieOf e.1 = d then
      (e.2.sp.filter fun c => c.op == .dunf && leNat (c.desc.drop 40 |>.take 3) == id).map fun c => (e.1, c.id, c.row)
    else []) fun s w => s.sched s.cc slotRow (.dunfRow w.1 w.2.1 w.2.2)

/-- Add to a counter at its home, or refuse (R270). -/
def State.ctrAdd (s : State) (d id : Nat) (inc : DWord) : Option State :=
  if s.ctrOk d id && (s.ctrGet d id).toNat + inc.toNat < 2 ^ 64 then
    some (((s.ctrNote d id).ctrSet d id (s.ctrGet d id + inc)).ctrRose d id)
  else none

/-! ### Translation -/

/-- Bytes of a page of a SIZE code (Table XLT-2). -/
def pageBytes (size : Nat) : Nat := if size = 1 then 0x10000 else if size = 2 then 0x200000 else 0x40000000

/-- Index of a virtual address at a level (Table XLT-1). -/
def walkIndex (va lvl : Nat) : Nat :=
  match lvl with
  | 0 => va / 2 ^ 16 % 32
  | 1 => va / 2 ^ 21 % 512
  | 2 => va / 2 ^ 30 % 512
  | _ => va / 2 ^ 39 % 8192

/-- What a walk finds: a leaf, or the cause and level of its fault (Table XLT-7). -/
abbrev Found := Except (Nat × Nat) TlbEntry

/-- One level of a walk and those below it (R99); `fuel` is one more than the level. -/
def State.walkFrom (s : State) (ctx : BitVec 12) (va : Nat) (peer : BitVec 16) (frame : Nat) : Nat → Found
  | 0 => .error (5, 0)
  | lvl + 1 =>
    let x : DWord := BitVec.ofNat 64 (leNat (s.memRead (stnOf peer) (frame * 65536 + 8 * walkIndex va lvl) 8))
    let xp := x.extractLsb' 37 16
    let xf := (x.extractLsb' 5 32).toNat
    let size := (x.extractLsb' 57 2).toNat
    let mode := x.extractLsb' 61 2
    if !x.getLsbD 63 then .error (1, lvl)
    else if stnOf xp > 7 || xf > 0xFFFFF then .error (6, lvl)
    else if size = 0 then
      if lvl = 0 then .error (5, lvl)
      else if !s.ownPackage xp then .error (6, lvl)
      else s.walkFrom ctx va xp xf lvl
    else if size + lvl ≠ (if lvl = 3 then 0 else if lvl = 0 then 1 else if lvl = 1 then 3 else 5) then .error (5, lvl)
    else if xf % (pageBytes size / 65536) ≠ 0 then .error (5, lvl)
    else if mode = 2 && !x.getLsbD 60 then .error (4, lvl)
    else if mode = 0 && !s.ownPackage xp then .error (6, lvl)
    else .ok ⟨ctx, va / pageBytes size * (pageBytes size / 65536), pageBytes size / 65536, mode, x.getLsbD 60,
      x.extractLsb' 53 4, xp, xf, 0, false⟩

/-- The entries that such a walk reads: the table of each, as its home and frame, and the entry's offset. -/
def State.walkReads (s : State) (va : Nat) (peer : BitVec 16) (frame : Nat) : Nat → List (BitVec 16 × Nat × Nat)
  | 0 => []
  | lvl + 1 =>
    let off := frame * 65536 + 8 * walkIndex va lvl
    let x : DWord := BitVec.ofNat 64 (leNat (s.memRead (stnOf peer) off 8))
    let xp := x.extractLsb' 37 16
    let xf := (x.extractLsb' 5 32).toNat
    (peer, frame, off) ::
      (if x.getLsbD 63 && stnOf xp ≤ 7 && xf ≤ 0xFFFFF && (x.extractLsb' 57 2).toNat = 0 && lvl ≠ 0 && s.ownPackage xp then
        s.walkReads va xp xf lvl else [])

/-- The kept pointer that serves an address (R104). -/
def Cluster.pointer (x : Cluster) (va : Nat) : Option WalkPtr :=
  x.walkers.findSome? fun p => match p with
    | some p => if p.ctx == x.ptCtx && p.region == va / 2 ^ 21 then some p else none
    | none => none

/-- Whether a cluster's root names a die of the package (R99). -/
def State.rootOk (s : State) (c : Nat) : Bool := stnOf (s.cluster c).ptPeer ≤ 7 && s.ownPackage (s.cluster c).ptPeer

/-- The walk of an address through a kept pointer or the cluster's PTROOT (R99, R104). -/
def State.walk (s : State) (c va : Nat) : Found :=
  let x := s.cluster c
  match x.pointer va with
  | some p => s.walkFrom x.ptCtx va p.peer p.frame 1
  | none => if s.rootOk c then s.walkFrom x.ptCtx va x.ptPeer x.ptFrame.toNat 4 else .error (6, 3)

/-- What that walk reads. -/
def State.walkPath (s : State) (c va : Nat) : List (BitVec 16 × Nat × Nat) :=
  let x := s.cluster c
  match x.pointer va with
  | some p => s.walkReads va p.peer p.frame 1
  | none => if s.rootOk c then s.walkReads va x.ptPeer x.ptFrame.toNat 4 else []

/-- How an address translates in a cluster now (R104): found in the TLB or by a walk, with the level of the leaf and
whether it missed; or the walk queue is full. -/
inductive Xlate where
  | hit (e : TlbEntry) (miss : Bool)
  | fault (cause level : Nat) (miss : Bool)
  | full
  deriving DecidableEq, Repr

/-- The TLB entry of a cluster that maps a page. -/
def Cluster.lookup (x : Cluster) (page : Nat) : Option TlbEntry :=
  x.tlb.find? fun e => e.ctx == x.ptCtx && e.page ≤ page && page < e.page + e.pages

/-- The walk of a page in progress. -/
def Cluster.walking (x : Cluster) (page : Nat) : Option Walk := x.walks.find? fun w => w.ctx == x.ptCtx && w.page == page

/-- Translate an address in a cluster. The walk queue holds 64 pages beside those of the 16 walkers. -/
def State.xlate (s : State) (c : Nat) (va : DWord) : Xlate :=
  let x := s.cluster c
  if va.toNat ≥ 2 ^ 52 then .fault 7 3 false
  else
    let page := va.toNat / 65536
    match x.lookup page with
    | some e => .hit e false
    | none =>
      match x.walking page with
      | some w => match w.res with | some e => .hit e true | none => .fault w.flt.1 w.flt.2 true
      | none =>
        if x.walks.length ≥ 80 then .full
        else match s.walk c va.toNat with
          | .ok e => .hit e true
          | .error f => .fault f.1 f.2 true

/-- What an engine's translation finds: it waits where the walk queue is full. -/
def State.engXlate (s : State) (c va : Nat) : Found :=
  match s.xlate c (BitVec.ofNat 64 va) with
  | .hit e _ => .ok e
  | .fault a l _ => .error (a, l)
  | .full => s.walk c va

/-- The pages ahead of a page in a cluster's walk queue, behind those of the 16 walkers (R105). -/
def Cluster.queueAhead (x : Cluster) (page : Nat) : Nat :=
  x.walks.findIdx (fun w => w.ctx == x.ptCtx && w.page == page) - 16

/-- The bound that a miss adds to an access (R105). -/
def State.missBound (s : State) (c page : Nat) : Nat := 2048 * (1 + (s.cluster c).queueAhead page / 16)

/-- The level of a leaf (R103). -/
def TlbEntry.level (e : TlbEntry) : Nat := if e.pages = 1 then 0 else if e.pages = 32 then 1 else 2

/-- Stack offset of an address under an entry (R99). -/
def TlbEntry.offset (e : TlbEntry) (va : Nat) : Nat := e.frame * 65536 + (va - e.page * 65536)

/-- The threshold a TIDX selects (Table XLT-5); 0 never counts. -/
def threshold (migthr : DWord) (k : BitVec 4) : Nat :=
  let v := (migthr.toNat / 16 ^ k.toNat) % 16
  if v = 0 then 0 else 2 ^ (v + 3)

/-- XGEN of a context on a die. -/
def State.xgenOf (s : State) (d : Nat) (ctx : BitVec 12) : BitVec 16 := SMap.get 0 (s.die d).xgen ctx.toNat

/-- Whether an access through an entry brings its count to the threshold (R102). -/
def State.atThreshold (s : State) (d : Nat) (e : TlbEntry) : Bool :=
  let th := threshold (s.die d).migthr e.tidx
  e.mode == 3 && th != 0 && th ≤ e.count + 1

/-- An entry behind an access through it (R102); where the threshold is 0 nothing is counted (Table XLT-5). -/
def State.counted (s : State) (d : Nat) (e : TlbEntry) : TlbEntry :=
  if e.mode ≠ 3 || threshold (s.die d).migthr e.tidx = 0 then e
  else if s.atThreshold d e then { e with count := 0 }
  else { e with count := (e.count + 1) % 2 ^ 19 }

/-- The migration record of an access that reaches the threshold (Table XLT-6). -/
def State.migrate (s : State) (d page : Nat) (e : TlbEntry) (rank : Nat) : State :=
  if s.atThreshold d e then
    s.onDie d fun x => { x with migQ := x.migQ.post rank (leBytes 16 (packLow
      [(16, (s.xgenOf d e.ctx).toNat), (36, page), (44, 0), (4, e.tidx.toNat), (12, e.ctx.toNat), (16, (s.peerOf d).toNat)])) }
  else s

/-- A walk of a page in a cluster's context, as it reads the tables now. -/
def State.walkOf (s : State) (c page : Nat) : Walk :=
  match s.walk c (page * 65536) with
  | .ok e => ⟨(s.cluster c).ptCtx, page, some e, (0, 0)⟩
  | .error f => ⟨(s.cluster c).ptCtx, page, none, f⟩

/-- The walkers' pointers behind a walk (R104): the walker whose pointer serves the walk keeps it; else the one that has waited
longest walks from the root, and keeps what that walk finds. -/
def State.walkersAfter (s : State) (c va : Nat) : List (Option WalkPtr) :=
  let x := s.cluster c
  match x.pointer va with
  | some p => some p :: x.walkers.erase (some p)
  | none => (((s.walkPath c va)[3]?.map fun r => ⟨x.ptCtx, va / 2 ^ 21, r.1, r.2.1⟩) :: x.walkers).take 16

/-- A page walker reads the tables for a page (R79, R99, R104). -/
def State.readTables (s : State) (c page : Nat) : State :=
  let va := page * 65536
  let keep := s.walkersAfter c va
  (s.each (s.walkPath c va) fun s r => s.noteRead (stnOf r.1) r.2.2 8).onCluster c fun x => { x with walkers := keep }

/-- An access goes through translation: a miss starts a walk or joins the one under way, and an access through a MODE 11
entry is counted, whether the entry stands in the TLB or is being fetched (R102, R104). -/
def State.touch (s : State) (c : Nat) (va : DWord) (rank : Nat := 0) : State :=
  let x := s.cluster c
  let d := c / 32
  let page := va.toNat / 65536
  if va.toNat ≥ 2 ^ 52 then s
  else match x.lookup page with
    | some e =>
      if e.mode ≠ 3 then s
      else (s.onCluster c fun x => { x with tlb := x.tlb.map fun f => if f == e then s.counted d e else f }).migrate d page e rank
    | none => match x.walking page with
      | some w => match w.res with
        | none => s
        | some e =>
          if e.mode ≠ 3 then s
          else (s.onCluster c fun x => { x with walks := x.walks.map fun v =>
            if v == w then { w with res := some (s.counted d e) } else v }).migrate d page e rank
      | none =>
        if x.walks.length ≥ 80 then s
        else
          let w := s.walkOf c page
          let b := s.missBound c page
          let s := (s.readTables c page).onCluster c fun x => { x with walks := x.walks ++ [{ w with res := w.res.map (s.counted d) }] }
          (match w.res with | none => s | some e => s.migrate d page e rank).soon b 2 (.pageWalkComplete c page)

/-! ### The TLB of a tile -/

/-- The entry of a tile's TLB that maps a page for its cluster's context (R104). -/
def State.tileLookup (s : State) (t page : Nat) : Option TlbEntry :=
  (s.tile t).tlb.find? fun e => e.ctx == (s.cluster (clusterOf t)).ptCtx && e.page ≤ page && page < e.page + e.pages

/-- How an M word of a tile's core translates (R104): through the tile's TLB, then the cluster's. Which accesses a tile's TLB
serves the spec does not say; here it serves M words (DESIGN CHOICE, log 36). -/
def State.coreXlate (s : State) (t : Nat) (va : DWord) : Xlate :=
  if va.toNat ≥ 2 ^ 52 then .fault 7 3 false
  else match s.tileLookup t (va.toNat / 65536) with
    | some e => .hit e false
    | none => s.xlate (clusterOf t) va

/-- An M word's access goes through the TLBs: one that the tile's serves is counted in the cluster's entry, if that still
stands; one that the cluster's serves fills the tile's, the oldest of 256 entries making room (R102, R104). -/
def State.coreTouch (s : State) (t : Nat) (va : DWord) : State :=
  let c := clusterOf t
  let page := va.toNat / 65536
  match s.tileLookup t page, (s.cluster c).lookup page with
  | some _, none => s
  | some _, some _ => s.touch c va
  | none, none => s.touch c va
  | none, some e => (s.touch c va).onTile t fun x => { x with tlb := (x.tlb ++ [{ e with count := 0, pinned := false }]).drop (x.tlb.length - 255) }

/-! ### Readiness -/

/-- GEN of an arrival word has reached a value, with wraparound (R277). -/
def genReached (gen want : Word) : Bool := (gen - want).toNat < 2 ^ 31

/-- GEN of the arrival word at an address (Table STR-4). -/
def Tile.genAt (x : Tile) (a : Nat) : Word := BitVec.ofNat 32 (x.readNat (a + 8) 4)

/-- Whether a release up to the given one of a strand is not complete (R273). -/
def Strand.waitsRelease (x : Strand) (gate : Option Nat) : Bool :=
  match gate with
  | none => false
  | some r => x.rels.any (·.id ≤ r)

/-- What a word at the head of a queue waits for (R237): its page's walk, room for one, or the releases before it. -/
inductive HeadWait where
  | no | walk (page : Nat) | stay
  deriving DecidableEq, Repr

/-- The wait of an address at the head: a walk that it has started has ended when the page is no longer walked. -/
def State.headXlate (s : State) (t : Nat) (va : DWord) : HeadWait :=
  let c := clusterOf t
  let page := va.toNat / 65536
  if va.toNat ≥ 2 ^ 52 ∨ ((s.cluster c).lookup page).isSome then .no
  else if ((s.cluster c).walking page).isSome then .walk page
  else if (s.tile t).fqWalk = some page then .no
  else if s.xlate c va = .full then .stay
  else .walk page

/-- Whether the head of a tile's queue waits. -/
def State.headWait (s : State) (t : Nat) : FabItem → HeadWait
  | .entry _ va _ _ _ _ | .load va _ _ _ _ _ _ _ => s.headXlate t va
  | .remoteAdd _ _ _ o _ gate => if (s.strand o.tile o.strand).waitsRelease gate then .stay else .no
  | .flush .. | .group .. | .reduce .. | .drain .. => .no

/-- Whether a tile's fabric queue passes a word in this cc, after the cores: a push into a full queue is then accepted (R137). -/
def State.fabPops (s : State) (t : Nat) : Bool :=
  !s.late && (s.tile t).fqCc ≤ s.cc &&
    match (s.tile t).fq.find? fun i => match i with | .drain .. => false | _ => true with
    | none => false
    | some i => s.headWait t i == .no

/-- Items that count towards the 16 entries of the fabric queue. -/
def Tile.fabCount (x : Tile) : Nat := (x.fq.filter fun i => match i with | .drain .. => false | _ => true).length

/-- Whether a wait is looked at in every cc in which the core selects; the end of any other is told to the strand by
`State.wake`. -/
def Wait.polled : Wait → Bool
  | .streamQueue | .fabricQueue | .syncQueue | .transQueue | .kilnQueue | .walkQueue | .arrival .. | .region => true
  | .counter .. | .barrier .. | .engines .. | .gang | .sleep .. => false

/-- Whether the block of a strand has cleared (R136). -/
def State.unblocked (s : State) (t k : Nat) : Bool :=
  let x := s.strand t k
  match x.block with
  | none => true
  | some w =>
    match w with
    | .streamQueue => (s.tile t).sq.length < 16
    | .fabricQueue => (s.tile t).fabCount < 16 || s.fabPops t
    | .syncQueue => (s.tile t).yq.length < 8
    | .transQueue => (s.tile t).tq < 4
    | .kilnQueue => (s.cluster (clusterOf t)).kq.length < 8
    | .walkQueue => (s.cluster (clusterOf t)).walks.length < 80
    | .arrival a g => genReached ((s.tile t).genAt a) g
    | .region => match x.regionDue with | none => true | some c => c ≤ s.cc
    | .counter .. | .barrier .. | .engines .. | .gang | .sleep .. => x.wake

/-- Whether the core may select strand k of tile t (R136). -/
def State.canRun (s : State) (t k : Nat) : Bool :=
  let x := s.strand t k
  x.started && !x.halted && x.stopped == .no && x.hold.isNone && !(x.gang == .held) && x.nextCc ≤ s.cc + 1 &&
    (s.unblocked t k || x.trapDue s.cc) && !s.heldTile t && !(s.tile t).isolated && !(s.tile t).retired

/-! ### Words at homes, as a strand sees them -/

/-- The owned word of a strand at a word index. -/
def Strand.ownedAt (x : Strand) (store : Bool) (word : Nat) : Option Owned :=
  x.owned.find? fun o => o.store == store && o.word == word

/-- A byte of a word as the strand last wrote it: an owned word's, or that of a release on its way to the home (P1). -/
def Strand.ownWrite (x : Strand) (store : Bool) (a : Nat) : Option Byte :=
  ((x.owned ++ (x.rels.reverse.filter fun r => !r.written).flatMap (·.words)).find? fun o =>
    o.store == store && o.word == a / 4 && o.mask.getLsbD (a % 4)).map fun o => o.data.extractLsb' (8 * (a % 4)) 8

/-- Bytes that a strand reads from global memory homed in this package: the home's, under its own (P1, log 9). -/
def State.seen (s : State) (x : Strand) (d off : Nat) (va n : Nat) : List Byte :=
  ((s.memRead d off n).zipIdx).map fun b => (x.ownWrite false (va + b.2)).getD b.1

/-- Bytes that a strand reads from its cluster's store (P1). -/
def State.seenStore (s : State) (x : Strand) (c a n : Nat) : List Byte :=
  (((s.cluster c).store.reads a n).zipIdx).map fun b => (x.ownWrite true (a + b.2)).getD b.1

/-- Set one byte of an owned word, creating the word if the strand does not own it (R260). -/
def ownByte (store : Bool) (word d off i : Nat) (b : Byte) : List Owned → List Owned
  | [] => [⟨store, word, d, off, BitVec.ofNat 4 (2 ^ i), b.setWidth 32 <<< (8 * i)⟩]
  | o :: l =>
    if o.store == store && o.word == word then
      { o with mask := o.mask ||| BitVec.ofNat 4 (2 ^ i),
               data := (o.data &&& ~~~((0xFF#32) <<< (8 * i))) ||| (b.setWidth 32 <<< (8 * i)) } :: l
    else o :: ownByte store word d off i b l

/-- A store of a strand makes its words owned (R150, R260). -/
def Strand.own (x : Strand) (store : Bool) (a d off : Nat) (bs : List Byte) : Strand :=
  { x with owned := (bs.zipIdx).foldl (fun l b =>
      ownByte store ((a + b.2) / 4) d ((off + b.2) / 4 * 4) ((a + b.2) % 4) b.1 l) x.owned }

/-- The bytes of an owned word that were written, with their places. -/
def Owned.bytes (o : Owned) : List (Nat × Byte) :=
  ([0, 1, 2, 3].filter fun i => o.mask.getLsbD i).map fun i => (i, o.data.extractLsb' (8 * i) 8)

/-! ### Digests -/

/-- The kindling generator (R72). -/
def kindle (k c : DWord) : Word :=
  let f := fun (x : DWord) => (x * 0xD1B54A32D192ED03#64) ^^^ ((x * 0xD1B54A32D192ED03#64) >>> 29)
  (f (f (f (c ^^^ k)))).extractLsb' 32 32

/-- H(a, d) (R282). -/
def digestH (a : Nat) (d : Word) : BitVec 128 :=
  let c : DWord := BitVec.ofNat 64 (a % 2 ^ 52 / 4)
  let k (j : Nat) : DWord := d ++ (BitVec.ofNat 32 (0xA5A50000 + j))
  kindle (k 3) c ++ kindle (k 2) c ++ kindle (k 1) c ++ kindle (k 0) c

/-- A strand folds a word that it writes, while folding is on (R281). -/
def Strand.fold (x : Strand) (a : Nat) (d : Word) : Strand :=
  if x.folding then { x with digest := x.digest + digestH a d } else x

/-- A strand folds the words of a write to global memory; bytes it does not write fold as zero (R281). -/
def Strand.foldBytes (x : Strand) (a : Nat) (bs : List Byte) : Strand :=
  if !x.folding then x
  else
    let lo := a / 4
    let hi := (a + bs.length + 3) / 4
    (List.range (hi - lo)).foldl (fun y i =>
      let w := lo + i
      let v := leNat ((List.range 4).map fun j =>
        if a ≤ 4 * w + j ∧ 4 * w + j < a + bs.length then bs.getD (4 * w + j - a) 0 else 0)
      y.fold (4 * w) (BitVec.ofNat 32 v)) x

end Sys2Proof.Machine
end

