-- ==== Sys2Proof/Machine/Station.lean ====
section
/-! DEFINITION. The fabric station of a die (11_fabric): ricks, cords, entries performed at their homes, remote faults,
remote loads; and the completion of commands and of releases, which entries hold back. -/
namespace Sys2Proof.Machine

/-! ### Completion -/

/-- The ENGINE codes that a FEN mask selects (R280). -/
def fenEngines (mask : BitVec 8) : List Nat :=
  (if mask.getLsbD 0 then [2] else []) ++ (if mask.getLsbD 1 then [3] else []) ++ (if mask.getLsbD 2 then [4] else []) ++
  (if mask.getLsbD 3 then [5] else []) ++ (if mask.getLsbD 4 then [7] else []) ++ (if mask.getLsbD 5 then [8] else [])

/-- Whether a strand has a command outstanding on a selected engine. -/
def Strand.busyOn (x : Strand) (mask : BitVec 8) : Bool := x.outst.any fun o => !o.load && (fenEngines mask).contains o.engine

/-- A strand has nothing left to do in its work unit (R161); an M load is no command. -/
def Strand.finished (x : Strand) : Bool := !x.started || (x.halted && x.outst.all (·.engine == 0) && x.rels.isEmpty)

/-- A tile's work unit completes when every started strand has halted and its commands have completed (R161). -/
def State.checkUnit (s : State) (t : Nat) : State :=
  let x := s.tile t
  if x.unitOn && strandIds.all fun k => (x.strand k).finished then s.sched s.cc 13 (.workUnitComplete t) else s

/-- A strand issues a command to a source: it takes the next number of that source (R246, R308) and is outstanding. -/
def Strand.issued (x : Strand) (engine seq : Nat) (entry : Bool) : Strand :=
  { x with outst := x.outst ++ [⟨engine, seq, entry, x.node.map (·.index), false⟩] }

/-- A strand issues a load that reads at another home, numbered by its source: an M word (R149), which is no command of its
node, or an RLD (R248). -/
def Strand.loads (x : Strand) (engine seq : Nat) : Strand :=
  { x with outst := x.outst ++ [⟨engine, seq, false, if engine = 0 then none else x.node.map (·.index), true⟩] }

/-- A command of a strand completes or is abandoned: a FEN that waited for it becomes ready within 4 cc (R280), a fault
that waited for it may be taken (R308), the unit may be complete. -/
def State.finish (s : State) (o : Origin) (engine seq : Nat) : State :=
  let s := s.onStrand o.tile o.strand fun x =>
    { x with outst := x.outst.filter fun c => !(c.engine == engine && c.seq == seq) }
  let s := s.onTile o.tile fun x => { x with hang := 0 }
  let x := s.strand o.tile o.strand
  let s := match x.block with
    | some (.engines m) => if x.busyOn m || x.wake then s else s.soon 4 12 (.waitSatisfied o.tile o.strand)
    | _ => if x.faults.isEmpty then s else s.stir o.tile
  s.checkUnit o.tile

/-- The part of a HALT that follows its release (R161): the strand is finished, unless a refused word, which it owns again,
gives it a trap first (R111). -/
def State.halted (s : State) (t k : Nat) : State :=
  let s := if (s.strand t k).owned.isEmpty then
      s.onStrand t k fun x => { x with
        hold := none, halted := true, node := none,
        ended := match x.node with | none => x.ended | some n => n.index :: x.ended }
    else s.onStrand t k fun x => { x with hold := none }
  ((s.stir t).checkUnit t).each s.bars fun s b => s.sched s.cc 11 (.barrierComplete b.id)

/-- What waits for a release of a tile's strands looks again: the queues whose items it held (R273). -/
def State.releasePoke (s : State) (t : Nat) : State :=
  let s := if (s.tile t).fq.isEmpty then s else s.sched (max s.cc (s.tile t).fqCc) (slotQueue t) (.fabricQueueArrival t)
  let open_ (i : SyncItem) : Bool := !i.sent && match i.gate with
    | none => true
    | some r => !((s.strand i.org.tile i.org.strand).rels.any fun x => x.id ≤ r)
  let s := s.each ((s.tile t).yq.filter open_) fun s i =>
    s.soon (ctrBound i.id) (slotCore t) (.counterAdd (dieOf t) i.id i.inc (.cadd i.org))
  s.onTile t fun x => { x with yq := x.yq.map fun i => if open_ i then { i with sent := true } else i }

/-- A release completes once its words are performed and its entries are (R262, R241). -/
def State.settle (s : State) (t k : Nat) : State :=
  let done := (s.strand t k).rels.filter fun r => r.written && r.entries.isEmpty
  if done.isEmpty then s
  else
    let s := s.onStrand t k fun x => { x with rels := x.rels.filter fun r => !(r.written && r.entries.isEmpty) }
    let s := if done.any (·.halts) then s.halted t k else s.checkUnit t
    (s.releasePoke t).each s.bars fun s b => if b.full then s.sched s.cc 11 (.barrierComplete b.id) else s

/-- An entry has been performed, or has faulted and its record is queued. -/
def State.entryDone (s : State) (o : Origin) : State :=
  let s := s.finish o 5 o.seq
  let s := s.onStrand o.tile o.strand fun x =>
    { x with rels := x.rels.map fun r => { r with entries := r.entries.filter (· != o.seq) } }
  s.settle o.tile o.strand

/-- An entry, and those that merged into it, have been performed or have faulted. -/
def State.entriesDone (s : State) (e : Entry) : State := s.each (e.also ++ [e.org]) State.entryDone

/-! ### Remote faults -/

/-- KIND of a record (Table FAB-5). -/
def kindCode : EntryKind → Nat
  | .store => 0
  | .ram op => 1 + (match op with
      | .add => 0 | .min => 1 | .max => 2 | .minn => 3 | .maxn => 4 | .and => 5 | .or => 6 | .xor => 7)
  | .cadd => 0

/-- An entry is skipped: its record and its counter add (R244, R245). -/
def State.skip (s : State) (e : Entry) (cause xcause : Nat) : State :=
  let t := e.org.tile
  let r : RFRecord := ⟨t % 256, if e.dbl then e.data else e.data &&& 0xFFFFFFFF#64, cause, xcause, e.dbl, kindCode e.kind,
    if cause = 1 && xcause ≠ 3 then 0 else e.peer, e.org.strand, e.org.seq, e.va⟩
  let s := s.onTile t fun x =>
    { x with
      fFaults := min (x.fFaults + 1) 0xFFFF, fCause := cause, rfNew := x.rfNew ++ [r]
      fNew := (s.cc, if x.fNew.1 = s.cc then x.fNew.2 + 1 else 1) }
  let set := SMap.get CtxSet.reset (s.die (dieOf t)).sets (s.queueOf t)
  let s := if set.rfEn then s.sched (s.cc + if s.late then 1 else 0) slotFabric (.counterAdd (dieOf t) set.rfCid 1 .silent) else s
  s.entriesDone e

/-- The latest cause of Table FAB-4 of a tile, when no entry has it (R251). -/
def State.fabCause (s : State) (t cause : Nat) : State :=
  s.onTile t fun x => { x with fCause := cause, fNew := (s.cc, if x.fNew.1 = s.cc then x.fNew.2 else 0) }

/-! ### Releases at their homes -/

/-- A fault of a command, as its record will give it (R306). -/
def infoOf (o : Origin) (c : Cause) (engine : Nat) (isw : Word) (addr : DWord) : TrapInfo :=
  ⟨c, engine, o.seq, isw, addr, o.pc, o.node, o.entry, o.pc⟩

/-- The command of `o` has a fault: its strand takes it at its first boundary from now on. -/
def State.fault (s : State) (o : Origin) (c : Cause) (engine : Nat) (isw : Word) (addr : DWord) : State :=
  s.addFault o.tile o.strand s.cc (infoOf o c engine isw addr)

/-- Bytes with their places as runs of neighbours; the places rise. -/
def runsOf : List (Nat × Byte) → List (Nat × List Byte)
  | [] => []
  | (a, b) :: l => match runsOf l with
    | (c, bs) :: r => if c = a + 1 then (a, b :: bs) :: r else (a, [b]) :: (c, bs) :: r
    | [] => [(a, [b])]

/-- Whether the home of an owned word refuses it (R111). -/
def State.refuses (s : State) (w : Owned) : Bool := !w.store && s.shared w.die w.off

/-- The written bytes of words at one stack, in the order of their places. -/
def homeBytes (d : Nat) (l : List Owned) : List (Nat × Byte) :=
  sortBy (fun a b => a.1 ≤ b.1) ((l.filter fun w => !w.store && w.die == d).flatMap fun w => w.bytes.map fun b => (w.off + b.1, b.2))

/-- The words of a release are performed at their homes (R262), neighbours as one write (R79). The store of the cluster holds
what lies below its size (R86). -/
def State.publish (s : State) (c : Nat) (l : List Owned) : State :=
  let s := s.each (l.filter (·.store)) fun s w => s.onCluster c fun x =>
    { x with store := (w.bytes.filter fun b => 4 * w.word + b.1 < x.storeSize).foldl (fun m b => m.write (4 * w.word + b.1) b.2) x.store }
  s.each ((l.filter (!·.store)).map (·.die)).eraseDups fun s d => s.each (runsOf (homeBytes d l)) fun s r => s.memWrite d r.1 r.2

/-- A refused word is owned again, under newer bytes, and is not folded (R111, R281). -/
def Strand.reown (x : Strand) (folds : Bool) (w : Owned) : Strand :=
  let newer := x.ownedAt w.store w.word
  let x := { x with digest := if folds then x.digest - digestH (4 * w.word) w.data else x.digest }
  let x := { x with owned := w.bytes.foldl (fun l b =>
    if (match newer with | none => false | some n => n.mask.getLsbD b.1) then l
    else ownByte w.store w.word w.die w.off b.1 b.2 l) x.owned }
  x

/-- The words of a release are performed at their homes; refused ones give the strand a late-core trap, which for a BAR
follows the barrier's completion (R262, R111). -/
def State.performRelease (s : State) (t k rel : Nat) : State :=
  match (s.strand t k).rels.find? (·.id == rel) with
  | none => s
  | some r =>
    if r.written then s
    else
    let refused := r.words.filter s.refuses
    let s := s.publish (clusterOf t) (r.words.filter fun w => !s.refuses w)
    let s := s.onStrand t k fun x => refused.foldl (fun x w => x.reown r.folds w) { x with
      rels := x.rels.map fun q => if q.id == rel then { q with written := true } else q }
    let s := match (refused.map (·.word)).min? with
      | none => s
      | some w =>
        let i := infoOf r.org .translate 0 (BitVec.ofNat 32 (packLow [(16, 3), (16, min refused.length 0xFFFF)])) (BitVec.ofNat 64 (4 * w))
        if r.bar then s.onStrand t k fun x => { x with barFaults := x.barFaults ++ [i] } else s.addFault t k s.cc i
    s.settle t k

/-- The releases that a strand has issued are performed before what it does at a home later (P1, R113). -/
def State.ownFirst (s : State) (t k : Nat) : State :=
  s.each (((s.strand t k).rels.filter (!·.written)).map (·.id)) fun s r => s.performRelease t k r

/-! ### Homes -/

/-- RAM operations (Table FAB-8), on the low w bits. -/
def ramFn (op : RamOp) (w : Nat) (x b : BitVec w) : BitVec w :=
  match op with
  | .add => x + b
  | .min => if x.slt b then x else b
  | .max => if x.slt b then b else x
  | .minn => if x.ult b then x else b
  | .maxn => if x.ult b then b else x
  | .and => x &&& b
  | .or => x ||| b
  | .xor => x ^^^ b

/-- The home performs an entry (R240, R247, R273), behind the releases that its strand has issued. -/
def State.perform (s : State) (d : Nat) (e : Entry) : State :=
  let n := if e.dbl then 8 else 4
  let s := s.ownFirst e.org.tile e.org.strand
  match e.kind with
  | .cadd => s.soon (ctrBound (e.va.toNat % 2 ^ 24)) slotFabric
      (.counterAdd d (e.va.toNat % 2 ^ 24) e.data (.remoteCadd e.org e.peer))
  | .store =>
    if s.shared d e.off then s.skip e 1 3
    else (s.memWrite d e.off (leBytes n e.data.toNat)).entriesDone e
  | .ram op =>
    if s.shared d e.off then s.skip e 1 3
    else if s.isBad d e.off n then (s.noteRead d e.off n).skip e 4 0
    else
      let s := s.noteRead d e.off n
      let x : DWord := BitVec.ofNat 64 (leNat (s.memRead d e.off n))
      let y : DWord := if e.dbl then ramFn op 64 x e.data
        else (ramFn op 32 (x.setWidth 32) (e.data.setWidth 32)).setWidth 64
      (s.memWrite d e.off (leBytes n y.toNat)).entriesDone e

/-- An entry whose home lies in another package (log 1): what that home does with it is free within the rules, and comes back
as the home's answer: it performs the entry, or skips it for a shared frame or for an atomic's uncorrectable line (R244), or
refuses the add (R273; log 42). -/
def State.elsewhere (s : State) (e : Entry) : State :=
  let w := Config.freeW s.fresh
  let s := s.spend
  if !w.getLsbD 0 then s.entriesDone e
  else match e.kind with
    | .store => s.skip e 1 3
    | .ram _ => if w.getLsbD 1 then s.skip e 4 0 else s.skip e 1 3
    | .cadd =>
      let i := infoOf e.org .counter 5 (e.peer ++ BitVec.ofNat 16 (if w.getLsbD 1 then 1 else 2)) (BitVec.ofNat 64 (e.va.toNat % 2 ^ 24))
      (s.addFault e.org.tile e.org.strand s.cc i).entriesDone e

/-- A cord reaches its home: the home performs its entries in placement order (R240). One for another package leaves
this one (log 1). -/
def State.cordHere (s : State) (c : Cord) : State :=
  if s.ownPackage c.peer then s.each c.entries fun s e => s.perform (stnOf c.peer) e
  else (s.emit (.cord c)).each c.entries State.elsewhere

/-! ### Remote loads at their homes -/

/-- Bytes of another package's memory as a die finds them (log 1): through a copy those that the copy holds (R100), else free
ones. -/
def State.foreign (s : State) (e : BitVec 16) (off n : Nat) (copied : Bool) : List Byte × State :=
  match (if copied then s.dies.findSome? fun d => d.2.copies.find? fun y => y.peer == e && y.frame == off / 65536 else none) with
  | some y => ((List.range n).map fun i => Config.otherByte y.key e (off + i), s)
  | none => ((List.range n).map fun i => Config.otherByte s.fresh e (off + i), s.spend)

/-- A remote load is performed at its home and its value reaches the register at the bound (R248); `now` writes it at
once, for a trap (R35). Over the home's bytes stand those that the strand had written when it issued (P1). The status word of
its memory error (R79) is stated nowhere and is free (log 17). -/
def State.loadHere (s : State) (r : RemoteLoad) (now : Bool) : State :=
  let t := r.org.tile
  let put (s : State) (bs : List Byte) : State :=
    let v := loaded r.signed bs
    if now then s.onTile t fun x => x.commit r.org.strand (.g r.dest v)
    else s.sched (max s.cc r.due) 0 (.pendingWriteComplete t r.org.strand (.g r.dest v))
  let s := s.finish r.org r.engine r.org.seq
  if s.ownPackage r.peer then
    let d := stnOf r.peer
    let s := s.noteRead d r.off r.size 2
    let s := if s.isBad d r.off r.size then s.spend.addFault t r.org.strand (max s.cc r.due)
        ⟨.memory, 0, r.bundle, Config.freeW s.fresh, r.va, r.org.pc, r.org.node, r.org.entry, r.org.pc⟩ else s
    put s (if r.mode = 0 then ((s.memRead d r.off r.size).zipIdx).map fun b => ((r.own[b.2]?).getD none).getD b.1
      else s.memRead d r.off r.size)
  else
    let s := s.emit (.load r)
    let b := s.foreign r.peer r.off r.size (r.mode == 2)
    put b.2 b.1

/-! ### Packets (R230 to R233) -/

/-- The station that a packet left. -/
def packetDie : Packet → Nat
  | .cord c => c.die
  | .load r => dieOf r.org.tile
/-- The home that a packet goes to. -/
def packetPeer : Packet → BitVec 16
  | .cord c => c.peer
  | .load r => r.peer
/-- The number of a packet; of two packets from one station to one home the lower was sent first (R232). -/
def packetId : Packet → Nat
  | .cord c => c.id
  | .load r => match r.sent with | none => 0 | some x => x.1
/-- The cc by which a packet is performed (R235). -/
def packetDue : Packet → Nat
  | .cord c => c.due
  | .load r => match r.sent with | none => 0 | some x => x.2
/-- The queue of the launch that sends a packet. -/
def packetQueue (s : State) : Packet → Nat
  | .cord c => c.launch
  | .load r => s.queueOf r.org.tile

/-- The packet that an event carries: one that has left and has not been performed. -/
def packetOf : Event → Option Packet
  | .ringSlotArrival p _ _ => some p
  | .cordPerform c => some (.cord c)
  | .remoteLoadRequest r => if r.sent.isSome then some (.load r) else none
  | _ => none

/-- The cord that an event carries. -/
def cordOf (e : Event) : Option Cord := match packetOf e with
  | some (.cord c) => some c
  | _ => none

/-- The remote load that an event carries, whether or not it has left. -/
def loadOf : Event → Option RemoteLoad
  | .ringSlotArrival (.load r) _ _ | .remoteLoadRequest r => some r
  | _ => none

/-- A packet leaves its station (R231, R232): it reaches its home within X(p). Whether a full buffer refuses it there once, as far
as that leaves time for the second lap, is free. -/
def State.send (s : State) (d : Nat) (p : Packet) : State :=
  let x := s.transit d (packetPeer p)
  let refused := (Config.freeW s.fresh).getLsbD 0 && s.dueCc x < packetDue p
  let s' : State := (s.carry (packetQueue s p) (packetPeer p)).spend
  { s' with cordNext := s.cordNext + 1 }.soon x slotRing (.ringSlotArrival p 1 refused)

/-- Packets on their way that satisfy a test are performed, in the order they left (R232); a load that `now` names writes its
register at once. -/
def State.landPackets (s : State) (f : Packet → Bool) (now : RemoteLoad → Bool) : State :=
  let ps := sortBy (fun a b => packetId a ≤ packetId b) ((s.agenda.filterMap fun e => packetOf e.2).filter f)
  (s.unsched fun e => match packetOf e with | none => false | some p => f p).each ps fun s p => match p with
    | .cord c => s.cordHere c
    | .load r => s.loadHere r (now r)

/-! ### Ricks -/

/-- A rick departs as one cord (R238); it is free in the next cc, or at once if `evict` gives it to another peer (R237). -/
def State.depart (s : State) (d id : Nat) (evict : Bool := false) : State :=
  match (s.die d).ricks.find? (·.id == id) with
  | none => s
  | some r =>
    let c : Cord := ⟨s.cordNext, d, r.launch, r.peer, r.entries.map (·.e), s.cc + s.transit d r.peer⟩
    (s.onDie d fun x => { x with
      ricks := x.ricks.filter (·.id != id)
      freed := if evict then x.freed else (s.cc, if x.freed.1 = s.cc then x.freed.2 + 1 else 1) }).send d (.cord c)

/-- The ricks of a die that a test selects depart in this cc, after the entries of this cc are placed (R238). -/
def State.departWhere (s : State) (d : Nat) (f : Rick → Bool) : State :=
  s.each ((s.die d).ricks.filter f) fun s r => s.sched s.cc slotFlush (.rickAgeDeparture d r.id)

/-- In this cc a peer's rick for a launch is sent off: what is placed there later in the cc departs too (R238). -/
def State.flushing (s : State) (d : Nat) (peer : BitVec 16) (launch : Nat) : State :=
  s.onDie d fun x => { x with flushing := (s.cc, peer, launch) :: x.flushing.filter (·.1 == s.cc) }

/-- Whether a strand issued an entry, or one that merged into it. -/
def issuedBy (t k : Nat) (e : Entry) : Bool := (e.org :: e.also).any fun o => o.tile == t && o.strand == k

/-- Whether a rick holds an entry of a strand. -/
def Rick.holds (r : Rick) (t k : Nat) : Bool := r.entries.any fun p => issuedBy t k p.e

/-- Bytes of an entry. -/
def entryBytes (e : Entry) : Nat := if e.dbl then 8 else 4

/-- Whether two entries of one home share bytes there; an add of a counter touches none. -/
def touches (a b : Entry) : Bool :=
  a.kind != .cadd && b.kind != .cadd && a.off < b.off + entryBytes b && b.off < a.off + entryBytes a

/-- Merge an RSW entry into the last entry of its address, home bytes and size, if no later entry touches its bytes (R239): the
newest entries come first. -/
def mergeInto (e : Placed) : List Placed → Option (List Placed)
  | [] => none
  | p :: l =>
    if p.e.kind == .store && p.e.va == e.e.va && p.e.off == e.e.off && p.e.dbl == e.e.dbl then
      some ({ p with e := { p.e with data := e.e.data, org := e.e.org, also := p.e.org :: p.e.also } } :: l)
    else if touches p.e e.e then none
    else (mergeInto e l).map (p :: ·)

/-- Whether a rick departs for age by a cc: it counts from the issue of its first entry (R238). -/
def Rick.aged (r : Rick) (cc : Nat) : Bool := match r.entries with | [] => false | p :: _ => p.issue + r.limit ≤ cc

/-- Place an entry in the rick of its peer for its launch (R237 to R239); one that departs for age in this cc takes no
more. -/
def State.place (s : State) (d launch : Nat) (p : Placed) : State :=
  let peer := p.e.peer
  match (s.die d).ricks.find? fun r => r.peer == peer && r.launch == launch && !r.aged s.cc with
  | some r =>
    match (if p.e.kind == .store then mergeInto p r.entries.reverse else none) with
    | some l => s.onDie d fun x => { x with ricks := x.ricks.map fun q => if q.id == r.id then { q with entries := l.reverse } else q }
    | none =>
      let s := s.onDie d fun x => { x with ricks := x.ricks.map fun q =>
        if q.id == r.id then { q with entries := q.entries ++ [p] } else q }
      if r.entries.length + 1 ≥ 32 || p.e.kind == .cadd then s.depart d r.id else s
  | none =>
    let s := if (s.die d).ricks.length + (if (s.die d).freed.1 = s.cc then (s.die d).freed.2 else 0) < 128 then s
      else match (s.die d).ricks with
        | [] => s
        | r :: _ => s.depart d r.id true
    let id := (s.die d).rickNext
    let age := (SMap.get CtxSet.reset (s.die d).sets launch).age
    let s := s.onDie d fun x => { x with rickNext := id + 1, ricks := x.ricks ++ [⟨id, peer, launch, age, [p]⟩] }
    if p.e.kind == .cadd then s.depart d id
    else if (s.die d).flushing.contains (s.cc, peer, launch) then s.sched s.cc slotFlush (.rickAgeDeparture d id)
    else s.sched (max s.cc (p.issue + age)) slotAge (.rickAgeDeparture d id)

/-! ### Remote loads and copies -/

/-- A die tells the home of a frame that it holds a copy of it, or no longer does (R101). The home knows readers by their peer
numbers. -/
def State.holderUpdate (s : State) (d : Nat) (peer : BitVec 16) (frame : Nat) (add : Bool) : State :=
  if s.ownPackage peer then
    s.soon (s.transit d peer) slotRing (.holderCountUpdate (stnOf peer) frame (s.peerOf d).toNat add)
  else s.emit (.holder peer frame add)

/-- Copies leave a die: with the last copy of a frame, its home counts a holder less (R101). -/
def State.dropCopies (s : State) (d : Nat) (f : Copy → Bool) : State :=
  let gone := (s.die d).copies.filter f
  let left := (s.die d).copies.filter fun y => !f y
  let s := s.onDie d fun x => { x with copies := left }
  let frames := (gone.map fun y => (y.peer, y.frame)).eraseDups.filter fun f => !left.any fun y => y.peer == f.1 && y.frame == f.2
  s.each frames fun s f => s.holderUpdate d f.1 f.2 false

/-- A die has no cache way left: it holds no copy (R83, R101). -/
def State.cacheless (s : State) (d : Nat) : Bool := (List.range 32).all fun i => (s.cluster (32 * d + i)).cw == 0

/-- The copies of a die without a cache way leave. -/
def State.dropUncached (s : State) (d : Nat) : State := if s.cacheless d then s.dropCopies d fun _ => true else s

/-- The copy of a frame in the package, if a die holds one. -/
def State.frameCopy (s : State) (peer : BitVec 16) (frame : Nat) : Option Copy :=
  s.dies.findSome? fun d => d.2.copies.find? fun y => y.peer == peer && y.frame == frame

/-- A die installs a read-only copy of the frame that an address reaches, tagged with its context and page; with the first
copy of a frame, its home counts a holder (R101). Which copies leave a slice to make room is free, the oldest first (log 37). -/
def State.copyFrame (s : State) (d : Nat) (e : TlbEntry) (va : Nat) : State :=
  let frame := e.offset va / 65536
  let page := va / 65536
  if s.cacheless d || (s.die d).copies.any fun y => y.peer == e.peer && y.frame == frame && y.ctx == e.ctx && y.page == page then s
  else
    let first := !(s.die d).copies.any fun y => y.peer == e.peer && y.frame == frame
    let key := match s.frameCopy e.peer frame with | some y => y.key | none => s.fresh
    let out := (Config.freeW s.fresh).toNat
    let s := match (s.die d).copies.getLast? with
      | some y => if out % 2 = 1 then s.spend.dropCopies d (· == y) else s.spend
      | none => s.spend
    let s := s.onDie d fun x => { x with copies := ⟨e.peer, frame, e.ctx, page, key⟩ :: x.copies }
    if first then s.holderUpdate d e.peer frame true else s

/-- A remote load leaves for its home in this cc (R248), behind the strand's entries to that home. -/
def State.remoteLoad (s : State) (r : RemoteLoad) : State :=
  let s := s.departWhere (dieOf r.org.tile) fun q => q.peer == r.peer && q.holds r.org.tile r.org.strand
  s.sched s.cc slotLoad (.remoteLoadRequest r)

/-- What a strand has written of a range when it issues a load: owned words and releases on their way (P1). -/
def Strand.ownBytes (x : Strand) (va n : Nat) : List (Option Byte) := (List.range n).map fun i => x.ownWrite false (va + i)

/-! ### Entries of a strand -/

/-- The ricks that hold entries of a strand depart, and its entries are performed with all that left before them for the same
homes (R232, R242); with `loads` its remote loads too, which then write their registers at once (R35). -/
def State.landStrand (s : State) (t k : Nat) (loads : Bool) : State :=
  let d := dieOf t
  let s := s.each ((s.die d).ricks.filter fun r => r.holds t k) fun s r => (s.flushing d r.peer r.launch).depart d r.id
  let own : Packet → Bool
    | .cord c => c.entries.any (issuedBy t k)
    | .load r => loads && r.org.tile == t && r.org.strand == k
  let ps := (s.agenda.filterMap fun e => packetOf e.2).filter fun p => packetDie p == d && own p
  s.landPackets (fun p => packetDie p == d && ps.any fun b => packetPeer b == packetPeer p && packetId p ≤ packetId b) fun r => loads && r.org.tile == t && r.org.strand == k

end Sys2Proof.Machine
end

