-- ==== Sys2Proof/Machine/Arrive.lean ====
section
/-! DEFINITION. What reaches a fabric station (R237): entries, remote loads and remote adds of a tile's queue; and the words
of a release at their homes. -/
namespace Sys2Proof.Machine

/-- Cause of a refused add (R273). -/
def addCause (s : State) (d id : Nat) : Nat := if s.ctrOk d id then 2 else 1

/-- ISW of a counter fault (R273). -/
def counterIsw (cause : Nat) (peer : BitVec 16) : Word := peer ++ BitVec.ofNat 16 cause

/-! ### Items of a fabric queue -/

/-- An entry reaches the station (R237, R244): translation, then the home, then its rick. -/
def State.stationEntry (s : State) (kind : EntryKind) (va data : DWord) (dbl : Bool) (o : Origin) (issue : Nat) : State :=
  let c := clusterOf o.tile
  let r := s.engXlate c va.toNat
  let s := s.touch c va
  match r with
  | .error f => s.skip ⟨kind, va, 0, 0, data, dbl, o, []⟩ 1 f.1
  | .ok e =>
    let n : Entry := ⟨kind, va, e.peer, e.offset va.toNat, data, dbl, o, []⟩
    if e.ro then s.skip n 1 2
    else if stnOf e.peer > 7 then s.skip n 2 0
    else if s.absent e.peer then s.skip n 3 0
    else
      let d := dieOf o.tile
      s.place d (s.queueOf o.tile) ⟨n, issue, (s.cluster c).ptCtx, s.xgenOf d (s.cluster c).ptCtx⟩

/-- A remote CADD reaches the station (R273). -/
def State.stationAdd (s : State) (id : Nat) (inc : DWord) (peer : BitVec 16) (o : Origin) (issue : Nat) : State :=
  let bad (cause : Nat) : State := (s.fault o .counter 5 (counterIsw cause peer) (BitVec.ofNat 64 id)).entryDone o
  if stnOf peer > 7 then bad 3
  else if s.absent peer then bad 4
  else s.place (dieOf o.tile) (s.queueOf o.tile) ⟨⟨.cadd, BitVec.ofNat 64 id, peer, 0, inc, true, o, []⟩, issue, 0, 0⟩

/-- Twice the transit to the home of an RLD and 1,024; 1,024 for a home that is none (R248). -/
def State.homeBound (s : State) (d : Nat) (p : BitVec 16) : Nat :=
  if stnOf p > 7 || s.absent p then 1024 else 2 * s.transit d p + 1024

/-- The bound of an RLD from its issue (R248), and the walk if it missed. -/
def State.rldBound (s : State) (d c : Nat) (va : DWord) : Nat :=
  match s.xlate c va with
  | .hit e miss => s.homeBound d e.peer + if miss then s.missBound c (va.toNat / 65536) else 0
  | .fault _ _ miss => 1024 + if miss then s.missBound c (va.toNat / 65536) else 0
  | .full => match s.walk c va.toNat with
    | .ok e => s.homeBound d e.peer + s.missBound c (va.toNat / 65536)
    | .error _ => 1024 + s.missBound c (va.toNat / 65536)

/-- An RLD reaches the station (R248). `bundle` numbers its bundle, for a translation trap. -/
def State.stationLoad (s : State) (va : DWord) (size : Nat) (signed : Bool) (dest : Reg) (o : Origin) (due bundle : Nat)
    (own : List (Option Byte)) : State :=
  let c := clusterOf o.tile
  let d := dieOf o.tile
  let due := max s.cc due
  let r := s.engXlate c va.toNat
  let s := s.touch c va
  let late (i : TrapInfo) : State := (s.finish o 5 o.seq).addFault o.tile o.strand due i
  match r with
  | .error f => late { infoOf o .translate 0 (BitVec.ofNat 32 (f.1 + 16 * f.2)) va with seq := bundle }
  | .ok e =>
    if stnOf e.peer > 7 then (late (infoOf o .fabric 5 2 va)).fabCause o.tile 2
    else if s.absent e.peer then (late (infoOf o .fabric 5 3 va)).fabCause o.tile 3
    else
      let s := if e.mode = 2 then s.copyFrame d e va.toNat else s
      let s := if dest = 0 then s else s.onStrand o.tile o.strand fun x => { x with board := (.g dest, due) :: x.board }
      s.remoteLoad ⟨va, e.peer, e.offset va.toNat, e.mode, size, signed, dest, o, due, 5, bundle, own, none⟩

/-- An item that a strand's trap or stop sends to the station (R242). -/
def FabItem.moves (t k : Nat) : FabItem → Bool
  | .entry _ _ _ _ o _ | .remoteAdd _ _ _ o _ _ | .load _ _ _ _ o _ _ _ => o.tile == t && o.strand == k
  | .flush .. | .group .. | .reduce .. | .drain .. => false

/-- A command of the reductions: no entry depends on its place in the queue. -/
def FabItem.collective : FabItem → Bool
  | .group .. | .reduce .. => true
  | _ => false

/-- A flush of ricks reaches the station (R249). -/
def State.stationFlush (s : State) (all : Bool) (peer : BitVec 16) (o : Origin) : State :=
  let d := dieOf o.tile
  let q := s.queueOf o.tile
  if all then s.departWhere d (·.holds o.tile o.strand)
  else (s.flushing d peer q).departWhere d fun r => r.peer == peer && r.launch == q

/-- An item reaches the station at once; a remote CADD that waits for releases has them completed first. -/
def State.moveItem (s : State) : FabItem → State
  | .entry kind va data dbl o issue => s.stationEntry kind va data dbl o issue
  | .remoteAdd id inc peer o issue gate =>
    let s := if (s.strand o.tile o.strand).waitsRelease gate then
        (s.landStrand o.tile o.strand false).each ((s.strand o.tile o.strand).rels.map (·.id)) fun s r => s.performRelease o.tile o.strand r
      else s
    s.stationAdd id inc peer o issue
  | .load va size signed dest o due bundle own => s.stationLoad va size signed dest o due bundle own
  | .flush all peer o => s.stationFlush all peer o
  | .drain o _ => s.departWhere (dieOf o.tile) (·.holds o.tile o.strand)
  | .group .. | .reduce .. => s

/-- The length of a queue up to the last item of a strand. -/
def lastMove (t k : Nat) (l : List FabItem) : Nat :=
  l.length - (l.reverse.takeWhile fun i => !i.moves t k).length

/-- The items of a strand leave its tile's queue for the station, and in their order what stands before them (R237, R242). -/
def State.moveItems (s : State) (t k : Nat) : State :=
  let q := (s.tile t).fq
  let n := lastMove t k q
  (s.onTile t fun x => { x with fq := (q.take n).filter FabItem.collective ++ q.drop n }).each
    ((q.take n).filter fun i => !i.collective) State.moveItem

/-- Whether an entry of a strand that is not performed touches bytes of its address space. -/
def State.entriesOn (s : State) (t k va n : Nat) : Bool :=
  let on (a : DWord) (dbl : Bool) : Bool := a.toNat < va + n && va < a.toNat + (if dbl then 8 else 4)
  let hit (e : Entry) : Bool := e.kind != .cadd && issuedBy t k e && on e.va e.dbl
  ((s.tile t).fq.any fun i => match i with | .entry _ a _ dbl o _ => o.strand == k && on a dbl | _ => false) ||
    ((s.die (dieOf t)).ricks.any fun r => r.entries.any fun p => hit p.e) ||
    s.agenda.any fun e => match cordOf e.2 with | some c => c.entries.any hit | none => false

/-- A strand sees its own entries (P1): those that touch what it loads are performed before it reads. -/
def State.ownEntries (s : State) (t k va n : Nat) : State :=
  if s.entriesOn t k va n then (s.moveItems t k).landStrand t k false else s

end Sys2Proof.Machine
end

