-- ==== Sys2Proof/Machine/Ops.lean ====
section
/-! DEFINITION. The shared operations of the meanings: releases, the checks before a bundle issues, taking a trap and
returning from one, blocking, stopping, ending a launch. -/
namespace Sys2Proof.Machine

/-- What every meaning answers. -/
abbrev Result := Host.Outcome State Fault Refusal

/-! ### Releases -/

/-- A strand performs a release (R262) for a HALT, a BAR or another word: its owned words are on their way to their homes and
fold into its digest (Table CON-8), and its ricks drain behind the entries it issued before (R241). -/
def State.releaseFor (s : State) (t k : Nat) (halts bar : Bool) : State :=
  let x := s.strand t k
  let id := x.relNext
  let r : Release := ⟨id, x.owned, (x.outst.filter (·.entry)).map (·.seq), x.folding, x.owned.isEmpty, halts, bar,
    ⟨t, k, x.bundleSeq, x.pc, (x.node.map (·.index)).getD 0, (x.node.map (·.entry)).getD 0⟩⟩
  let s := s.onStrand t k fun x =>
    let x := (x.owned.filter (!·.store)).foldl (fun x w => x.fold (4 * w.word) w.data) x
    { x with owned := [], rels := x.rels ++ [r], relNext := id + 1 }
  let s := if (s.tile t).fq.isEmpty then s.departWhere (dieOf t) (·.holds t k)
    else s.onTile t fun y => { y with fq := y.fq ++ [.drain ⟨t, k, 0, 0, 0, 0⟩ id] }
  let s := if x.owned.isEmpty then s else s.soon 4096 3 (.releaseComplete t k id)
  s.settle t k

/-- A release of a strand that is not a BAR's (R262). -/
def State.release (s : State) (t k : Nat) (halts : Bool) : State := s.releaseFor t k halts false

/-- The number of the last release that a strand has issued and that has not completed: a later signal waits for it
(R262). -/
def Strand.gate (x : Strand) : Option Nat := (x.rels.map (·.id)).getLast?

/-- Whether a signal that was issued when `gate` releases had been issued must still wait. -/
def Strand.gated (x : Strand) (gate : Nat) : Bool := x.rels.any fun r => r.id < gate

/-! ### Traps -/

/-- ENGINE of a precise cause (Table TRP-1). -/
def causeEngine : Cause → Nat
  | .splitRange | .splitOrder | .counterRange => 6
  | .quiltRange => 4
  | .invalidateRange => 8
  | _ => 0

/-- Whether TRAPPC names the bundle that the information gives; else it names the strand's next bundle (Table TRP-1). -/
def namesBundle : Cause → Bool
  | .translate | .memory | .arrayNar | .panelFollow | .arrayCounter | .stream | .quilt | .fabric | .counter
  | .barrierMismatch | .thermal | .kiln | .overrun => false
  | _ => true

/-- The node of a strand and its entry word; zero outside any node. -/
def Strand.nodeAt (x : Strand) : BitVec 22 × Word := match x.node with | none => (0, 0) | some n => (n.index, n.entry)

/-- The executing bundle as the origin of a command numbered `seq`. -/
def State.origin (s : State) (seq : Nat) : Origin :=
  ⟨s.bun.tile, s.bun.strand, seq, s.bun.first, s.me.nodeAt.1, s.me.nodeAt.2⟩

/-- What a trap before the bundle at `pc` records. -/
def preciseInfo (x : Strand) (pc : Word) (c : Cause) (addr : DWord) (isw : Word) : TrapInfo :=
  let e := causeEngine c
  ⟨c, e, if e = 6 then x.seqs.sync else if e = 4 then x.seqs.quilt else if e = 8 then x.seqs.trans else x.bundleSeq,
    isw, addr, pc, x.nodeAt.1, x.nodeAt.2, pc⟩

/-- Writes that a strand has in flight complete. -/
def State.landWrites (s : State) (t k : Nat) : State :=
  let writes := s.agenda.filterMap fun e => match e.2 with
    | .pendingWriteComplete t' k' w => if t' == t && k' == k then some w else none
    | _ => none
  let s := s.unsched fun e => match e with
    | .pendingWriteComplete t' k' _ => t' == t && k' == k
    | _ => false
  let s := s.onTile t fun x => writes.foldl (fun x w => x.commit k w) x
  s.onStrand t k fun x => { x with board := [] }

/-- Writes that a strand has in flight complete, with its remote loads and its entries (R35, R242). -/
def State.flush (s : State) (t k : Nat) : State :=
  let s := (s.moveItems t k).landStrand t k true
  let mine (r : RemoteLoad) : Bool := r.org.tile == t && r.org.strand == k
  let loads := (s.agenda.filterMap fun e => loadOf e.2).filter mine
  let s := s.unsched fun e => match loadOf e with | none => false | some r => mine r
  (s.each loads fun s r => s.loadHere r true).landWrites t k

/-- A launch ends with a code (Table SCH-3), at the loader's next step. -/
def State.endLaunch (s : State) (q code : Nat) : State :=
  (s.onLaunch q fun l => { l with endCode := some (l.endCode.getD code) }).sched s.cc 15 (.launchEnd q)

/-- LSTAT code of an unhandled trap (R309). -/
def unhandledCode : Cause → Nat
  | .overrun => 6 | .thermal => 9 | _ => 7

/-- Both loops inactive (R309, R155). -/
def Strand.loopsOff (x : Strand) : Strand :=
  { x with loop0 := { x.loop0 with act := false }, loop1 := { x.loop1 with act := false } }

/-- Entry into the handler (R309). -/
def Strand.enter (x : Strand) (resume : Word) (cc : Nat) : Strand :=
  { x.loopsOff with
    trap := { x.trap with
      pc := resume, lact1 := x.loop1.act, lact0 := x.loop0.act, ppriv := x.trap.priv, priv := true, inh := true },
    pc := x.trap.entry, block := none, wake := false, cleared := none, regionDue := none,
    gang := if x.gang == .waiting then .no else x.gang, nextCc := cc + 2, transferFrom := none }

/-- A strand that waits for its panel and abandons the wait has joined nothing (R163, R306). -/
def State.leaveGang (s : State) (t k : Nat) : State :=
  if (s.strand t k).gang == .waiting then
    { s with bars := (s.bars.map fun b => if b.gang then { b with joined := b.joined.filter fun j => !(j.1 == t && j.2.1 == k) }
      else b).filter fun b => !(b.gang && b.joined.isEmpty) }
  else s

/-- Take a trap (R309): writes in flight complete, the record is written, and the strand enters its handler; without one,
or in one, the trap is unhandled and ends the launch. -/
def State.takeTrap (s : State) (t k : Nat) (i : TrapInfo) : State :=
  let s := (s.flush t k).leaveGang t k
  let x := s.strand t k
  let s := s.onTile t fun y => y.writeBytes x.trap.area (trapRecord s.cc t k 0 0 0 i)
  if x.trap.inh || !x.trap.en then
    let s := s.health (dieOf t) (trapRecord s.cc t k 1 0 0 i)
    let s := s.onStrand t k fun x => { x with
      halted := true, block := none, hold := none, node := none, gang := if x.gang == .waiting then .no else x.gang }
    ((match (s.tile t).launch with
      | none => s
      | some q => s.endLaunch q (unhandledCode i.cause)).leave t k).checkUnit t
  else
    (s.onStrand t k fun x => x.enter (if namesBundle i.cause then i.resume else x.pc) s.cc).leave t k

/-- The executing bundle traps before it issues (R40, R306). An address or status word that no entry states is free
(log 17). -/
def State.trapHere (s : State) (c : Cause) (addr : Option DWord) (isw : Option Word) : State :=
  s.spend.takeTrap s.bun.tile s.bun.strand (preciseInfo s.me s.bun.first c (addr.getD (Config.freeD s.fresh))
    (isw.getD (Config.freeW s.fresh)))

/-- Return from a handler (R325): privilege and inhibition as before. -/
def Strand.leaveHandler (x : Strand) : Strand := { x with trap := { x.trap with priv := x.trap.ppriv, inh := false } }

/-- Return from a handler with its loops (R325); this follows the transfer, which does not end them (R155). -/
def Strand.restoreLoops (x : Strand) : Strand :=
  { x with
    loop0 := { x.loop0 with act := x.trap.lact0 },
    loop1 := { x.loop1 with act := x.trap.lact1 } }

/-! ### Traps of a panel (R211, R221) -/

/-- The number of an array or Quilt command, given a count of each. -/
def Seqs.ofGang (q : Seqs) (engine : Nat) : Nat := if engine = 2 then q.array else if engine = 4 then q.quilt else 0

/-- The number of a command counted from the forming of the strand's panel: members give one command of the lead's stream the
same. -/
def Strand.relSeq (x : Strand) (engine seq : Nat) : Nat := (seq + 2 ^ 32 - x.gangBase.ofGang engine) % 2 ^ 32

/-- Whether a strand issued an array or Quilt command as a member of its last panel. -/
def Strand.inPanel (x : Strand) (engine seq : Nat) : Bool :=
  x.relSeq engine seq < 2 ^ 31 && match x.gangEnd with
    | none => x.gang == .ganged
    | some e => x.relSeq engine seq < x.relSeq engine (e.ofGang engine)

/-- A member's own fault as the others see it: PANEL_FOLLOW, numbered from the forming of the panel. -/
def followInfo (x : Strand) (i : TrapInfo) : TrapInfo := { i with cause := .panelFollow, seq := x.relSeq i.engine i.seq }

/-- A panel's fault as a member records it: its own record of the command if it has one, else the panel's at its own number. -/
def Strand.panelRecord (x : Strand) (f : TrapInfo) : TrapInfo :=
  (x.panelTraps.find? fun i => i.engine == f.engine && x.relSeq i.engine i.seq == f.seq).getD
    { f with seq := (f.seq + x.gangBase.ofGang f.engine) % 2 ^ 32 }

/-- A fault of a panel that its strand takes alone: one for each command, the strand's own record before another's. -/
def State.addPanelFault (s : State) (t k due : Nat) (i : TrapInfo) : State :=
  match (s.strand t k).faults.find? fun f => f.2.engine == i.engine && f.2.seq == i.seq with
  | none => s.addFault t k due i
  | some f =>
    if i.cause == .panelFollow then s
    else s.onStrand t k fun x => { x with faults := x.faults.map fun g => if g == f then (f.1, i) else g }

/-- The strands of a cluster's panel, or of the last one it had: tile and strand. -/
def State.gangOf (s : State) (c : Nat) : List (Nat × Nat) := ((s.cluster c).gangs.zipIdx).map fun e => (8 * c + e.2, e.1)

/-- A fault of a panel whose lead has left it is taken by each of its strands alone (log 22). -/
def State.scatterFault (s : State) (c due : Nat) (f : TrapInfo) : State :=
  s.each (s.gangOf c) fun s m => s.addPanelFault m.1 m.2 due ((s.strand m.1 m.2).panelRecord f)

/-! ### Checks before a bundle issues -/

/-- What the checks of a word say: it may issue; its bundle traps; its bundle stalls to a cc (R33); its bundle
blocks. -/
inductive Check where
  | ok
  | trap (c : Cause) (addr : Option DWord) (isw : Option Word)
  | block (w : Wait)
  deriving DecidableEq, Repr

/-- A trap whose entry states no address and no status word. -/
def Check.plain (c : Cause) : Check := .trap c none none
/-- A trap whose record gives an address. -/
def Check.at_ (c : Cause) (a : DWord) : Check := .trap c (some a) none

/-- The second check, unless the first fails. -/
def Check.and (a : Check) (b : Unit → Check) : Check := match a with | .ok => b () | c => c

/-- A check that traps when a test fails. -/
def need (ok : Bool) (c : Check) : Check := if ok then .ok else c

/-- The instance of a scope that a tile lies in (Table CON-1). -/
def instOf (sc : Scope) (t : Nat) : Nat := match sc with | .cluster => clusterOf t | .die => dieOf t | .package | .system => 0

/-- The code of a scope (Table CON-1); `gangCode` stands for the meeting of a panel. -/
def scopeCode : Scope → Nat | .cluster => 0 | .die => 1 | .package => 2 | .system => 3
/-- The meeting of a panel among the barriers a strand has passed. -/
def gangCode : Nat := 9

/-- A strand joins the open generation of its instance, or opens one (R279, R163). -/
def State.join (s : State) (t k : Nat) (sc : Scope) (ss gang : Bool) : State :=
  let q := s.queueOf t
  let in_ (b : Barrier) : Bool := b.joined.any fun j => j.1 == t && j.2.1 == k
  match s.bars.find? fun b => b.gang == gang && b.scope == sc && b.inst == instOf sc t && b.launch == q && (!b.full || in_ b) with
  | some b =>
    let s : State := { s with bars := s.bars.map fun c =>
        if c.id == b.id && !in_ c then { c with joined := c.joined ++ [(t, k, ss)] }
        else c }
    s.sched s.cc 11 (.barrierComplete b.id)
  | none =>
    let s' : State := { s with
      bars := s.bars ++ [⟨s.barNext, gang, sc, instOf sc t, q, [(t, k, ss)], false, none⟩], barNext := s.barNext + 1 }
    s'.sched s.cc 11 (.barrierComplete s.barNext)

/-- A strand's entries depart (R249, R280): those in its ricks now, those still in its tile's queue behind it. -/
def State.departAll (s : State) (t k : Nat) : State :=
  let s := s.departWhere (dieOf t) (·.holds t k)
  if (s.tile t).fq.isEmpty then s
  else s.onTile t fun y => { y with fq := y.fq ++ [.drain ⟨t, k, 0, 0, 0, 0⟩ 0] }

/-- What a bundle does when it starts to wait: a BAR joins (R279), a GANG enter joins (R163), a FEN of the fabric sends
the strand's entries (R280), a SLP is woken at its deadline (R328). -/
def State.startWait (s : State) (t k : Nat) : Wait → State
  | .barrier sc ss => s.join t k sc ss false
  | .gang => (s.onStrand t k fun x => { x with gang := .waiting }).join t k .cluster false true
  | .engines m => if m.getLsbD 3 then s.departAll t k else s
  | .sleep deadline _ => s.sched (max (s.cc + 1) deadline.toNat) 12 (.waitSatisfied t k)
  | .region => { s.onStrand t k fun x => { x with regionDue := x.regionDue.or (some (s.dueCc 2046)) } with slack := s.slack.tail }
  | _ => s

/-- The executing bundle blocks (R37, R135): its strand gives up the core. -/
def State.blockOn (s : State) (w : Wait) : State :=
  ((s.onMe fun x => { x with block := some w, wake := false, cleared := none }).startWait s.bun.tile s.bun.strand w).leave
    s.bun.tile s.bun.strand

/-- A word that stands alone is checked and then executed; in a bundle whose words have all passed, it is executed. -/
def guarded (pre : State → Check) (eff : State → State) (s : State) : Result :=
  if s.bun.checked then .next (eff s)
  else match pre s with
    | .ok => .next (eff s)
    | .trap c a i => .next (s.trapHere c a i)
    | .block w => .next (s.blockOn w)

/-- Only privileged code issues the word (R40, R323). -/
def privileged (s : State) : Check := need s.me.trap.priv (.plain .privileged)

/-- The launch of the executing strand runs in deterministic mode (R322). -/
def State.det (s : State) : Bool := match s.launchOf s.bun.tile with | none => false | some l => l.det

/-- Alignment, then range of a scratchpad access (R148, R276). -/
def scratchCheck (a : DWord) (align n : Nat) : Check :=
  (need (a.toNat % align == 0) (.at_ .align a)).and fun _ =>
    need (a.toNat + n ≤ scratchSize) (.at_ .scratchRange a)

/-! ### Numbers of commands -/

/-- Take the next number of a source (R246, R308). -/
def Strand.number (x : Strand) (engine : Nat) : Nat :=
  match engine with
  | 2 => x.seqs.array | 3 => x.seqs.stream | 4 => x.seqs.quilt | 5 => x.seqs.fabric | 6 => x.seqs.sync
  | 7 => x.seqs.kiln | 8 => x.seqs.trans | _ => x.bundleSeq

/-- The numbers after an event of a source. -/
def Seqs.bump (q : Seqs) (engine : Nat) : Seqs :=
  let up (n : Nat) := (n + 1) % 2 ^ 32
  match engine with
  | 2 => { q with array := up q.array }
  | 3 => { q with stream := up q.stream }
  | 4 => { q with quilt := up q.quilt }
  | 5 => { q with fabric := up q.fabric }
  | 6 => { q with sync := up q.sync }
  | 7 => { q with kiln := up q.kiln }
  | 8 => { q with trans := up q.trans }
  | _ => q

/-- The executing word sends a command to a source: the command's origin, and the state with the strand's number used and
the command outstanding. -/
def State.command (s : State) (engine : Nat) (entry : Bool) : Origin × State :=
  let o := s.origin (s.me.number engine)
  (o, s.onMe fun x => { x.issued engine o.seq entry with seqs := x.seqs.bump engine })

/-- The executing word uses a number of a source without a command. -/
def State.numbered (s : State) (engine : Nat) : State := s.onMe fun x => { x with seqs := x.seqs.bump engine }

/-- Put an item on the executing tile's fabric queue (R237). A word that finds it empty reaches the station in its own
cc. -/
def State.toStation (s : State) (i : FabItem) : State :=
  let t := s.bun.tile
  let s := if s.myTile.fq.isEmpty then s.sched (max s.cc s.myTile.fqCc) (slotQueue t) (.fabricQueueArrival t) else s
  s.onMyTile fun x => { x with fq := x.fq ++ [i] }

/-- The fabric queue has room (R237). -/
def fabRoom (s : State) : Check := need (s.myTile.fabCount < 16 || s.fabPops s.bun.tile) (.block .fabricQueue)

/-- The control words of the executing bundle. -/
def State.onBun (s : State) (f : Bundle → Bundle) : State := { s with bun := f s.bun }

end Sys2Proof.Machine
end

