-- ==== Sys2Proof/Machine/Operands.lean ====
section
/-! DEFINITION. Operand forms: long immediates (R28), displacements, lanes of vector registers (R166) and masks (R167),
registers and flags as words. -/
namespace Sys2Proof.Machine

/-- A field with its L words: the combined width and value (R28). -/
def joinExt (w f : Nat) : List LWord → Nat × Nat
  | [] => (w, f)
  | x :: l => joinExt (w + 27) (f + x.toNat * 2 ^ w) l

/-- A signed immediate with its L words (Table WRD-4). -/
def imm {w : Nat} (f : BitVec w) (ext : List LWord) : DWord := let c := joinExt w f.toNat ext; sext c.1 c.2

/-- The byte offset of VLD and VST: its L word, or 0 (Table WRD-4). -/
def offsetExt : List LWord → DWord
  | [] => 0
  | x :: _ => x.signExtend 64

/-- A word index from a displacement of the executing bundle (R21). -/
def State.disp {w : Nat} (s : State) (d : BitVec w) : Word := s.bun.first + d.signExtend 32

/-- Lane i of width w (R166). -/
def laneAt {n : Nat} (w : Nat) (x : BitVec n) (i : Nat) : BitVec w := x.extractLsb' (w * i) w

/-- Lanes, lane 0 first, as a register. -/
def ofLanes (w : Nat) : List (BitVec w) → Nat
  | [] => 0
  | x :: l => x.toNat + 2 ^ w * ofLanes w l

/-- A register whose lane i is f i, for i below n; lanes from n on are zero. -/
def buildV (w n : Nat) (f : Nat → BitVec w) : VWord := BitVec.ofNat 4096 (ofLanes w ((List.range n).map f))

/-- A register with the active lanes replaced (R167). -/
def maskedV (w : Nat) (old : VWord) (m : MWord) (f : Nat → BitVec w) : VWord :=
  buildV w (4096 / w) fun i => if m.getLsbD i then f i else laneAt w old i

/-- A mask from the tests of its first n lanes; the others are zero. -/
def buildM (n : Nat) (f : Nat → Bool) : MWord :=
  BitVec.ofNat 1024 (ofLanes 1 ((List.range n).map fun i => if f i then 1#1 else 0#1))

/-- EFR.V as a word (Table NUM-9). -/
def efrV (m : FmtV) (f : Flags) : DWord :=
  BitVec.ofNat 64 (packLow [(1, f.nv.toNat), (1, f.dz.toNat), (1, f.ov.toNat), (1, f.uf.toNat), (1, f.nx.toNat),
    (1, f.cl.toNat), (4, 0), (2, m.rm.toNat), (2, m.l8f.toNat), (2, m.l4f.toNat)])

/-- EFR.A as a word (Table NUM-8). -/
def efrA (m : FmtA) (f : EngFlags) : DWord :=
  BitVec.ofNat 64 (packLow [(1, f.nv.toNat), (1, f.ov.toNat), (1, f.cl.toNat), (8, 0), (2, m.sp.toNat),
    (2, m.nsub.toNat), (1, m.ws.toNat), (2, m.wf.toNat), (1, m.ww.toNat), (1, m.sgn.toNat), (2, m.af.toNat),
    (1, m.aw.toNat)])

/-- LOOPkSE and LOOPkCT as words (Table COR-9). -/
def loopSE (l : Loop) : DWord := l.stop ++ l.start
/-- LOOPkCT. -/
def loopCT (l : Loop) : DWord := BitVec.ofNat 64 (packLow [(32, l.count.toNat), (30, 0), (1, l.nest.toNat), (1, l.act.toNat)])

/-- EFR.A's format fields from word bits [22:11]. -/
def fmtAOf (b : BitVec 12) : FmtA :=
  ⟨b.getLsbD 11, b.extractLsb' 9 2, b.getLsbD 8, b.getLsbD 7, b.extractLsb' 5 2, b.getLsbD 4, b.extractLsb' 2 2,
    b.extractLsb' 0 2⟩

end Sys2Proof.Machine
end

