-- ==== Sys2Proof/Machine/Flags.lean ====
section
/-! DEFINITION. Flags (R66, R67): how they join, and how a write of one to a W1C bit clears it. -/
namespace Sys2Proof.Machine

/-- The union of two sets of flags. -/
def Flags.or (a b : Flags) : Flags :=
  ⟨a.cl || b.cl, a.nx || b.nx, a.uf || b.uf, a.ov || b.ov, a.dz || b.dz, a.nv || b.nv⟩

/-- The union over a list. -/
def Flags.all (l : List Flags) : Flags := l.foldl Flags.or .zero

/-- NV alone. -/
def Flags.invalid : Flags := { Flags.zero with nv := true }
/-- NX alone. -/
def Flags.inexact : Flags := { Flags.zero with nx := true }
/-- CL alone. -/
def Flags.clamp : Flags := { Flags.zero with cl := true }
/-- DZ alone. -/
def Flags.divZero : Flags := { Flags.zero with dz := true }

/-- Clear the flags whose bit of an EFR.V write is 1 (Table NUM-9, R7). -/
def Flags.clear (f : Flags) (w : DWord) : Flags :=
  ⟨f.cl && !w.getLsbD 5, f.nx && !w.getLsbD 4, f.uf && !w.getLsbD 3, f.ov && !w.getLsbD 2, f.dz && !w.getLsbD 1,
    f.nv && !w.getLsbD 0⟩

/-- The union of two sets of engine flags. -/
def EngFlags.or (a b : EngFlags) : EngFlags := ⟨a.cl || b.cl, a.ov || b.ov, a.nv || b.nv⟩

/-- Clear the flags whose bit of an EFR.A write is 1 (Table NUM-8). -/
def EngFlags.clear (f : EngFlags) (w : DWord) : EngFlags :=
  ⟨f.cl && !w.getLsbD 2, f.ov && !w.getLsbD 1, f.nv && !w.getLsbD 0⟩

end Sys2Proof.Machine
end

