-- ==== Sys2Proof/Machine/Float.lean ====
section
/-! DEFINITION. FP32 and BF16 (03_numbers R49, R50), exactly: a finite number is a signed natural times a power of two, and
every result is the exact one rounded once. Irrational results are held as the floor of a long binary expansion with a
sticky mark (log 18). `p` is the number of significand bits, 24 for FP32 and 8 for BF16. -/
namespace Sys2Proof.Machine

/-- A floating-point datum: NaN, signalling or quiet; an infinity; a finite number (-1)^neg * m * 2^e. -/
inductive Fp where
  | nan (signalling : Bool)
  | inf (neg : Bool)
  | fin (neg : Bool) (m : Nat) (e : Int)
  deriving DecidableEq, Repr

/-- A result with the flags it raises. -/
abbrev Flagged (α : Type) := α × Flags

/-- Significand bits of a floating-point type. -/
def precOf : VType → Nat
  | .f32 => 24
  | _ => 8

/-- Read a code of the format of precision p (R49). -/
def fpRead (p x : Nat) : Fp :=
  let frac := x % 2 ^ (p - 1)
  let ex := x / 2 ^ (p - 1) % 256
  let neg := x / 2 ^ (p + 7) % 2 == 1
  if ex = 255 then (if frac = 0 then .inf neg else .nan (frac < 2 ^ (p - 2)))
  else if ex = 0 then .fin neg frac (-125 - (p : Int))
  else .fin neg (frac + 2 ^ (p - 1)) ((ex : Int) - 126 - p)

/-- The sign bit of a code. -/
def fpSign (p : Nat) (neg : Bool) : Nat := if neg then 2 ^ (p + 7) else 0
/-- The default NaN (R50). -/
def fpNaN (p : Nat) : Nat := 511 * 2 ^ (p - 2)
/-- An infinity. -/
def fpInf (p : Nat) (neg : Bool) : Nat := fpSign p neg + 255 * 2 ^ (p - 1)
/-- A zero. -/
def fpZero (p : Nat) (neg : Bool) : Nat := fpSign p neg
/-- The largest finite magnitude. -/
def fpMax (p : Nat) (neg : Bool) : Nat := fpSign p neg + (255 * 2 ^ (p - 1) - 1)

/-- Whether a magnitude between two neighbours rounds away from zero: `rem` and `half` place it, `sticky` says that it
lies a little higher than `rem` says. -/
def roundsUp (rm : Rnd) (neg odd : Bool) (rem half : Nat) (sticky : Bool) : Bool :=
  match rm with
  | .rne => half < rem || (rem == half && (sticky || odd))
  | .rtz => false
  | .rdn => neg && (rem != 0 || sticky)
  | .rup => !neg && (rem != 0 || sticky)

/-- Round m * 2^e, a little more when sticky, to a multiple of 2^q: the multiple, and whether it is inexact. -/
def roundAt (rm : Rnd) (neg : Bool) (m : Nat) (e q : Int) (sticky : Bool) : Nat × Bool :=
  if q ≤ e then (m * 2 ^ (e - q).toNat, sticky)
  else
    let sh := (q - e).toNat
    let sig := m / 2 ^ sh
    let rem := m % 2 ^ sh
    (if roundsUp rm neg (sig % 2 == 1) rem (2 ^ (sh - 1)) sticky then sig + 1 else sig, rem != 0 || sticky)

/-- Bits of a natural. -/
def bitLen (m : Nat) : Nat := if m = 0 then 0 else m.log2 + 1

/-- Round a nonzero magnitude m * 2^e, a little more when sticky, into the format (R50): tininess is detected after
rounding. A sticky m has more than p + 1 bits. -/
def fpRound (p : Nat) (rm : Rnd) (neg : Bool) (m : Nat) (e : Int) (sticky : Bool) : Flagged Nat :=
  let free : Int := e + bitLen m - p
  let low : Int := -125 - p
  let q := max free low
  let (sig, inexact) := roundAt rm neg m e q sticky
  let (q, sig) := if sig = 2 ^ p then (q + 1, sig / 2) else (q, sig)
  let un := (roundAt rm neg m e free sticky).1
  let tiny : Bool := free + bitLen un ≤ -126
  if q + p > 128 then
    let away := match rm with | .rne => true | .rtz => false | .rdn => neg | .rup => !neg
    (if away then fpInf p neg else fpMax p neg, { Flags.zero with ov := true, nx := true })
  else
    let code := if sig < 2 ^ (p - 1) then sig else ((q + p + 125).toNat) * 2 ^ (p - 1) + sig
    (fpSign p neg + code, { Flags.zero with nx := inexact, uf := inexact && tiny })

/-- Round an exact integer times a power of two; an exact zero takes the sign given. -/
def fpExact (p : Nat) (rm : Rnd) (zeroNeg : Bool) (x : Int) (e : Int) : Flagged Nat :=
  if x = 0 then (fpZero p zeroNeg, .zero) else fpRound p rm (x < 0) x.natAbs e false

/-- NV when some operand is a signalling NaN (R50). -/
def fpSig (l : List Fp) : Flags := if l.any (fun x => x == .nan true) then .invalid else .zero
/-- Whether a datum is a NaN. -/
def Fp.isNaN : Fp → Bool | .nan _ => true | _ => false
/-- A signed magnitude. -/
def signed (neg : Bool) (m : Nat) : Int := if neg then -(m : Int) else m
/-- A default NaN for an invalid operation. -/
def fpInvalid (p : Nat) : Flagged Nat := (fpNaN p, .invalid)

/-- x + y exactly, then rounded (R173); the sign of an exact zero sum is that of the operands when they agree, else
negative only under RDN. -/
def fpSum (p : Nat) (rm : Rnd) (x y : Fp) : Flagged Nat :=
  match x, y with
  | .nan _, _ | _, .nan _ => (fpNaN p, fpSig [x, y])
  | .inf a, .inf b => if a = b then (fpInf p a, .zero) else fpInvalid p
  | .inf a, .fin .. => (fpInf p a, .zero)
  | .fin .., .inf b => (fpInf p b, .zero)
  | .fin a m e, .fin b n f =>
    let g := min e f
    fpExact p rm (if m = 0 ∧ n = 0 ∧ a = b then a else rm == .rdn)
      (signed a (m * 2 ^ (e - g).toNat) + signed b (n * 2 ^ (f - g).toNat)) g

/-- VFADD (R173). -/
def fpAdd (p : Nat) (rm : Rnd) (a b : Nat) : Flagged Nat := fpSum p rm (fpRead p a) (fpRead p b)

/-- A datum with its sign inverted. -/
def Fp.neg : Fp → Fp
  | .nan s => .nan s
  | .inf a => .inf !a
  | .fin a m e => .fin (!a) m e

/-- VFSUB (R173). -/
def fpSub (p : Nat) (rm : Rnd) (a b : Nat) : Flagged Nat := fpSum p rm (fpRead p a) (fpRead p b).neg

/-- The exact product; `none` for infinity times zero. -/
def Fp.mul : Fp → Fp → Option Fp
  | .nan s, _ => some (.nan s)
  | _, .nan s => some (.nan s)
  | .inf a, .inf b => some (.inf (a != b))
  | .inf a, .fin b m _ => if m = 0 then none else some (.inf (a != b))
  | .fin a m _, .inf b => if m = 0 then none else some (.inf (a != b))
  | .fin a m e, .fin b n f => some (.fin (a != b) (m * n) (e + f))

/-- VFMUL (R173). -/
def fpMul (p : Nat) (rm : Rnd) (a b : Nat) : Flagged Nat :=
  let x := fpRead p a
  let y := fpRead p b
  if x.isNaN || y.isNaN then (fpNaN p, fpSig [x, y])
  else match x.mul y with
    | none => fpInvalid p
    | some (.fin s m e) => fpExact p rm s (signed s m) e
    | some (.inf s) => (fpInf p s, .zero)
    | some (.nan _) => fpInvalid p

/-- VFMA: a * b + d, rounded once; infinity times zero is invalid whatever the addend (R173). -/
def fpFma (p : Nat) (rm : Rnd) (a b d : Nat) : Flagged Nat :=
  let x := fpRead p a
  let y := fpRead p b
  let z := fpRead p d
  if x.isNaN || y.isNaN then (fpNaN p, fpSig [x, y, z])
  else match x.mul y with
    | none => fpInvalid p
    | some v => fpSum p rm v z

/-- The value of two ordered data, as an order: infinities beyond every finite number, the zeros equal. -/
def Fp.ord : Fp → Int × Int
  | .nan _ => (0, 0)
  | .inf a => (if a then -1 else 1, 0)
  | .fin a m e => (0, signed a (m * 2 ^ (e + 149).toNat))

/-- x < y for data that are no NaN. -/
def Fp.lt (x y : Fp) : Bool := x.ord.1 < y.ord.1 || (x.ord.1 == y.ord.1 && x.ord.2 < y.ord.2)
/-- x = y for data that are no NaN; the zeros are equal. -/
def Fp.eq (x y : Fp) : Bool := x.ord == y.ord

/-- Smaller by value, and -0 below +0 (R174), on codes that are no NaN. -/
def fpLess (p a b : Nat) : Bool :=
  (fpRead p a).lt (fpRead p b) || ((fpRead p a).eq (fpRead p b) && a / 2 ^ (p + 7) == 1)

/-- VFMIN, or VFMAX (R174). -/
def fpPick (p : Nat) (max : Bool) (a b : Nat) : Flagged Nat :=
  let x := fpRead p a
  let y := fpRead p b
  if x.isNaN || y.isNaN then (fpNaN p, fpSig [x, y])
  else (if fpLess p a b != max then a else b, .zero)

/-- VFABS and VFNEG (R174). -/
def fpSignOp (p : Nat) (f : Nat → Nat) (a : Nat) : Flagged Nat :=
  let x := fpRead p a
  if x.isNaN then (fpNaN p, fpSig [x]) else (f a, .zero)

/-- The code with its sign bit clear. -/
def fpAbs (p : Nat) : Nat → Flagged Nat := fpSignOp p fun a => a % 2 ^ (p + 7)
/-- The code with its sign bit inverted. -/
def fpNeg (p : Nat) : Nat → Flagged Nat := fpSignOp p fun a => (a + 2 ^ (p + 7)) % 2 ^ (p + 8)

/-! ### Roots, powers and logarithms -/

/-- Digits of a square root, from the bit `n` downwards. -/
def isqrtFrom (x : Nat) : Nat → Nat → Nat
  | 0, r => if (r + 1) * (r + 1) ≤ x then r + 1 else r
  | n + 1, r =>
    let r' := r + 2 ^ (n + 1)
    isqrtFrom x n (if r' * r' ≤ x then r' else r)

/-- The integer square root. -/
def isqrt (x : Nat) : Nat := isqrtFrom x (bitLen x / 2 + 1) 0

/-- Bits that expansions keep. -/
def expBits : Nat := 256

/-- A lower bound of 2^(f / 2^n) * 2^expBits: the product over the bits of f of the repeated square roots of two; `r` is
the next root, `acc` the product so far. -/
def exp2Prod (f : Nat) : Nat → Nat → Nat → Nat
  | 0, _, acc => acc
  | n + 1, r, acc =>
    let r' := isqrt (r * 2 ^ expBits)
    exp2Prod f n r' (if f / 2 ^ n % 2 = 1 then acc * r' / 2 ^ expBits else acc)

/-- 2^(f / 2^n) * 2^expBits for 0 < f < 2^n, from below, at least 2^expBits. -/
def exp2Frac (f n : Nat) : Nat := max (2 ^ expBits) (exp2Prod f n (2 ^ (expBits + 1)) (2 ^ expBits))

/-- Digits of log2 y for 1 ≤ y < 2 held as y * 2^expBits, by repeated squaring. -/
def log2Digits : Nat → Nat → Nat → Nat
  | 0, _, acc => acc
  | n + 1, y, acc =>
    let z := y * y / 2 ^ expBits
    if z < 2 ^ (expBits + 1) then log2Digits n z (2 * acc) else log2Digits n (z / 2) (2 * acc + 1)

/-- floor (log2 m * 2^n) for m > 0. -/
def log2Floor (m n : Nat) : Nat :=
  m.log2 * 2 ^ n + log2Digits n (m * 2 ^ expBits / 2 ^ m.log2) 0

/-- Whether a natural is a power of two. -/
def isPow2 (m : Nat) : Bool := m == 2 ^ m.log2

/-- VFRCP (R175, Table VEC-5). -/
def fpRcp (p : Nat) (rm : Rnd) (a : Nat) : Flagged Nat :=
  match fpRead p a with
  | .nan s => (fpNaN p, fpSig [.nan s])
  | .inf s => (fpZero p s, .zero)
  | .fin s m e =>
    if m = 0 then (fpInf p s, .divZero)
    else fpRound p rm s (2 ^ 128 / m) (-128 - e) (2 ^ 128 % m != 0)

/-- VFRSQ (R175, Table VEC-5). -/
def fpRsq (p : Nat) (rm : Rnd) (a : Nat) : Flagged Nat :=
  match fpRead p a with
  | .nan s => (fpNaN p, fpSig [.nan s])
  | .inf s => if s then fpInvalid p else (fpZero p false, .zero)
  | .fin s m e =>
    if m = 0 then (fpInf p s, .zero)
    else if s then fpInvalid p
    else
      let (m, e) := if e % 2 = 0 then (m, e) else (2 * m, e - 1)
      let r := isqrt (2 ^ 256 / m)
      fpRound p rm false r (-128 - e / 2) (r * r * m != 2 ^ 256)

/-- 2^x rounded, for x = (-1)^neg m 2^e (R175): exact for integers. -/
def fpPow2 (p : Nat) (rm : Rnd) (neg : Bool) (m : Nat) (e : Int) : Flagged Nat :=
  let big : Bool := m != 0 && e + bitLen m > 12
  if big then fpRound p rm false (2 ^ 64) (if neg then -1000 else 1000) true
  else if 0 ≤ e then fpRound p rm false 1 (signed neg (m * 2 ^ e.toNat)) false
  else
    let n := (-e).toNat
    let x := signed neg m
    let w := x / 2 ^ n
    let f := (x - w * 2 ^ n).toNat
    if f = 0 then fpRound p rm false 1 w false
    else fpRound p rm false (exp2Frac f n / 2 ^ 64) (w - (expBits - 64 : Nat)) true

/-- VFEXP2 (R175, Table VEC-5). -/
def fpExp2 (p : Nat) (rm : Rnd) (a : Nat) : Flagged Nat :=
  match fpRead p a with
  | .nan s => (fpNaN p, fpSig [.nan s])
  | .inf s => (if s then fpZero p false else fpInf p false, .zero)
  | .fin s m e => fpPow2 p rm s m e

/-- Fraction bits of a binary logarithm. -/
def logBits : Nat := 120

/-- VFLOG2 (R175, Table VEC-5). -/
def fpLog2 (p : Nat) (rm : Rnd) (a : Nat) : Flagged Nat :=
  match fpRead p a with
  | .nan s => (fpNaN p, fpSig [.nan s])
  | .inf s => if s then fpInvalid p else (fpInf p false, .zero)
  | .fin s m e =>
    if m = 0 then (fpInf p true, .divZero)
    else if s then fpInvalid p
    else if isPow2 m then fpExact p rm false ((m.log2 : Int) + e) 0
    else
      let x : Int := log2Floor m logBits + e * 2 ^ logBits
      if 0 ≤ x then fpRound p rm false (x.natAbs * 2 ^ 64) (-(logBits : Int) - 64) true
      else fpRound p rm true ((x.natAbs * 2 ^ 64) - 1) (-(logBits : Int) - 64) true

/-! ### Integers -/

/-- An integer to floating point (Table NUM-6). -/
def fpOfInt (p : Nat) (rm : Rnd) (x : Int) : Flagged Nat := fpExact p rm false x 0

/-- Saturate a rounded integer into w bits: NV out of range, NX when inexact and in range (Table NUM-6). -/
def satInt (w : Nat) (x : Int) (inexact : Bool) : Flagged Nat :=
  if x < -(2 ^ (w - 1) : Int) then (2 ^ (w - 1), .invalid)
  else if (2 ^ (w - 1) : Int) ≤ x then (2 ^ (w - 1) - 1, .invalid)
  else ((x % 2 ^ w).toNat, { Flags.zero with nx := inexact })

/-- Round a magnitude to an integer and saturate. -/
def intOfMag (w : Nat) (rm : Rnd) (neg : Bool) (m : Nat) (e : Int) (sticky : Bool) : Flagged Nat :=
  let r := roundAt rm neg m e 0 sticky
  satInt w (signed neg r.1) r.2

/-- Floating point to a w-bit integer (Table NUM-6). -/
def intOfFp (p w : Nat) (rm : Rnd) (a : Nat) : Flagged Nat :=
  match fpRead p a with
  | .nan _ => (0, .invalid)
  | .inf s => (if s then 2 ^ (w - 1) else 2 ^ (w - 1) - 1, .invalid)
  | .fin s m e => intOfMag w rm s m e false

/-- Between the floating-point formats (Table NUM-6). -/
def fpOfFp (p p' : Nat) (rm : Rnd) (a : Nat) : Flagged Nat :=
  match fpRead p a with
  | .nan s => (fpNaN p', fpSig [.nan s])
  | .inf s => (fpInf p' s, .zero)
  | .fin s m e => fpExact p' rm s (signed s m) e

end Sys2Proof.Machine
end

