-- ==== Sys2Proof/Machine/LogNum.lean ====
section
/-! DEFINITION. Logarithmic codes and SX32 scales (03_numbers R51 to R54, R61 to R65): readings, rounding into a code, the
conversions of Table NUM-6, block quantisation. -/
namespace Sys2Proof.Machine

/-- A reading of a log code (Table NUM-1): its bits, its steps per octave as a power of two, signed or not. -/
structure LogFmt where
  bits : Nat
  F    : Nat
  sgn  : Bool
  deriving DecidableEq, Repr

/-- The bias of a reading. -/
def LogFmt.bias (f : LogFmt) : Nat := if f.sgn then 2 ^ (f.bits - 2) else 2 ^ (f.bits - 1)
/-- The largest m of a nonzero code. -/
def LogFmt.mmax (f : LogFmt) : Nat := if f.sgn then 2 ^ (f.bits - 1) - 1 else 2 ^ f.bits - 2
/-- The NaR code. -/
def LogFmt.nar (f : LogFmt) : Nat := if f.sgn then 2 ^ (f.bits - 1) else 2 ^ f.bits - 1
/-- The sign of a code. -/
def LogFmt.neg (f : LogFmt) (c : Nat) : Bool := f.sgn && c / 2 ^ (f.bits - 1) % 2 == 1
/-- The biased exponent of a code. -/
def LogFmt.m (f : LogFmt) (c : Nat) : Nat := if f.sgn then c % 2 ^ (f.bits - 1) else c
/-- The exponent of a code, in units of 2^-F. -/
def LogFmt.e (f : LogFmt) (c : Nat) : Int := (f.m c : Int) - f.bias
/-- The code of a sign and a biased exponent in range. -/
def LogFmt.code (f : LogFmt) (neg : Bool) (m : Nat) : Nat := if f.sgn && neg then 2 ^ (f.bits - 1) + m else m

/-- F of a code field (R52). -/
def logF (bits : Nat) (code : BitVec 2) : Nat := if bits = 4 then code.toNat else code.toNat + 2

/-- The reading of the vector types l4 and l8 (R63). -/
def FmtV.log (v : FmtV) (t : VType) : LogFmt :=
  if t = .l4 then ⟨4, logF 4 v.l4f, true⟩ else ⟨8, logF 8 v.l8f, true⟩

/-- The code of an exponent, clamped into the nonzero range with CL (R62). -/
def LogFmt.clamp (f : LogFmt) (neg : Bool) (e : Int) : Flagged Nat :=
  let m := e + f.bias
  if m < 1 then (f.code neg 1, .clamp)
  else if (f.mmax : Int) < m then (f.code neg f.mmax, .clamp)
  else (f.code neg m.toNat, .zero)

/-- Round x / 2^k, a little more when sticky, to an exponent (R62): RTZ takes the smaller magnitude of value, RDN and RUP
go by the signed value. -/
def roundExp (rm : Rnd) (neg : Bool) (x : Int) (k : Nat) (sticky : Bool) : Int :=
  let fl := x / 2 ^ k
  let rem := (x % 2 ^ k).toNat
  let more : Bool := rem != 0 || sticky
  let up : Bool := match rm with
    | .rne => 2 ^ k < 2 * rem || (2 * rem == 2 ^ k && (sticky || fl % 2 == 1))
    | .rtz => false
    | .rdn => neg && more
    | .rup => !neg && more
  if up then fl + 1 else fl

/-- floor (2^(F+1) log2 (m 2^e)), from an exact power. -/
def log2Half (F m : Nat) (e : Int) : Int := ((m ^ 2 ^ (F + 1)).log2 : Int) + e * 2 ^ (F + 1)

/-- A magnitude m * 2^e, less `off` units of 2^-F, as a code (R62, R64). -/
def LogFmt.ofMag (f : LogFmt) (rm : Rnd) (neg : Bool) (m : Nat) (e off : Int) : Flagged Nat :=
  f.clamp neg (roundExp rm neg (log2Half f.F m e) 1 (!isPow2 m) - off)

/-- A floating-point code as a log code (Table NUM-6, R64). -/
def LogFmt.ofFp (f : LogFmt) (p : Nat) (rm : Rnd) (off : Int) (a : Nat) : Flagged Nat :=
  match fpRead p a with
  | .nan _ | .inf _ => (f.nar, .invalid)
  | .fin s m e => if m = 0 then (0, .zero) else f.ofMag rm s m e off

/-- An integer as a log code (Table NUM-6). -/
def LogFmt.ofInt (f : LogFmt) (rm : Rnd) (x : Int) : Flagged Nat :=
  if x = 0 then (0, .zero) else f.ofMag rm (x < 0) x.natAbs 0 0

/-- A log code of another reading as a code (Table NUM-6). -/
def LogFmt.ofLog (f g : LogFmt) (rm : Rnd) (c : Nat) : Flagged Nat :=
  if c = 0 then (0, .zero)
  else if c = g.nar then (f.nar, .zero)
  else f.clamp (g.neg c) (roundExp rm (g.neg c) (g.e c * 2 ^ f.F) g.F false)

/-- 2^(n / 65536) as a magnitude: bits, exponent, and whether it lies a little higher. -/
def pow2Of (n : Int) : Nat × Int × Bool :=
  let w := n / 65536
  let r := (n % 65536).toNat
  if r = 0 then (1, w, false) else (exp2Frac r 16 / 2 ^ 64, w - (expBits - 64 : Nat), true)

/-- The magnitude of a code under a scale s (R64). -/
def LogFmt.mag (f : LogFmt) (s : Int) (c : Nat) : Nat × Int × Bool := pow2Of (f.e c * 2 ^ (16 - f.F) + s)

/-- A log code times 2^(s / 65536) as a floating-point code (Table NUM-6, R64). -/
def LogFmt.toFp (f : LogFmt) (p : Nat) (rm : Rnd) (s : Int) (c : Nat) : Flagged Nat :=
  if c = 0 then (fpZero p false, .zero)
  else if c = f.nar then (fpNaN p, .zero)
  else let v := f.mag s c; fpRound p rm (f.neg c) v.1 v.2.1 v.2.2

/-- A log code as a w-bit integer (Table NUM-6). -/
def LogFmt.toInt (f : LogFmt) (w : Nat) (rm : Rnd) (c : Nat) : Flagged Nat :=
  if c = 0 then (0, .zero)
  else if c = f.nar then (0, .invalid)
  else let v := f.mag 0 c; intOfMag w rm (f.neg c) v.1 v.2.1 v.2.2

/-- The zero scale (R53). -/
def zeroScale : Word := 0x80000000

/-- An SX32 scale in units of 2^-F (R54). -/
def roundScale (s : Word) (F : Nat) : Int := roundExp .rne false s.toInt (16 - F) false

/-- Dequantisation of a code (R64, R190). -/
def LogFmt.dequantise (f : LogFmt) (p : Nat) (s : Word) (c : Nat) : Flagged Nat :=
  if s = zeroScale then (if c = f.nar then fpNaN p else fpZero p false, .zero) else f.toFp p .rne s.toInt c

/-- The largest finite magnitude of a block, as m * 2^e; (0, 0) when every finite element is zero (R189). -/
def largest (p : Nat) (l : List Nat) : Nat × Int :=
  l.foldl (fun acc a => match fpRead p a with
    | .fin _ m e => if acc.1 * 2 ^ (acc.2 + 149).toNat < m * 2 ^ (e + 149).toNat then (m, e) else acc
    | _ => acc) (0, 0)

/-- The exponent and the scale of a block (R189): `none` for the zero scale. -/
def LogFmt.blockExp (f : LogFmt) (p : Nat) (l : List Nat) : Option Int :=
  let M := largest p l
  if M.1 = 0 then none
  else
    let h := log2Half f.F M.1 M.2
    some ((if isPow2 M.1 then h / 2 else h / 2 + 1) - ((f.mmax : Int) - f.bias))

/-- The SX32 scale of a block. -/
def LogFmt.blockScale (f : LogFmt) (x : Option Int) : Word :=
  match x with | none => zeroScale | some e => BitVec.ofInt 32 (e * 2 ^ (16 - f.F))

/-- Quantisation of an element under its block's scale (R64): under the zero scale every finite element is the zero
code. -/
def LogFmt.quantise (f : LogFmt) (p : Nat) (x : Option Int) (a : Nat) : Flagged Nat :=
  match x with
  | some off => f.ofFp p .rne off a
  | none => match fpRead p a with
    | .fin .. => (0, .zero)
    | _ => (f.nar, .invalid)

/-- VLMUL (R176). -/
def LogFmt.mul (f : LogFmt) (a b : Nat) : Flagged Nat :=
  if a = f.nar ∨ b = f.nar then (f.nar, .invalid)
  else if a = 0 ∨ b = 0 then (0, .zero)
  else f.clamp (f.neg a != f.neg b) (f.e a + f.e b)

/-- VLRCP (R176). -/
def LogFmt.rcp (f : LogFmt) (a : Nat) : Flagged Nat :=
  if a = f.nar ∨ a = 0 then (f.nar, .invalid) else (f.code (f.neg a) (2 * f.bias - f.m a), .zero)

/-- The value of a code as an order (R177). -/
def LogFmt.ord (f : LogFmt) (c : Nat) : Int :=
  if c = 0 then 0 else if f.neg c then -(f.m c : Int) else f.m c

/-- Conversions between two types (R188, Table NUM-6). -/
def convLane (v : FmtV) (src dst : VType) (rm : Rnd) (x : Nat) : Flagged Nat :=
  let i : Int := (BitVec.ofNat src.width x).toInt
  if src.isInt then
    if dst.isInt then
      if src.width ≤ dst.width then ((i % 2 ^ dst.width).toNat, .zero)
      else
        let r := satInt dst.width i false
        (r.1, if r.2.nv then .clamp else .zero)
    else if dst.isFp then fpOfInt (precOf dst) rm i
    else (v.log dst).ofInt rm i
  else if src.isFp then
    if dst.isInt then intOfFp (precOf src) dst.width rm x
    else if dst.isFp then fpOfFp (precOf src) (precOf dst) rm x
    else (v.log dst).ofFp (precOf src) rm 0 x
  else
    if dst.isInt then (v.log src).toInt dst.width rm x
    else if dst.isFp then (v.log src).toFp (precOf dst) rm 0 x
    else (v.log dst).ofLog (v.log src) rm x

end Sys2Proof.Machine
end

