-- ==== Sys2Proof/Machine/Array.lean ====
section
/-! DEFINITION. The array (09_array R192 to R211) and classes A and K: formats, staging and its checks, product terms
(03_numbers R57), the commands and their beats. -/
namespace Sys2Proof.Machine

/-! ### Formats and sizes -/

/-- The activation reading of a format (Table NUM-8). -/
def FmtA.act (f : FmtA) : LogFmt := let b := if f.aw then 4 else 8; ⟨b, logF b f.af, f.sgn⟩
/-- The record that WLD makes of a format (R69). -/
def FmtA.record (f : FmtA) : BankRec := ⟨f.ww, f.wf, f.ws, f.sp⟩
/-- The weight reading of a record (R69). -/
def BankRec.wgt (r : BankRec) : LogFmt := let b := if r.ww then 4 else 8; ⟨b, logF b r.wf, r.ws⟩
/-- Weights per cell (R194). -/
def BankRec.wpc (r : BankRec) : Nat := if r.ww then 2 else 1
/-- Kept weights of each eight positions; 0 for a dense bank (R194). -/
def BankRec.kept (r : BankRec) : Nat := if r.sp = 0 then 0 else if r.sp = 3 then 4 else 2
/-- The logical K of a bank (Table ARR-2). -/
def BankRec.logicalK (r : BankRec) : Nat := if r.kept = 0 then 96 * r.wpc else 96 * r.wpc * 8 / r.kept
/-- Bytes of an activation row (Table ARR-2). -/
def actBytes (f : FmtA) (r : BankRec) : Nat := if f.aw then r.logicalK / 2 else r.logicalK
/-- Bytes of a master row (Table ARR-2). -/
def masterBytes (r : BankRec) : Nat := 192 * r.wpc
/-- Bytes of an index row (Table ARR-2). -/
def indexBytes (r : BankRec) : Nat := if r.sp = 0 then 0 else 96 * r.wpc
/-- Bytes of an output row (R197). -/
def outBytes (f : FmtA) : DrnFmt → Nat | .f32 => 384 | .bf16 => 192 | .log => if f.aw then 48 else 96

/-- The record's bits in ASTA and in the save area: WW, WF, WS, SP, high to low (Table ARR-5). -/
def BankRec.bits (r : BankRec) : Nat := packLow [(2, r.sp.toNat), (1, r.ws.toNat), (2, r.wf.toNat), (1, r.ww.toNat)]

/-! ### Latches -/

/-- The value of a latch at a cc (R195). -/
def Latch.at (l : Latch) (cc : Nat) : Word := l.log.foldl (fun a w => if w.1 ≤ cc then w.2 else a) l.base
/-- A write that governs from a cc (R195); writes that already govern are folded into the base. -/
def Latch.set (l : Latch) (now eff : Nat) (v : Word) : Latch := ⟨l.at now, (l.log.filter fun w => now < w.1) ++ [(eff, v)]⟩
/-- The latest write: what a row that enters three cc from now uses (R195). -/
def Latch.last (l : Latch) : Word := (l.log.getLast?.map (·.2)).getD l.base

/-- The column latch of a column. -/
def Tile.col (x : Tile) (c : Nat) : Latch := SMap.get Latch.zero x.colL c
/-- The array staging set that array words read: the lead's in a panel (R38, R196). -/
def State.arrStg (s : State) : Vector DWord 8 := s.bun.stg.getD s.myTile.a
/-- Low and high halves of a staging register. -/
def lo32 (w : DWord) : Nat := (w.extractLsb' 0 32).toNat
/-- The high half. -/
def hi32 (w : DWord) : Nat := (w.extractLsb' 32 32).toNat

/-! ### Terms, masters, outputs -/

/-- The fractional-power table T (Table NUM-4). -/
def powerT (k : Nat) : Nat :=
  [524288, 547500, 571740, 597053, 623487, 651091, 679917, 710020, 741455, 774282, 808563, 844361, 881744, 920834,
   961548, 1004120].getD k 0

/-- What a term yields (R57): its value, its flags, and whether it met NaR under NSUB = 3. -/
structure Term where
  val : Int
  fl  : EngFlags
  nar : Bool
  deriving DecidableEq, Repr

/-- The product term (R57). -/
def productTerm (fa : LogFmt) (a : Nat) (fw : LogFmt) (w : Nat) (sa sw : Word) (nsub : BitVec 2) : Term :=
  let z : Bool := a == 0 || w == 0 || sa == zeroScale || sw == zeroScale
  let big : Int := 2 ^ 62 - 1
  if a = fa.nar ∨ w = fw.nar then
    let nv : EngFlags := { EngFlags.zero with nv := true }
    if z || nsub = 0 then ⟨0, nv, false⟩
    else if nsub = 1 then ⟨big, nv, false⟩
    else if nsub = 2 then ⟨-big, nv, false⟩
    else ⟨0, nv, true⟩
  else if z then ⟨0, .zero, false⟩
  else
    let F := max fa.F fw.F
    let P := fa.e a * 2 ^ (F - fa.F) + fw.e w * 2 ^ (F - fw.F) + roundScale sa F + roundScale sw F
    let i := P / 2 ^ F
    let k := (P - i * 2 ^ F).toNat * (16 / 2 ^ F)
    let sh := i + 11
    let mag : Nat := if 43 < sh then 2 ^ 62 - 1 else if 0 ≤ sh then powerT k * 2 ^ sh.toNat else powerT k / 2 ^ (-sh).toNat
    ⟨signed (fa.neg a != fw.neg w) mag, { EngFlags.zero with ov := 43 < sh }, false⟩

/-- Weight-load rounding (R61). -/
def weightRound (w16 : Nat) (f : LogFmt) (sw : Word) : Nat × EngFlags :=
  let cl : EngFlags := { EngFlags.zero with cl := true }
  if w16 = 0x8000 then (f.nar, { EngFlags.zero with nv := true })
  else if w16 = 0 ∨ sw = zeroScale then (0, .zero)
  else if !f.sgn ∧ 0x8000 ≤ w16 then (0, cl)
  else
    let N : Int := ((w16 % 0x8000 : Nat) - 16384 : Int) * 256 - sw.toInt
    let r := f.clamp (0x8000 ≤ w16) (roundExp .rne false N (16 - f.F) false)
    (r.1, if r.2.cl then cl else .zero)

/-- Drain conversion (R65). -/
def drainConvert (A : DWord) (so : Word) (f : FmtA) (o : DrnFmt) : Nat × EngFlags :=
  let x := A.toInt
  if x = 0 ∨ so = zeroScale then (0, .zero)
  else
    let toFp (p : Nat) : Nat × EngFlags :=
      let v := pow2Of so.toInt
      let r := fpRound p .rne (x < 0) (x.natAbs * v.1) (v.2.1 - 30) v.2.2
      (r.1, { EngFlags.zero with ov := r.2.ov })
    match o with
    | .f32 => toFp 24
    | .bf16 => toFp 8
    | .log =>
      let g := f.act
      if x < 0 ∧ !g.sgn then (0, { EngFlags.zero with cl := true })
      else
        let off := so.toInt - 30 * 65536
        let e := if isPow2 x.natAbs then roundExp .rne (x < 0) ((x.natAbs.log2 : Int) * 65536 + off) (16 - g.F) false
          else roundExp .rne (x < 0) ((log2Floor x.natAbs 64 : Int) + off * 2 ^ 48) (64 - g.F) true
        let r := g.clamp (x < 0) e
        (r.1, { EngFlags.zero with cl := r.2.cl })

/-! ### Checks before a bundle issues -/

/-- A slot is free (R36). -/
def slotFree (s : State) (free : Nat) : Check := need (free ≤ s.cc) (.plain .schedule)

/-- Rows that a command touches: base address, pitch, number of rows, bytes of a row. -/
abbrev RowSet := Nat × Nat × Nat × Nat

/-- Row addresses. -/
def rowAddrs (r : RowSet) : List Nat := (List.range r.2.2.1).map fun b => r.1 + b * r.2.1

/-- The alignment check (R197): the first row address that is misaligned, or the base address when only a pitch is; a
command of one row does not use its pitch. -/
def alignRows (l : List RowSet) : Check :=
  let badBase := l.any fun r => r.1 % 16 != 0
  if badBase then
    match (l.flatMap rowAddrs).find? fun a => a % 16 != 0 with
    | some a => .at_ .align (BitVec.ofNat 64 a)
    | none => .ok
  else match l.find? fun r => 1 < r.2.2.1 && r.2.1 % 16 != 0 with
    | some r => .at_ .align (BitVec.ofNat 64 r.1)
    | none => .ok

/-- The range check (R197): the lowest byte outside the scratchpad of the first row that leaves it. -/
def rangeRows (l : List RowSet) : Check :=
  match (l.flatMap fun r => (rowAddrs r).map fun a => (a, r.2.2.2)).find? fun a => scratchSize < a.1 + a.2 with
  | some a => .at_ .scratchRange (BitVec.ofNat 64 (max a.1 scratchSize))
  | none => .ok

/-- Both checks of R197. -/
def rowCheck (l : List RowSet) : Check := (alignRows l).and fun _ => rangeRows l

/-- Rows of a WLD (R197). -/
def wldRows (a : Vector DWord 8) (r : BankRec) (beats : Nat) : List RowSet :=
  [(lo32 a[1], lo32 a[2], beats, masterBytes r)] ++
  (if r.sp = 0 then [] else [(hi32 a[1], indexBytes r, beats, indexBytes r)])

/-- RING of a5 (Table ARR-3). -/
def ringOf (a : Vector DWord 8) : Nat := (a[5].extractLsb' 0 16).toNat
/-- Rows of a STRM (R197). -/
def strmRows (a : Vector DWord 8) (f : FmtA) (r : BankRec) (beats : Nat) : List RowSet :=
  [(lo32 a[3], hi32 a[3], if ringOf a = 0 then beats else min beats (ringOf a), actBytes f r)]
/-- Rows of a DRN (R197). -/
def drnRows (a : Vector DWord 8) (f : FmtA) (o : DrnFmt) (beats : Nat) : List RowSet :=
  [(lo32 a[4], hi32 a[4], beats, outBytes f o)]

/-- Beats of an A word. -/
def beatsOf (b : BitVec 12) : Nat := b.toNat + 1

/-- EFR.A's format as the executing word samples it (R69, R71). -/
def State.fmtA (s : State) : FmtA := s.myTile.fmt s.bun.strand s.cc

/-- Deterministic mode confines WLD and STRM to panels (R322). -/
def detGang (s : State) : Check := need (!s.det || s.me.gang == .ganged) (.plain .gangState)

/-! ### Words of class A -/

/-- AFMT's check in deterministic mode (R322). -/
def afmtCheck (sp : BitVec 2) (s : State) : Check := need (!s.det || sp == 0) (.plain .illegal)

/-- EFR.A's format is written (R71): the issuing strand sees it from its third bundle on, others from the third cc on. -/
def State.setFmtA (s : State) (f : FmtA) : State :=
  let w : FmtAWrite := ⟨s.bun.strand, s.me.bundles + 3, s.cc + 3, f⟩
  s.onMyTile fun x => { x with fmtALog := x.fmtALog ++ [w] }

/-- AFMT (R199). -/
def execAfmt (aw : Bool) (af : BitVec 2) (as_ ww : Bool) (wf : BitVec 2) (ws : Bool) (nsub sp : BitVec 2) : State → Result :=
  guarded (afmtCheck sp) fun s => s.setFmtA ⟨aw, af, as_, ww, wf, ws, nsub, sp⟩

/-- A new array command of the executing strand. -/
def ArrCmd.new (id : Nat) (op : ArrOp) (o : Origin) (cc beats first : Nat) (f : FmtA) : ArrCmd :=
  ⟨id, op, o, cc, beats, first, f, 0, 0, 0, 0, none, 0, [], 0, false, [], false, false⟩

/-- Put an array command in flight. -/
def State.startArr (s : State) (f : Nat → Origin → ArrCmd) : State :=
  let (o, s) := s.command 2 false
  s.onMyTile fun x => { x with arr := x.arr ++ [f x.arrNext o], arrNext := x.arrNext + 1 }

/-- WLD's checks (R36, R197, R322). -/
def wldCheck (beats : BitVec 12) (s : State) : Check :=
  (detGang s).and fun _ => (rowCheck (wldRows s.arrStg s.fmtA.record (beatsOf beats))).and fun _ => slotFree s s.myTile.wFree

/-- WLD (R200). -/
def execWld (beats : BitVec 12) (first : BitVec 7) : State → Result :=
  guarded (wldCheck beats) fun s =>
    let n := beatsOf beats
    let x := s.myTile
    let f := s.fmtA
    let cols : SMap Word := (List.range 96).map fun c => (c, (x.col c).at s.cc)
    let s := s.startArr fun id o => { ArrCmd.new id .wld o s.cc n first.toNat f with
      addr := lo32 s.arrStg[1], pitch := lo32 s.arrStg[2], idx := hi32 s.arrStg[1], cols := cols, final := s.cc + n }
    let s := s.onMyTile fun x => { x with wFree := s.cc + n, bankS := { x.bankS with fmt := f.record } }
    s.sched s.cc slotBeat (.wldBeat s.bun.tile 0)

/-- ASWP's checks (R201). -/
def aswpCheck (s : State) : Check := (slotFree s s.myTile.wFree).and fun _ => slotFree s s.myTile.sFree

/-- ASWP: rows that enter three cc from now use the other bank (R201). -/
def execAswp : State → Result :=
  guarded aswpCheck fun s => s.onMyTile fun x => { x with bankA := x.bankS, bankS := x.bankA, wFree := s.cc + 1 }

/-- STRM's checks (R36, R197, R322). -/
def strmCheck (beats : BitVec 12) (s : State) : Check :=
  (detGang s).and fun _ =>
    (rowCheck (strmRows s.arrStg s.fmtA s.myTile.bankA.fmt (beatsOf beats))).and fun _ => slotFree s s.myTile.sFree

/-- Cc from a STRM's issue to its rows being final (R202, R210): a chained member of K-position 0 is done with its
partner, which issues 100 cc later. -/
def strmDelay (chain : Bool) (t : Nat) : Nat := if !chain then 196 else if posOf t < 4 then 396 else 296

/-- STRM (R202). -/
def execStrm (beats : BitVec 12) (first : BitVec 8) : State → Result :=
  guarded (strmCheck beats) fun s =>
    let n := beatsOf beats
    let a := s.arrStg
    let t := s.bun.tile
    let id := s.myTile.arrNext
    let fin := s.cc + n + strmDelay s.myTile.chain t
    let f := s.fmtA
    let s := s.startArr fun id o => { ArrCmd.new id .strm o s.cc n first.toNat f with
      addr := lo32 a[3], pitch := hi32 a[3], ring := ringOf a,
      cred := if a[5].getLsbD 16 then some (a[5].extractLsb' 40 24).toNat else none,
      chain := s.myTile.chain, final := fin }
    let s := s.onMyTile fun x => { x with sFree := s.cc + n }
    (s.sched s.cc slotBeat (.strmBeat t 0)).sched fin 4 (.strmRowsFinal t id)

/-- DRN's checks (R36, R197). -/
def drnCheck (beats : BitVec 12) (o : DrnFmt) (s : State) : Check :=
  (rowCheck (drnRows s.arrStg s.fmtA o (beatsOf beats))).and fun _ => slotFree s s.myTile.dFree

/-- DRN (R205). -/
def execDrn (beats : BitVec 12) (zr : Bool) (o : DrnFmt) (first : BitVec 8) : State → Result :=
  guarded (drnCheck beats o) fun s =>
    let n := beatsOf beats
    let a := s.arrStg
    let t := s.bun.tile
    let id := s.myTile.arrNext
    let f := s.fmtA
    let so := s.myTile.outL.at s.cc
    let s := s.startArr fun id g => { ArrCmd.new id (.drn zr o) g s.cc n first.toNat f with
      addr := lo32 a[4], pitch := hi32 a[4], so := so, final := s.cc + n }
    let s := s.onMyTile fun x => { x with dFree := s.cc + n }
    (s.sched s.cc slotBeat (.drnBeat t 0)).sched (s.cc + n + 8) 4 (.drnOutputFinal t id)

/-- ACLR (R206). -/
def execAclr (beats : BitVec 12) (first : BitVec 8) : State → Result :=
  guarded (fun s => slotFree s s.myTile.dFree) fun s =>
    let n := beatsOf beats
    let f := s.fmtA
    let s := s.startArr fun id o => { ArrCmd.new id .aclr o s.cc n first.toNat f with final := s.cc + n }
    let s := s.onMyTile fun x => { x with dFree := s.cc + n }
    s.sched s.cc slotBeat (.aclrBeat s.bun.tile 0)

/-- AGNG's checks (R207). -/
def agngCheck (chain : Bool) (s : State) : Check :=
  (need (!chain || s.me.gang == .ganged) (.plain .gangState)).and fun _ => slotFree s s.myTile.sFree

/-- AGNG (R207). -/
def execAgng (chain : Bool) : State → Result := guarded (agngCheck chain) fun s => s.onMyTile fun x => { x with chain := chain }

/-- The array status (Table ARR-5). -/
def arrStatus (x : Tile) (cc : Nat) : DWord :=
  BitVec.ofNat 64 (packLow [(1, x.flagsA.nv.toNat), (1, x.flagsA.ov.toNat), (1, x.flagsA.cl.toNat), (3, 0),
    (1, (decide (cc < x.dFree)).toNat), (1, (decide (cc < x.sFree)).toNat), (1, (decide (cc < x.wFree)).toNat),
    (6, x.bankS.fmt.bits), (1, 0), (6, x.bankA.fmt.bits), (1, 0), (1, x.chain.toNat), (8, 0), (32, x.arrDone.toNat)])

/-- ASTA (R208). -/
def execAsta (clr : Bool) (s : State) : Result :=
  let s' := s.write 2 (.stg .array 0 (arrStatus s.myTile s.cc))
  .next (if clr then s'.onMyTile fun x => { x with flagsA := .zero } else s')

/-! ### Words of class K -/

/-- The value of a K word (R209). -/
def kValue {w : Nat} (s : State) (a : Reg) (i : BitVec w) (ext : List LWord) : Word := (s.me.readG a + imm i ext).setWidth 32

/-- KSA (R209, R195). -/
def execKsa (a : Reg) (i : BitVec 19) (ext : List LWord) (s : State) : Result :=
  .next (s.onMyTile fun x => { x with actL := x.actL.set s.cc (s.cc + 3) (kValue s a i ext) })

/-- The columns a KSW names (R209). -/
def kswCols (c : BitVec 7) : List Nat := if c = 127 then List.range 96 else [c.toNat]

/-- KSW (R209, R195). -/
def execKsw (a : Reg) (c : BitVec 7) (i : BitVec 12) (ext : List LWord) (s : State) : Result :=
  .next (s.onMyTile fun x => { x with
    colL := (kswCols c).foldl (fun m c => SMap.put m c ((SMap.get Latch.zero m c).set s.cc (s.cc + 3) (kValue s a i ext))) x.colL })

/-- KSO (R209, R195). -/
def execKso (a : Reg) (i : BitVec 19) (ext : List LWord) (s : State) : Result :=
  .next (s.onMyTile fun x => { x with outL := x.outL.set s.cc (s.cc + 3) (kValue s a i ext) })

/-- KCLR (R209). -/
def execKclr (s : State) : Result :=
  .next (s.onMyTile fun x => { x with
    actL := x.actL.set s.cc (s.cc + 3) 0
    outL := x.outL.set s.cc (s.cc + 3) 0
    colL := x.colL.map fun c => (c.1, c.2.set s.cc (s.cc + 3) 0) })

/-! ### Engines' view of the scratchpad -/

/-- The scratchpad bytes with pending DRN output (R31, R32). -/
def Tile.drnPending (x : Tile) (cc : Nat) : List (Nat × Nat) :=
  x.arr.flatMap fun c => match c.op with
    | .drn _ o => if cc < c.start + c.beats + 8 then
        (rowAddrs (c.addr, c.pitch, c.beats, 0)).map fun a => (a, outBytes c.fmt o) else []
    | _ => []

/-- What an engine reads at a scratchpad address: a byte with pending DRN output is undefined (R31). -/
def State.engRead (s : State) (t a n : Nat) : List Byte :=
  let p := (s.tile t).drnPending s.cc
  if p.isEmpty then (s.tile t).readBytes a n
  else ((s.tile t).readBytes a n).zipIdx.map fun b =>
    if p.any fun r => r.1 ≤ a + b.2 && a + b.2 < r.1 + r.2 then Config.freeByte (s.freeKey t * 0x400000 + a + b.2) else b.1

/-- What an engine command that started at `since` reads: bytes that a QSAV has replaced since then are the old ones (R227). -/
def State.engReadSince (s : State) (t a n since : Nat) : List Byte :=
  let x := s.tile t
  if x.qOld.isEmpty then s.engRead t a n
  else (s.engRead t a n).zipIdx.map fun b =>
    ((x.qOld.find? fun e => since ≤ e.1 && e.2.1 == x.phys (a + b.2)).map (·.2.2)).getD b.1

/-! ### Beats and completion -/

/-- The command of a slot whose beat falls now. -/
def Tile.beatOf (x : Tile) (f : ArrOp → Bool) (cc beat : Nat) : Option ArrCmd :=
  x.arr.find? fun c => f c.op && c.start + beat == cc && beat ≤ c.beats

/-- Flags of array commands are sticky (R66). -/
def State.raiseA (s : State) (t : Nat) (f : EngFlags) : State := s.onTile t fun x => { x with flagsA := x.flagsA.or f }

/-- Change an array command in flight. -/
def State.onArr (s : State) (t id : Nat) (f : ArrCmd → ArrCmd) : State :=
  s.onTile t fun x => { x with arr := x.arr.map fun c => if c.id == id then f c else c }

/-- A fault of an array or Quilt command. In a panel it is the whole panel's, one for each command of the lead's stream, at the
first bundle that the lead issues at or after `due` cc from the lead's issue of the command (R211, R221): the strand keeps
its own record, the others follow. -/
def State.engineFault (s : State) (c : Origin) (i : TrapInfo) (start due : Nat) : State :=
  let x := s.strand c.tile c.strand
  let k := clusterOf c.tile
  if x.inPanel i.engine i.seq then
    let at_ := start - (100 * (posOf c.tile / 4) + 2 * (posOf c.tile % 4)) + due
    let f := followInfo x i
    let s := s.onStrand c.tile c.strand fun x => { x with panelTraps := x.panelTraps ++ [i] }
    if (s.strand (8 * k) ((s.cluster k).gangs.headD 0)).gang == .ganged then
      let s := s.onCluster k fun y => { y with panel := y.panel.map fun p =>
        if (p.traps.any fun g => g.2.engine == f.engine && g.2.seq == f.seq) then p else { p with traps := p.traps ++ [(at_, f)] } }
      s.stir (8 * k)
    else s.scatterFault k at_ f
  else s.addFault c.tile c.strand s.cc i

/-- An array command completes (R208): it leaves, and its strand's number of commands outstanding falls. -/
def State.arrDoneAt (s : State) (t : Nat) (c : ArrCmd) : State :=
  let s := s.onTile t fun x => { x with arr := x.arr.filter (·.id != c.id), arrDone := x.arrDone + 1 }
  s.finish c.org 2 c.org.seq

/-- One row of a shadow bank (R200): its cells and the flags of their rounding. -/
def wldRow (c : ArrCmd) (master index : List Byte) : List (Cell × EngFlags) :=
  let r := c.fmt.record
  let f := r.wgt
  (List.range 96).map fun col =>
    let one (h : Nat) := weightRound (leNat ((master.drop (2 * (col * r.wpc + h))).take 2)) f (SMap.get 0 c.cols col)
    let ix (h : Nat) : BitVec 3 := if r.sp = 0 then 0 else (index.getD (col * r.wpc + h) 0).extractLsb' 0 3
    let a := one 0
    let b := if r.ww then one 1 else (0, .zero)
    (⟨BitVec.ofNat 8 a.1, BitVec.ofNat 8 b.1, ix 0, if r.ww then ix 1 else 0⟩, a.2.or b.2)

/-- Union of engine flags. -/
def EngFlags.all (l : List EngFlags) : EngFlags := l.foldl EngFlags.or .zero

/-- A cell that a WLD of an L8 format writes keeps its second code and index; one of an L4 format has both written (R200). -/
def Cell.over (new old : Cell) (l4 : Bool) : Cell := if l4 then new else { new with c1 := old.c1, i1 := old.i1 }

/-- WLD_BEAT (R200): beat b fills its row of the shadow bank; after the last beat the command completes. Each beat reads under the
mapping of its cc, also where a swap falls inside the command, which R124 leaves open (DESIGN CHOICE, log 32). -/
def execWldBeat (t beat : Nat) (s : State) : Result :=
  .next (match (s.tile t).beatOf (· == .wld) s.cc beat with
  | none => s
  | some c =>
    if beat = c.beats then s.arrDoneAt t c
    else
      let r := c.fmt.record
      let row := wldRow c (s.engReadSince t (c.addr + beat * c.pitch) (masterBytes r) c.start)
        (s.engReadSince t (c.idx + beat * indexBytes r) (indexBytes r) c.start)
      let s := (s.spendOn t).onTile t fun x => { x with bankS := { x.bankS with
        cells := (row.zipIdx).foldl (fun m e =>
          let k := 96 * (c.first + beat) + e.2
          let y := e.1.1.over (SMap.get Cell.zero m k) r.ww
          if y = Cell.zero then SMap.del m k else SMap.put m k y) x.bankS.cells } }
      (s.raiseA t (EngFlags.all (row.map (·.2)))).sched (s.cc + 1) (if beat + 1 = c.beats then 5 else slotBeat) (.wldBeat t (beat + 1)))

/-- Element k of an activation row (R194). -/
def actElem (f : FmtA) (row : Array Byte) (k : Nat) : Nat :=
  if f.aw then (row.getD (k / 2) 0).toNat / (if k % 2 = 0 then 1 else 16) % 16 else (row.getD k 0).toNat

/-- A code of a cell as a reading of the bank's record sees it: of 8 bits, or the low 4 (R192, R200; log 39). -/
def BankRec.code (r : BankRec) (c : Byte) : Nat := if r.ww then c.toNat % 16 else c.toNat

/-- The terms of a column for a row (R202): each slot of the bank meets its activation. -/
def columnTerms (x : Tile) (c : ArrCmd) (row : Array Byte) (col : Nat) : List Term :=
  let r := x.bankA.fmt
  let sw := (x.col col).last
  (List.range 96).flatMap fun cr =>
    let cell := SMap.get Cell.zero x.bankA.cells (96 * cr + col)
    (List.range r.wpc).map fun h =>
      let j := cr * r.wpc + h
      let k := if r.kept = 0 then j else 8 * (j / r.kept) + (if h = 0 then cell.i0 else cell.i1).toNat
      productTerm c.fmt.act (actElem c.fmt row k) r.wgt (r.code (if h = 0 then cell.c0 else cell.c1)) x.actL.last sw c.fmt.nsub

/-- The sums of a row (R59): value modulo 2^64, flags, and whether a term met NaR under NSUB = 3. -/
def rowSums (x : Tile) (c : ArrCmd) (row : Array Byte) : List (DWord × EngFlags × Bool) :=
  (List.range 96).map fun col =>
    let ts := columnTerms x c row col
    (BitVec.ofInt 64 ((ts.map (·.val)).foldl (· + ·) 0), EngFlags.all (ts.map (·.fl)), ts.any (·.nar))

/-- Add into an accumulator entry (R55). -/
def accAdd (m : SMap DWord) (k : Nat) (v : DWord) : SMap DWord :=
  let y := SMap.get 0 m k + v
  if y = 0 then SMap.del m k else SMap.put m k y

/-- STRM_BEAT (R202, R210): beat b reads its row, and its sums go to the accumulator or to the partner, which takes them
100 cc later; a credit is added. -/
def execStrmBeat (t beat : Nat) (s : State) : Result :=
  .next (match (s.tile t).beatOf (· == .strm) s.cc beat with
  | none => s
  | some c =>
    if beat = c.beats then s
    else
      let x := s.tile t
      let row := (s.engReadSince t (c.addr + (if c.ring = 0 then beat else beat % c.ring) * c.pitch) (actBytes c.fmt x.bankA.fmt) c.start).toArray
      let sums := rowSums x c row
      let s := ((s.spendOn t).raiseA t (EngFlags.all (sums.map (·.2.1)))).onArr t c.id fun c =>
        { c with nar := c.nar || sums.any (·.2.2) }
      let k0 := 96 * (c.first + beat)
      let s :=
        if c.chain && posOf t < 4 then
          s.onTile (t + 4) fun y => { y with
            partner := (sums.zipIdx).foldl (fun m e => SMap.put m (96 * (s.cc + 100) + e.2) e.1.1) y.partner }
        else
          let s := s.onTile t fun x => { x with acc := (sums.zipIdx).foldl (fun m e => accAdd m (k0 + e.2) e.1.1) x.acc }
          if c.chain then s.onTile t fun x => { x with
            acc := (List.range 96).foldl (fun m e => accAdd m (k0 + e) (SMap.get 0 x.partner (96 * s.cc + e))) x.acc
            partner := x.partner.filter fun p => 96 * (s.cc + 1) ≤ p.1 }
          else s
      let s := match c.cred with
        | none => s
        | some id => s.soon 64 (slotArray t) (.counterAdd (dieOf t) id 1 (.credit c.org))
      s.sched (s.cc + 1) slotBeat (.strmBeat t (beat + 1)))

/-- STRM_ROWS_FINAL (R202, R58, R211): the command completes; NaR under NSUB = 3 and a refused credit raise their traps. -/
def execStrmRowsFinal (t cmd : Nat) (s : State) : Result :=
  .next (match (s.tile t).arr.find? (·.id == cmd) with
  | none => s
  | some c =>
    let due := c.beats + if c.chain then 402 else 302
    let info (k : Cause) (a : DWord) : TrapInfo := infoOf c.org k 2 (Config.freeW s.fresh) a
    let s' := s.spend.arrDoneAt t c
    let s' := if c.nar then s'.engineFault c.org (info .arrayNar (Config.freeD s.fresh)) c.start due else s'
    if c.refused then s'.engineFault c.org (info .arrayCounter (BitVec.ofNat 64 (c.cred.getD 0))) c.start due else s')

/-- Output row bytes from converted codes (R205). -/
def outRow (f : FmtA) (o : DrnFmt) (codes : List Nat) : List Byte :=
  let n := outBytes f o
  leBytes n (packLow (codes.map fun c => (8 * n / 96, c)))

/-- DRN_BEAT (R205): beat b converts its row, and clears it if asked. -/
def execDrnBeat (t beat : Nat) (s : State) : Result :=
  .next (match (s.tile t).beatOf (fun o => match o with | .drn .. => true | _ => false) s.cc beat with
  | none => s
  | some c =>
    match c.op with
    | .drn zr o =>
      if beat = c.beats then s
      else
        let row := 96 * (c.first + beat)
        let codes := (List.range 96).map fun k => drainConvert (SMap.get 0 (s.tile t).acc (row + k)) c.so c.fmt o
        let s := s.raiseA t (EngFlags.all (codes.map (·.2)))
        let s := s.onArr t c.id fun c => { c with out := c.out ++ [(c.addr + beat * c.pitch, outRow c.fmt o (codes.map (·.1)))] }
        let s := if zr then s.onTile t fun x => { x with acc := x.acc.filter fun e => !(row ≤ e.1 && e.1 < row + 96) } else s
        s.sched (s.cc + 1) slotBeat (.drnBeat t (beat + 1))
    | _ => s)

/-- DRN_OUTPUT_FINAL (R205): the output bytes hold the drained values, and the command completes. Output into W goes where W
points in this cc, also when W was swapped since the command's issue: R124 does not name this case (DESIGN CHOICE, log 32). -/
def execDrnOutputFinal (t cmd : Nat) (s : State) : Result :=
  .next (match (s.tile t).arr.find? (·.id == cmd) with
  | none => s
  | some c => (s.onTile t fun x => c.out.foldl (fun x o => x.writeBytes o.1 o.2) x).arrDoneAt t c)

/-- ACLR_BEAT (R206): row first + b becomes zero; after the last beat the command completes. -/
def execAclrBeat (t beat : Nat) (s : State) : Result :=
  .next (match (s.tile t).beatOf (· == .aclr) s.cc beat with
  | none => s
  | some c =>
    if beat = c.beats then s.arrDoneAt t c
    else
      let row := 96 * (c.first + beat)
      (s.onTile t fun x => { x with acc := x.acc.filter fun e => !(row ≤ e.1 && e.1 < row + 96) }).sched (s.cc + 1)
        (if beat + 1 = c.beats then 5 else slotBeat) (.aclrBeat t (beat + 1)))

/-- Accumulator rows that are not final for a word that names them (R204). -/
def Tile.rowsPending (x : Tile) (t cc first n : Nat) : Option Nat :=
  (x.arr.filterMap fun c =>
    let writes := match c.op with
      | .wld => false
      | .strm => !(c.chain && posOf t < 4)
      | .drn .. | .aclr => true
    if writes && cc < c.final && c.first < first + n && first < c.first + c.beats then some c.final else none).max?

end Sys2Proof.Machine
end

