-- ==== Sys2Proof/Machine/EngMem.lean ====
section
/-! DEFINITION. Global memory as the engines of a tile or cluster reach it: translation piece by piece (R99, R115), reads
and writes at the homes, and the faults of one element (Table STR-5, Table XLT-7). -/
namespace Sys2Proof.Machine

/-- Why an element faults: the cause of Table STR-5, the cause of Table XLT-7, the address. -/
abbrev ElemErr := Nat × Nat × Nat

/-- Strands of a tile that wait for room in a queue try again (R37). -/
def State.wakeWhere (s : State) (t : Nat) (f : Wait → Bool) : State :=
  s.each (strandIds.filter fun k => match (s.strand t k).block with | some w => f w && !(s.strand t k).wake | none => false)
    fun s k => s.sched s.cc 12 (.waitSatisfied t k)

/-- The parts of a range in its 64 KiB ranges of address. -/
def pageCuts (va n : Nat) : List (Nat × Nat) :=
  (List.range ((va % 65536 + n + 65535) / 65536)).map fun i =>
    let lo := max va ((va / 65536 + i) * 65536)
    (lo, min (va + n) ((va / 65536 + i + 1) * 65536) - lo)

/-- A part of an element with the entry that maps it. -/
structure Piece where
  e  : TlbEntry
  va : Nat
  n  : Nat
  deriving DecidableEq, Repr

/-- Translate an element; one whose home lies outside the torus cannot be reached (R16, log 19). -/
def State.pieces (s : State) (c va n : Nat) : Except ElemErr (List Piece) :=
  (pageCuts va n).mapM fun p => match s.engXlate c p.1 with
    | .ok e => if s.absent e.peer then .error (7, 0, p.1) else .ok ⟨e, p.1, p.2⟩
    | .error f => .error (1, f.1, p.1)

/-- The accesses of an element go through translation (R102, R104). One access of an engine, as R102 counts them, is the part
of an element in one 64 KiB range (DESIGN CHOICE, log 31). -/
def State.touchAll (s : State) (c va n : Nat) : State :=
  s.each (pageCuts va n) fun s p => s.touch c (BitVec.ofNat 64 p.1) 1

/-- Read the bytes of a piece at its home (R113); a copy is installed under MODE 10 (R101). The address of the first byte
of an uncorrectable line comes with them (R79). -/
def State.readPiece (s : State) (d : Nat) (p : Piece) : State × List Byte × Option Nat :=
  let s := if p.e.mode = 2 then s.copyFrame d p.e p.va else s
  let off := p.e.offset p.va
  if s.ownPackage p.e.peer then
    let h := stnOf p.e.peer
    (s.noteRead h off p.n 1, s.memRead h off p.n, (((s.die h).bad.filter (onLine off p.n)).map fun l => p.va + (l - off)).min?)
  else
    let b := s.foreign p.e.peer off p.n (p.e.mode == 2)
    (b.2, b.1, none)

/-- Read an element of global memory for an engine of cluster c. -/
def State.engReadGlobal (s : State) (c va n : Nat) : Except ElemErr (State × List Byte × Option Nat) :=
  match s.pieces c va n with
  | .error e => .error e
  | .ok ps =>
    .ok (ps.foldl (fun a p =>
      let r := a.1.readPiece (c / 32) p
      (r.1, a.2.1 ++ r.2.1, a.2.2.or r.2.2)) (s.touchAll c va n, [], none))

/-- Why a write to a piece faults (R100, R101, R115); the cause of Table XLT-7. -/
def State.writeErr (s : State) (p : Piece) : Option Nat :=
  if p.e.ro then some 2
  else if (p.e.mode == 1 || p.e.mode == 3) && (p.va % 4 != 0 || p.n % 4 != 0) then some 8
  else if s.ownPackage p.e.peer && (s.shared (stnOf p.e.peer) (p.e.offset p.va) ||
      s.shared (stnOf p.e.peer) (p.e.offset p.va + p.n - 1)) then some 3
  else none

/-- Write a piece at its home. -/
def State.writePiece (s : State) (p : Piece) (bs : List Byte) : State :=
  if s.ownPackage p.e.peer then s.memWrite (stnOf p.e.peer) (p.e.offset p.va) bs
  else s.emit (.write p.e.peer (p.e.offset p.va) bs)

/-- The pieces of an element that is written, or why it faults, judged in address order (R122). -/
def State.writePieces (s : State) (c va n : Nat) : Except ElemErr (List Piece) :=
  (pageCuts va n).mapM fun p => match s.engXlate c p.1 with
    | .ok e =>
      if s.absent e.peer then .error (7, 0, p.1)
      else match s.writeErr ⟨e, p.1, p.2⟩ with
        | some x => .error (1, x, p.1)
        | none => .ok ⟨e, p.1, p.2⟩
    | .error f => .error (1, f.1, p.1)

/-- Write an element of global memory for an engine of cluster c. -/
def State.engWriteGlobal (s : State) (c va : Nat) (bs : List Byte) : Except ElemErr State :=
  (s.writePieces c va bs.length).map fun ps =>
    (s.touchAll c va bs.length).each ps fun s p => s.writePiece p ((bs.drop (p.va - va)).take p.n)

/-- The words that a command has written, with a write of some bytes more; bytes not written are zero (Table CON-8). -/
def putWords (m : SMap Word) (a : Nat) (bs : List Byte) : SMap Word :=
  (bs.zipIdx).foldl (fun m b =>
    let w := (a + b.2) / 4
    let sh := 8 * ((a + b.2) % 4)
    let old : Word := SMap.get 0 m w
    let new : Word := b.1.setWidth 32
    SMap.put m w ((old &&& ~~~((0xFF#32) <<< sh)) ||| (new <<< sh))) m

/-- A strand folds each word that its engine command has written once, as it was written (R281, Table CON-8). -/
def Strand.foldWords (x : Strand) (m : SMap Word) : Strand := m.foldl (fun x e => x.fold (4 * e.1) e.2) x

/-- The bound of a translated access of an engine (Table STR-1, R105): the slowest page of the range. Table STR-1 has no row
for MODE 10, which is bounded as MODE 00 is (DESIGN CHOICE, log 31). -/
def State.pagesBound (s : State) (c va n : Nat) : Nat :=
  (pageCuts va n).foldl (fun b p =>
    match s.xlate c (BitVec.ofNat 64 p.1) with
    | .hit e miss =>
      max b ((if e.mode = 1 || e.mode = 3 then 2 * s.transit (c / 32) e.peer + 64 else 1024) +
        if miss then s.missBound c (p.1 / 65536) else 0)
    | .fault _ _ miss => max b (1024 + if miss then s.missBound c (p.1 / 65536) else 0)
    | .full => max b (1024 + s.missBound c (p.1 / 65536))) 0

end Sys2Proof.Machine
end

