-- ==== Sys2Proof/Machine/Sync.lean ====
section
/-! DEFINITION. Counters, phases, barriers and digests (12_consistency R259 to R282): class Y but for SPLT, and the steps
of releases, counter adds, barriers and page walks. -/
namespace Sys2Proof.Machine

/-- Only the most recent Y word counts for a split point (R88). -/
def Strand.unsplit (x : Strand) : Strand := { x with splitGen := none }

/-- The executing Y word takes a number of the synchronisation engine (R273, R308) and ends a split point (R88). -/
def State.yWord (s : State) : State := (s.numbered 6).onMe Strand.unsplit

/-! ### Counters -/

/-- The counter that a register names (R272). -/
def ctrId (w : DWord) : Nat := (w.setWidth 24).toNat

/-- A local counter id is checked before the bundle issues (R272). -/
def ctrCheck (a : Reg) (s : State) : Check :=
  let id := ctrId (s.me.readG a)
  need (s.ctrOk s.myDie id) (.at_ .counterRange (BitVec.ofNat 64 id))

/-- The checks of a local CADD (R272, R273). -/
def caddCheck (a : Reg) (s : State) : Check :=
  (ctrCheck a s).and fun _ => need (s.myTile.yq.length < 8) (.block .syncQueue)

/-- Release first, if asked (R273, R278). -/
def State.releaseIf (s : State) (rel : Bool) : State := if rel then s.release s.bun.tile s.bun.strand false else s

/-- CADD (R273): a local add enters the tile's synchronisation queue, and waits there for the releases before it. -/
def execCadd (a b : Reg) (rel : Bool) : State → Result :=
  guarded (caddCheck a) fun s =>
    let id := ctrId (s.me.readG a)
    let inc := s.me.readG b
    let t := s.bun.tile
    let (o, s) := ((s.releaseIf rel).onMe Strand.unsplit).command 6 false
    let gate := s.me.gate
    let s := s.onMyTile fun x => { x with yq := x.yq ++ [⟨id, inc, o, gate, gate.isNone⟩] }
    if gate.isNone then s.soon (ctrBound id) (slotCore t) (.counterAdd (dieOf t) id inc (.cadd o)) else s

/-- CADD to a peer (R273): an entry of the peer's rick. -/
def execCaddRemote (a b : Reg) (rel : Bool) (peer : LWord) : State → Result :=
  guarded fabRoom fun s =>
    let id := ctrId (s.me.readG a)
    let inc := s.me.readG b
    let s := (s.releaseIf rel).yWord
    let gate := s.me.gate
    let (o, s) := s.command 5 true
    s.toStation (.remoteAdd id inc (peer.setWidth 16) o s.cc gate)

/-- The check of CWT: it waits until the counter is at least the value (R274). -/
def cwtCheck (a b : Reg) (s : State) : Check :=
  let id := ctrId (s.me.readG a)
  let v := s.me.readG b
  (ctrCheck a s).and fun _ => need (v.toNat ≤ (s.ctrGet s.myDie id).toNat) (.block (.counter id v))

/-- CWT (R274); an acquire of every value that a home holds (log 9). -/
def execCwt (a b : Reg) (_acq : Bool) : State → Result := guarded (cwtCheck a b) State.yWord

/-- CRD (R275). -/
def execCrd (a d : Reg) : State → Result :=
  guarded (ctrCheck a) fun s =>
    let id := ctrId (s.me.readG a)
    let v := s.ctrGet s.myDie id
    ((s.ctrNote s.myDie id).yWord).write (ctrBound id) (.g d v)

/-! ### Arrival words -/

/-- The check of an arrival word's address (R276). -/
def arrivalCheck (a : Reg) (s : State) : Check := scratchCheck (s.me.readG a) 16 16

/-- AARM (R276). -/
def execAarm (a b : Reg) : State → Result :=
  guarded (arrivalCheck a) fun s =>
    let ga := (s.me.readG a).toNat
    let target := s.me.readG b
    s.yWord.onMyTile fun x => x.writeBytes ga (leBytes 4 target.toNat ++ leBytes 4 0)

/-- The checks of AWT (R277). -/
def awtCheck (a b : Reg) (s : State) : Check :=
  let ga := (s.me.readG a).toNat
  let g := (s.me.readG b).setWidth 32
  (arrivalCheck a s).and fun _ => need (genReached (s.myTile.genAt ga) g) (.block (.arrival ga g))

/-- AWT (R277). -/
def execAwt (a b : Reg) (_acq : Bool) : State → Result := guarded (awtCheck a b) State.yWord

/-! ### Phases, barriers, fences -/

/-- PHS (R278). -/
def execPhs (rel _acq : Bool) (_scope : Scope) (s : State) : Result := .next (s.releaseIf rel).yWord

/-- The check of BAR: it waits until its generation completes (R279). -/
def barCheck (ss : Bool) (scope : Scope) (s : State) : Check :=
  need (SMap.find s.me.barPassed (scopeCode scope)).isSome (.block (.barrier scope ss))

/-- BAR, once its generation is complete: it is the strand's split point, and a mismatch of SS flags gives the trap (R279,
R88, R300). -/
def execBar (ss : Bool) (scope : Scope) : State → Result :=
  guarded (barCheck ss scope) fun s =>
    let o := s.origin s.me.seqs.sync
    let bad := s.me.mismatch
    let s := s.yWord.onMe fun x => { x with
      splitGen := SMap.find x.barPassed (scopeCode scope), mismatch := false, barPassed := SMap.del x.barPassed (scopeCode scope) }
    if bad then s.spend.fault o .barrierMismatch 6 (Config.freeW s.fresh) (Config.freeD s.fresh) else s

/-- The check of FEN (R280). -/
def fenCheck (mask : BitVec 8) (s : State) : Check := need (!s.me.busyOn mask) (.block (.engines mask))

/-- FEN (R280). -/
def execFen (mask : BitVec 8) : State → Result := guarded (fenCheck mask) State.yWord

/-! ### Digests -/

/-- DGS.ON (R281). -/
def execDgsOn (s : State) : Result := .next (s.yWord.onMe fun x => { x with folding := true })
/-- DGS.OFF (R281). -/
def execDgsOff (s : State) : Result := .next (s.yWord.onMe fun x => { x with folding := false })
/-- DGS.RD (R281). -/
def execDgsRd (g : Reg) (s : State) : Result :=
  let d := s.me.digest
  .next ((s.yWord.write 4 (.g g (d.extractLsb' 0 64))).write 4 (.g (g + 1) (d.extractLsb' 64 64)))
/-- DGS.FOLD (R281). -/
def execDgsFold (a b : Reg) (s : State) : Result :=
  let h := digestH (s.me.readG a).toNat ((s.me.readG b).setWidth 32)
  .next (s.yWord.onMe fun x => { x with digest := x.digest + h })

/-! ### Steps -/

/-- RELEASE_COMPLETE (R262, R111): a strand's releases are performed in the order in which it issued them. -/
def execReleaseComplete (t k rel : Nat) (s : State) : Result :=
  .next (s.each (((s.strand t k).rels.filter (·.id ≤ rel)).map (·.id)) fun s r => s.performRelease t k r)

/-- PENDING_WRITE_COMPLETE (R31). -/
def execPendingWriteComplete (t k : Nat) (w : Write) (s : State) : Result := .next (s.onTile t fun x => x.commit k w)

/-- WAIT_SATISFIED (R274, R277, R280): a blocked strand is ready again; the core looks at the strand's traps. -/
def execWaitSatisfied (t k : Nat) (s : State) : Result :=
  .next (if (s.strand t k).block.isSome then s.wake t k else s.stir t)

/-- COUNTER_ADD (R270): an add takes place at its home, or is refused; the adder is told. -/
def execCounterAdd (d id : Nat) (inc : DWord) (adder : Adder) (s : State) : Result :=
  let r := s.ctrAdd d id inc
  let cause := addCause s d id
  let s := r.getD s
  .next (match adder with
  | .silent => s
  | .host => if r.isSome then s else s.hostErr
  | .cadd o =>
    let s := (s.onTile o.tile fun x => { x with yq := x.yq.filter (·.org != o) }).wakeWhere o.tile (· == .syncQueue)
    let s := if r.isSome then s else s.fault o .counter 6 (counterIsw cause (s.peerOf d)) (BitVec.ofNat 64 id)
    s.finish o 6 o.seq
  | .remoteCadd o peer =>
    let s := if r.isSome then s else s.fault o .counter 5 (counterIsw cause peer) (BitVec.ofNat 64 id)
    s.entryDone o
  | .credit o =>
    if r.isSome then s else s.onTile o.tile fun x => { x with
      arr := x.arr.map fun c => if c.org == o then { c with refused := true } else c })

/-! ### Barriers -/

/-- The participants of a generation (R279). -/
def State.participants (s : State) (b : Barrier) : List (Nat × Nat) :=
  s.strandsWith fun t _ x =>
    instOf b.scope t == b.inst && (s.tile t).unitOn && (s.tile t).launch == some b.launch && x.started && !x.halted && x.gang != .held

/-- Whether everyone has joined: every participant, or for a panel one waiting strand on each of the eight tiles (R163). -/
def State.barFull (s : State) (b : Barrier) : Bool :=
  if b.gang then
    (b.joined.map (·.1)).eraseDups.length == 8 && b.joined.all fun j => (s.strand j.1 j.2.1).block == some .gang
  else !b.joined.isEmpty && (s.participants b).all fun p => b.joined.any fun j => j.1 == p.1 && j.2.1 == p.2

/-- The bound of a barrier (R279). -/
def barBound : Scope → Nat | .cluster => 64 | .die => 256 | .package | .system => 1024

/-- The tiles that a launch reserves. -/
def Launch.tiles (l : Launch) : List Nat := (List.range (8 * l.desc.clcount)).map (8 * l.desc.clbase + ·)

/-- A panel forms (R163, R14): each tile's waiting strand is ganged and has the core; the others are held. -/
def State.formPanel (s : State) (b : Barrier) : State :=
  let s := s.each b.joined fun s j => s.onTile j.1 fun x =>
    let strands := strandIds.foldl (fun m k =>
      let y := x.strand k
      SMap.put m k (if k = j.2.1 then { y with
          gang := .ganged, gangSeq := 0, gangBase := y.seqs, gangEnd := none, panelTraps := [], wake := true
          barPassed := SMap.put y.barPassed gangCode b.id }
        else { y with gang := .held })) x.strands
    { x with strands := strands, running := some j.2.1, act := some s.cc }
  let ks := (tilesOf b.inst).map fun t => ((b.joined.find? (·.1 == t)).map (·.2.1)).getD 0
  s.onCluster b.inst fun c => { c with panel := some ⟨ks, 0, 0, []⟩, gangs := ks, stream := [] }

/-- A generation completes (R279, R300), numbered in the order of completions (R88): its participants are ready again; one whose SS flags differ, or whose superstep
does not hold every reserved tile, is a mismatch; one that ends a superstep holds its participants until the boundary. -/
def State.passBarrier (s : State) (b : Barrier) : State :=
  let ss := b.joined.all (·.2.2)
  let mixed := b.joined.any (·.2.2) && !ss
  match s.launch b.launch with
  | none => s
  | some l =>
    let covers := l.tiles.all fun t => instOf b.scope t == b.inst
    let n := s.barCount + 1
    let s : State := { s with barCount := n }
    let bad := mixed || (ss && !covers)
    let s := s.each b.joined fun s j =>
      let s := s.onStrand j.1 j.2.1 fun x => { x with
        barPassed := SMap.put x.barPassed (scopeCode b.scope) n, mismatch := bad
        hold := if ss && covers then some .superstep else x.hold }
      let s := if (s.strand j.1 j.2.1).block == some (.barrier b.scope j.2.2) then s.wake j.1 j.2.1 else s
      (s.each (s.strand j.1 j.2.1).barFaults fun s i => s.addFault j.1 j.2.1 s.cc i).onStrand j.1 j.2.1 fun x =>
        { x with barFaults := [] }
    if ss && covers then s.sched (s.cc + l.desc.commcc) 13 (.superstepBoundary b.launch) else s

/-- A launch that has ended or is stopped. -/
def State.parked (s : State) (q : Nat) : Bool := match s.launch q with | none => true | some l => l.phase == Phase.stopped

/-- BARRIER_COMPLETE (R279, R163): once everyone has joined, the releases of all are performed; within the bound after the
last of them the generation completes. One of a launch that is stopped waits for its resume. -/
def execBarrierComplete (bar : Nat) (s : State) : Result :=
  .next (match s.bars.find? (·.id == bar) with
  | none => s
  | some b =>
    if s.parked b.launch then s
    else
    let onBar (s : State) (f : Barrier → Barrier) : State := { s with bars := s.bars.map fun c => if c.id == bar then f c else c }
    if !b.full then
      if !s.barFull b then s
      else ((onBar s fun c => { c with full := true }).each b.joined fun s j => s.releaseFor j.1 j.2.1 false !b.gang).sched s.cc 11
        (.barrierComplete bar)
    else match b.due with
      | none =>
        if b.joined.all fun j => (s.strand j.1 j.2.1).rels.isEmpty then
          let d := s.dueCc (barBound b.scope)
          (onBar s fun c => { c with due := some d }).soon (barBound b.scope) 11 (.barrierComplete bar)
        else s
      | some d =>
        if s.cc < d then s
        else
          let s' : State := { s with bars := s.bars.filter (·.id != bar) }
          if b.gang then (if s.barFull b then s'.formPanel b else onBar s fun c => { c with full := false, due := none })
          else s'.passBarrier b)

/-! ### Page walks -/

/-- Whether some of the pages from `page` on lie in the memory reservation of the launch that holds a cluster (R105, R293). -/
def State.reserved (s : State) (c page pages : Nat) : Bool :=
  match ((s.cluster c).launch).bind s.launch with
  | none => false
  | some l => l.img.ranges.any fun r => r.1 < (page + pages) * 65536 && page * 65536 < r.1 + r.2

/-- Put an entry into the cluster TLB of 4,096 entries; the oldest one that is not pinned makes room (R104, R105). -/
def Cluster.fill (x : Cluster) (e : TlbEntry) : Cluster :=
  let l := if x.tlb.length < 4096 then x.tlb else match x.tlb.find? (!·.pinned) with
    | none => x.tlb
    | some v => x.tlb.erase v
  { x with tlb := l ++ [e] }

/-- PAGE_WALK_COMPLETE (R104): a walk ends, under whatever context it began; one that found a leaf installs it, pinned if the
leaf maps part of the reservation (R105), and bundles that waited for the walk queue try again. -/
def execPageWalkComplete (c page : Nat) (s : State) : Result :=
  .next (match (s.cluster c).walks.find? (·.page == page) with
  | none => s
  | some w =>
    let s := s.onCluster c fun x => { x with walks := x.walks.erase w }
    let s := match w.res with
      | none => s
      | some e =>
        if (s.cluster c).tlb.any fun f => f.ctx == e.ctx && f.page ≤ page && page < f.page + f.pages then s
        else
          let e := { e with pinned := s.reserved c e.page e.pages }
          s.onCluster c fun x => x.fill e
    s.each (tilesOf c) fun s t => (s.wakeWhere t (· == .walkQueue)).releasePoke t)

end Sys2Proof.Machine
end

