-- ==== Sys2Proof/Machine/Stream.lean ====
section
/-! DEFINITION. The stream engine (06_streams R112 to R132) and class D: the queue, start checks, elements, arrivals,
completion, unfolding, shadow pairs. A command performs its accesses at its completion, within its bound (R112, R113). -/
namespace Sys2Proof.Machine

/-! ### Issue -/

/-- A full queue blocks the bundle (R112). -/
def streamRoom (s : State) : Check := need (s.myTile.sq.length < 16) (.block .streamQueue)

/-- The staging registers that a D word reads. -/
def stagingD (x : Strand) : Vector DWord 8 := x.d.extract 0 8

/-- The descriptor that a D word names, read at issue (R113); one that is misaligned or outside the scratchpad gives the
start fault and is not read. -/
def descBytes (s : State) (n : Nat) : List Byte :=
  let a := (s.me.d[2]).toNat
  if a % n = 0 ∧ a + n ≤ scratchSize then s.engRead s.bun.tile a n else []

/-- A D word enters the queue (R112). -/
def State.enqueue (s : State) (op : SOp) (k : Cmpl) (shd : Bool) (src dst : DSpace) (desc : List Byte) : State :=
  let (o, s) := s.command 3 false
  let x := s.me
  let c : SCmd := ⟨s.myTile.sNext, op, k, shd, src, dst, stagingD x, desc, o, s.cc, x.relNext,
    (s.cluster s.myCluster).splits, 0, 0, 0, none, 0⟩
  let s := (s.spendOn s.bun.tile).onMyTile fun y => { y with sq := y.sq ++ [c], sNext := y.sNext + 1 }
  s.sched s.cc slotStart (.streamCommandStart s.bun.tile)

/-- A pattern descriptor, if d2 names one. -/
def patBytes (s : State) : List Byte := if s.me.d[2] = 0 then [] else descBytes s 128

/-- DCPY (R126). -/
def execDcpy (k : Cmpl) (shd : Bool) (src dst : DSpace) : State → Result :=
  guarded streamRoom fun s => s.enqueue .dcpy k shd src dst (patBytes s)

/-- DUNF (R127). -/
def execDunf (k : Cmpl) (shd : Bool) (src dst : DSpace) : State → Result :=
  guarded streamRoom fun s => s.enqueue .dunf k shd src dst (descBytes s 64)

/-- DPUB with INIT (R131). -/
def execDpubInit (k : Cmpl) (pair : BitVec 3) : State → Result :=
  guarded streamRoom fun s => s.enqueue (.dpub true pair.toNat) k false .scratch .scratch []

/-- DPUB (R131). -/
def execDpub (k : Cmpl) (pair : BitVec 3) : State → Result :=
  guarded streamRoom fun s => s.enqueue (.dpub false pair.toNat) k false .scratch .scratch []

/-- DFIL (R129). -/
def execDfil (k : Cmpl) (shd : Bool) (src dst : DSpace) : State → Result :=
  guarded streamRoom fun s => s.enqueue .dfil k shd src dst (patBytes s)

/-- DGTH (R130). -/
def execDgth (k : Cmpl) (shd : Bool) (src dst : DSpace) : State → Result :=
  guarded streamRoom fun s => s.enqueue .dgth k shd src dst []

/-- The stream status (Table STR-9). -/
def streamStatus (x : Tile) : DWord :=
  BitVec.ofNat 64 (packLow [(5, x.sq.length), (3, x.sp.length), (4, x.sCause), (4, 0), (16, x.sFaults), (32, x.sDone.toNat)])

/-- DSTA (R132); faults of its own cc stay recorded. -/
def execDsta (clr : Bool) (s : State) : Result :=
  let s' := s.write 2 (.stg .stream 0 (streamStatus s.myTile))
  .next (if clr then s'.onMyTile fun x =>
    if x.sNew.1 = s.cc then { x with sFaults := x.sNew.2, sCause := if x.sNew.2 = 0 then 0 else x.sCause }
    else { x with sFaults := 0, sCause := 0 } else s')

/-! ### Patterns -/

/-- Little-endian field of n bytes at a place of a descriptor. -/
def field (l : List Byte) (at_ n : Nat) : Nat := leNat ((l.drop at_).take n)

/-- A dimension of a pattern: count, source and destination strides. -/
abbrev Dim := Nat × Int × Int

/-- A dimension of a descriptor (Table STR-3). -/
def dimAt (l : List Byte) (k : Nat) : Dim :=
  (field l (8 + 24 * k) 4, (BitVec.ofNat 64 (field l (16 + 24 * k) 8)).toInt, (BitVec.ofNat 64 (field l (24 + 24 * k) 8)).toInt)

/-- A pattern: element size, dimensions, innermost first, and whether it is linear. -/
structure Pattern where
  esz  : Nat
  dims : List Dim
  lin  : Bool
  deriving DecidableEq, Repr

/-- The pattern of a DCPY or DFIL; none where R118 raises PATTERN. A d3 beyond the 32 bits of Table STR-7 counts with all its
bits (DESIGN CHOICE, log 31). -/
def SCmd.pattern (c : SCmd) : Option Pattern :=
  if c.d[2] = 0 then some ⟨128, [((c.d[3].toNat + 127) / 128, 128, 128)], true⟩
  else
    let h := field c.desc 0 8
    let nd := h % 8
    let esz := 2 ^ (h / 16 % 8)
    let dims := (List.range nd).map (dimAt c.desc)
    if c.desc = [] ∨ nd < 1 ∨ 5 < nd ∨ dims.any (·.1 == 0) ∨ dims.foldl (fun p d => p * d.1) esz ≠ c.d[3].toNat then none
    else some ⟨esz, dims, false⟩

/-- Offsets of the elements of a pattern in element order, innermost dimension fastest (R118). -/
def offsets : List Dim → List (Int × Int)
  | [] => [(0, 0)]
  | d :: l => (offsets l).flatMap fun o => (List.range d.1).map fun (i : Nat) => (o.1 + (i : Int) * d.2.1, o.2 + (i : Int) * d.2.2)

/-- A natural address modulo 2^64. -/
def mod64 (x : Int) : Nat := (x % (2 ^ 64 : Int)).toNat

/-- An element: source, destination, size. -/
abbrev Elem := Nat × Nat × Nat

/-- The elements of a pattern (R117, R118). -/
def SCmd.patElems (c : SCmd) (p : Pattern) : List Elem :=
  (offsets p.dims).map fun o => (mod64 (c.d[0].toNat + o.1), mod64 (c.d[1].toNat + o.2),
    if p.lin then min 128 (c.d[3].toNat - o.1.toNat) else p.esz)

/-- Lowest byte and first byte after the highest of a pattern's extent on one side (R118). -/
def extentOf (base : Nat) (p : Pattern) (n : Nat) (step : Dim → Int) : Option (Int × Int) :=
  if p.lin then (if n = 0 then none else some (base, (base : Int) + n))
  else
    let span (d : Dim) : Int := ((d.1 : Int) - 1) * step d
    some (p.dims.foldl (fun a d => a + min 0 (span d)) (base : Int),
      p.dims.foldl (fun a d => a + max 0 (span d)) (base : Int) + p.esz)

/-- Elements of a DGTH with the indices that its list holds now (R130). -/
def SCmd.gathers (c : SCmd) (list : List Byte) : List Elem :=
  let n := c.d[7].toNat
  (List.range (c.d[3].toNat / n)).map fun i =>
    (mod64 (c.d[0].toNat + (BitVec.ofNat 32 (field list (4 * i) 4)).toInt * n), mod64 (c.d[1].toNat + i * n), n)

/-! ### Unfolding -/

/-- An unfold descriptor (Table STR-8). -/
structure Unfold where
  h : Nat
  w : Nat
  cb : Nat
  kh : Nat
  kw : Nat
  sh : Nat
  sw : Nat
  dh : Nat
  dw : Nat
  pt : Nat
  pl : Nat
  ow : Nat
  oy0 : Nat
  ox0 : Nat
  pitch : Nat
  depth : Nat
  istr : Nat
  cred : Nat
  deriving DecidableEq, Repr

/-- The fields of an unfold descriptor. -/
def unfoldOf (l : List Byte) : Unfold where
  h := field l 0 2
  w := field l 2 2
  cb := field l 4 2
  kh := field l 8 1
  kw := field l 9 1
  sh := field l 10 1
  sw := field l 11 1
  dh := field l 12 1
  dw := field l 13 1
  pt := field l 14 1
  pl := field l 15 1
  ow := field l 16 2
  oy0 := field l 18 2
  ox0 := field l 20 2
  pitch := field l 24 4
  depth := field l 28 2
  istr := field l 32 4
  cred := field l 40 3

/-- Every field is in its range (Table STR-8, R127). -/
def Unfold.ok (u : Unfold) : Bool :=
  u.h != 0 && u.w != 0 && u.cb != 0 && u.kh != 0 && u.kw != 0 && u.sh != 0 && u.sw != 0 && u.dh != 0 && u.dw != 0 &&
  u.ow != 0 && u.ox0 < u.ow && u.pitch % 128 == 0 && u.kh * u.kw * u.cb ≤ u.pitch && 1 ≤ u.depth && u.depth ≤ 4096 &&
  u.w * u.cb ≤ u.istr

/-- The taps of row r in order: the source of each, none in the padding, and its place in the row (R128). -/
def Unfold.taps (u : Unfold) (base r : Nat) : List (Option Nat × Nat) :=
  let p := u.oy0 * u.ow + u.ox0 + r
  let oy := p / u.ow
  let ox := p % u.ow
  (List.range (u.kh * u.kw)).map fun t =>
    let iy : Int := (oy * u.sh + t / u.kw * u.dh : Nat) - (u.pt : Int)
    let ix : Int := (ox * u.sw + t % u.kw * u.dw : Nat) - (u.pl : Int)
    (if 0 ≤ iy ∧ iy < u.h ∧ 0 ≤ ix ∧ ix < u.w then some ((base + iy.toNat * u.istr + ix.toNat * u.cb) % 2 ^ 64) else none,
      t * u.cb)

/-- Cc of engine time per row (Table STR-1). -/
def Unfold.rowTime (u : Unfold) : Nat := u.kh * u.kw * ((u.cb + 127) / 128) + 1

/-! ### Start checks -/

/-- Where a command's remote tile is, in this package (R116). -/
def SCmd.remoteTile (c : SCmd) : Nat := stnOf (c.d[6].setWidth 16) * 256 + (c.d[6].extractLsb' 16 8).toNat

/-- The peer that d6 names. -/
def SCmd.peer (c : SCmd) : BitVec 16 := c.d[6].setWidth 16

/-- Whether a command has a remote space. -/
def SCmd.remote (c : SCmd) : Bool := c.src == .remote || c.dst == .remote

/-- Whether the peer can be reached (R116). -/
def State.peerOk (s : State) (p : BitVec 16) : Bool := stnOf p ≤ 7 && !s.absent p

/-- A range fault of an extent: the lowest byte outside the space (R122). -/
def rangeErr (code size : Nat) (e : Option (Int × Int)) : List (Nat × Nat) :=
  match e with
  | none => []
  | some (lo, hi) => if lo < 0 then [(code, mod64 lo)] else if (size : Int) < hi then [(code, max lo.toNat size)] else []

/-- The range check of an extent in a space (R115). -/
def State.spaceErr (s : State) (t : Nat) (sp : DSpace) (e : Option (Int × Int)) : List (Nat × Nat) :=
  match sp with
  | .global => []
  | .store => rangeErr 2 (s.cluster (clusterOf t)).storeSize e
  | .scratch | .remote => rangeErr 3 scratchSize e

/-- The window that holds a byte. -/
def Tile.window (x : Tile) (a : Nat) : Option Pair := (x.pairs.find? fun p => p.2.base ≤ a && a < p.2.base + p.2.len).map (·.2)

/-- The lowest byte outside every window among the bytes that shadowed writes name (R123). -/
def Tile.unshadowed (x : Tile) (l : List (Nat × Nat)) : Option Nat :=
  (l.filterMap fun e => ((List.range e.2).map (e.1 + ·)).find? fun a => (x.window a).isNone).min?

/-- The bytes that a command writes, as ranges; for a DUNF the slots of its ring. -/
def State.writesOf (s : State) (t : Nat) (c : SCmd) : List (Nat × Nat) :=
  match c.op with
  | .dcpy | .dfil => match c.pattern with | none => [] | some p => (c.patElems p).map (·.2)
  | .dgth => (c.gathers (s.engReadSince t c.d[2].toNat (4 * (c.d[3].toNat / c.d[7].toNat)) c.start)).map (·.2)
  | .dunf =>
    let u := unfoldOf c.desc
    (List.range (min u.depth c.d[3].toNat)).map fun r => (c.d[1].toNat + r * u.pitch, u.pitch)
  | .dpub .. => []

/-- Causes that depend on the kind of command: PATTERN, ranges, the errors of a DPUB. A descriptor or an index list that is
aligned but lies outside the scratchpad, and a CRED beyond the die's counters, give PATTERN; the extent of a DUNF's source
is its whole image, H rows of ISTR bytes (DESIGN CHOICE, log 31). -/
def State.opErrs (s : State) (t : Nat) (c : SCmd) : List (Nat × Nat) :=
  match c.op with
  | .dcpy | .dfil =>
    (match c.pattern with
    | none => [(4, c.d[2].toNat)]
    | some p =>
      let n := c.d[3].toNat
      (if c.op = .dfil then [] else s.spaceErr t c.src (extentOf c.d[0].toNat p n (·.2.1))) ++
      s.spaceErr t c.dst (extentOf c.d[1].toNat p n (·.2.2)))
  | .dgth =>
    let n := c.d[7].toNat
    (if n = 0 ∨ 4096 < n ∨ c.d[3].toNat % n ≠ 0 then [(4, n)]
    else if c.d[2].toNat % 4 ≠ 0 ∨ scratchSize < c.d[2].toNat + 4 * (c.d[3].toNat / n) then [(4, c.d[2].toNat)]
    else []) ++ s.spaceErr t c.dst (if c.d[3] = 0 then none else some (c.d[1].toNat, (c.d[1].toNat : Int) + c.d[3].toNat))
  | .dunf =>
    let u := unfoldOf c.desc
    if c.desc = [] ∨ u.ok = false then [(4, c.d[2].toNat)]
    else (if s.ctrOk (dieOf t) u.cred = false ∨ scratchSize < c.d[1].toNat + u.depth * u.pitch then [(4, c.d[2].toNat)]
      else []) ++ if c.d[3] = 0 then [] else s.spaceErr t c.src (some (c.d[0].toNat, (c.d[0].toNat : Int) + (u.h - 1) * u.istr + u.w * u.cb))
  | .dpub init k =>
    let cur := SMap.find (s.tile t).pairs k
    if !init then (match cur with | none => [(6, k)] | some _ => [])
    else if c.d[3] = 0 then []
    else
      let b := c.d[0].toNat
      let a := c.d[1].toNat
      let n := c.d[3].toNat
      let apart (x y m : Nat) : Bool := x + n ≤ y || y + m ≤ x
      let others := (s.tile t).pairs.filter (·.1 != k)
      let free (x : Nat) : Bool := others.all fun p => apart x p.2.base p.2.len && apart x p.2.alt p.2.len
      if cur.isSome ∨ b % 128 ≠ 0 ∨ a % 128 ≠ 0 ∨ n % 128 ≠ 0 ∨ scratchSize < max a b + n ∨ apart a b n = false ∨
          free a = false ∨ free b = false then [(6, b)]
      else []

/-- The start faults of a command (R122). -/
def State.startErrs (s : State) (t : Nat) (c : SCmd) : List (Nat × Nat) :=
  let op := s.opErrs t c
  let peer := if c.remote && !s.peerOk c.peer then [(7, c.peer.toNat)] else []
  let arv := if c.cmpl = .arrive ∧ (c.d[4].toNat % 16 ≠ 0 ∨ scratchSize < c.d[4].toNat + 16) then [(5, c.d[4].toNat)] else []
  let shd := if !c.shd || !op.isEmpty || (c.dst == .remote && (!peer.isEmpty || !s.ownPackage c.peer)) then []
    else match (s.tile (if c.dst = .remote then c.remoteTile else t)).unshadowed (s.writesOf t c) with
      | none => []
      | some a => [(6, a)]
  op ++ arv ++ shd ++ peer

/-- The start fault of lowest code (R122). -/
def lowestErr (l : List (Nat × Nat)) : Option (Nat × Nat) :=
  l.foldl (fun o e => match o with
    | none => some e
    | some f => if e.1 < f.1 ∨ (e.1 = f.1 ∧ e.2 < f.2) then some e else some f) none

/-! ### Bounds -/

/-- The base of a command's bound without its global pages (Table STR-1). -/
def State.baseBound (s : State) (t : Nat) (c : SCmd) : Nat :=
  max (if c.src = .store ∨ c.dst = .store then 64 else 16)
    (if c.remote then 2 * s.transit (dieOf t) c.peer + 64 else 0)

/-- The elements of a command now. -/
def State.elems (s : State) (t : Nat) (c : SCmd) : List Elem :=
  match c.op with
  | .dcpy | .dfil => match c.pattern with | none => [] | some p => c.patElems p
  | .dgth => c.gathers (s.engReadSince t c.d[2].toNat (4 * (c.d[3].toNat / c.d[7].toNat)) c.start)
  | .dunf | .dpub .. => []

/-- The bound of a command (Table STR-1). -/
def State.streamBound (s : State) (t : Nat) (c : SCmd) : Nat :=
  let l := s.elems t c
  let g := l.foldl (fun b e =>
    max (max b (if c.src = .global ∧ c.op ≠ .dfil then s.pagesBound (clusterOf t) e.1 e.2.2 else 0))
      (if c.dst = .global then s.pagesBound (clusterOf t) e.2.1 e.2.2 else 0)) 0
  max (s.baseBound t c) g + (l.map fun e => (e.2.2 + 127) / 128).foldl (· + ·) 0

/-! ### Elements -/

/-- Read an element (R113). -/
def State.readElem (s : State) (t : Nat) (c : SCmd) (a n : Nat) : Except ElemErr (State × List Byte × Option Nat) :=
  match c.src with
  | .global => s.engReadGlobal (clusterOf t) a n
  | .store => .ok (s, (s.cluster (clusterOf t)).store.reads a n, none)
  | .scratch => .ok (s.spendOn t, s.engReadSince t a n c.start, none)
  | .remote =>
    if s.ownPackage c.peer then .ok (s.spendOn c.remoteTile, s.engReadSince c.remoteTile a n c.start, none)
    else .ok (s.spend, (List.range n).map fun i => Config.freeByte (s.fresh * 0x400000 + a + i), none)

/-- Engine writes to a scratchpad; shadowed ones reach the shadow of their window (R123). That of an isolated tile no party
reaches (R317). -/
def Tile.engWrite (x : Tile) (shd : Bool) (a : Nat) (bs : List Byte) : Tile :=
  if x.isolated then x
  else if !shd then x.writeBytes a bs
  else (bs.zipIdx).foldl (fun y b =>
    match y.window (a + b.2) with
    | none => y
    | some p => y.writeBytes (p.alt + (a + b.2 - p.base)) [b.1]) x

/-- Write an element (R113, R115). -/
def State.writeElem (s : State) (t : Nat) (c : SCmd) (a : Nat) (bs : List Byte) : Except ElemErr State :=
  match c.dst with
  | .global => s.engWriteGlobal (clusterOf t) a bs
  | .store => .ok (s.onCluster (clusterOf t) fun x => { x with store := x.store.writes a bs })
  | .scratch => .ok (s.onTile t fun x => x.engWrite c.shd a bs)
  | .remote =>
    if s.ownPackage c.peer then .ok (s.onTile c.remoteTile fun x => x.engWrite c.shd a bs)
    else .ok (s.emit (.packet c.peer (c.d[6].extractLsb' 16 8).toNat a c.shd bs))

/-- Progress of a command over its elements: the state, the first element fault, the number of faults, bytes so far, and the
words of global memory that it has written. -/
structure Progress where
  s     : State
  err   : Option ElemErr
  bad   : Nat
  done  : Nat
  words : SMap Word
  deriving DecidableEq, Repr

/-- An element faults. -/
def Progress.fail (p : Progress) (s : State) (n : Nat) (e : ElemErr) : Progress :=
  { p with s := s, err := p.err.or (some e), bad := p.bad + 1, done := p.done + n }

/-- Copy one element; one that faults keeps its old bytes (R122), and one with an uncorrectable line delivers zeros (R79). -/
def copyElem (t : Nat) (c : SCmd) (size : Nat) (p : Progress) (e : Elem) : Progress :=
  let s := p.s
  let n := e.2.2
  if c.op = .dgth ∧ c.src ≠ .global ∧ size < e.1 + n then p.fail s n (10, 0, e.1)
  else
    let src := if c.op = .dfil then
        .ok (s, (List.range n).map fun i => (c.d[7].extractLsb' (8 * ((p.done + i) % 8)) 8), none)
      else s.readElem t c e.1 n
    match src with
    | .error x => p.fail s n x
    | .ok (s, bs, bad) =>
      match s.writeElem t c e.2.1 bs with
      | .error x => p.fail s n x
      | .ok s =>
        let words := if c.dst = .global && (s.strand c.org.tile c.org.strand).folding then putWords p.words e.2.1 bs else p.words
        let p := { p with s := s, words := words }
        match bad with
        | none => { p with done := p.done + n }
        | some a => p.fail s n (8, 0, a)

/-! ### Completion -/

/-- Where a command's completion target lies (R116). -/
def SCmd.targetTile (c : SCmd) (t : Nat) : Nat := if c.dst = .remote then c.remoteTile else t

/-- Whether the target lies in another package. -/
def SCmd.targetAway (s : State) (c : SCmd) : Bool := c.dst == .remote && !s.ownPackage c.peer

/-- Sizes of the arrivals of n bytes (R120). -/
def arrivalSizes (n : Nat) : List Nat :=
  (List.range ((n + 511) / 512)).map fun i => min 512 (n - 512 * i)

/-- The arrivals of a command (R120). -/
def State.arrive (s : State) (t : Nat) (c : SCmd) (sizes : List Nat) : State :=
  if c.targetAway s then s.emit (.arrive c.peer (c.d[6].extractLsb' 16 8).toNat c.d[4].toNat (sizes.foldl (· + ·) 0))
  else s.each sizes fun s b => s.sched s.cc slotArrive (.arrival (c.targetTile t) c.d[4].toNat b)

/-- The completion add of a command; false when it is refused (R119, R270). -/
def State.completionAdd (s : State) (t : Nat) (c : SCmd) : State × Bool :=
  let id := (c.d[4].setWidth 24).toNat
  if c.cmpl ≠ .count then (s, true)
  else if c.targetAway s then (s.emit (.adds c.peer id c.d[5]), true)
  else match s.ctrAdd (dieOf (c.targetTile t)) id c.d[5] with
    | some s => (s, true)
    | none => (s, false)

/-- Record a faulting command and give its strand the trap (R122). -/
def State.streamFault (s : State) (t : Nat) (c : SCmd) (e : ElemErr) (n : Nat) (refused : Bool) : State :=
  let s := s.onTile t fun x => { x with
    sFaults := min (x.sFaults + 1) 0xFFFF, sCause := e.1, sNew := (s.cc, if x.sNew.1 = s.cc then x.sNew.2 + 1 else 1) }
  s.fault c.org .stream 3 (BitVec.ofNat 32 (packLow [(4, e.1), (4, e.2.1), (16, min n 0xFFFF), (1, refused.toNat)]))
    (BitVec.ofNat 64 e.2.2)

/-- A command leaves the engine; the next may start. -/
def State.streamLeave (s : State) (t : Nat) (c : SCmd) : State :=
  let s := s.onTile t fun x => { x with sp := x.sp.filter (·.id != c.id) }
  (s.finish c.org 3 c.org.seq).sched s.cc slotBegin (.streamCommandStart t)

/-- A command completes (R119, R122). -/
def State.streamDone (s : State) (t : Nat) (c : SCmd) (err : Option ElemErr) (n : Nat) : State :=
  let (s, ok) := s.completionAdd t c
  let s := s.onTile t fun x => { x with sDone := x.sDone + 1 }
  let s := match err, ok with
    | some e, _ => s.streamFault t c e n (!ok)
    | none, false => s.streamFault t c (9, 0, (c.d[4].setWidth 24).toNat) 0 false
    | none, true => s
  s.streamLeave t c

/-- The completion add waits for the releases that its strand had issued (R262). -/
def State.streamGated (s : State) (c : SCmd) : Bool :=
  (c.cmpl == .count || (match c.op with | .dpub init _ => !init | _ => false)) && (s.strand c.org.tile c.org.strand).gated c.gate

/-- A command of a tile that is in progress. -/
def Tile.inProgress (x : Tile) (id : Nat) : Option SCmd := x.sp.find? (·.id == id)

/-- STREAM_COMMAND_COMPLETE (R114, R119): a command's accesses are performed and its completion is signalled. -/
def execStreamCommandComplete (t cmd : Nat) (s : State) : Result :=
  .next (match (s.tile t).inProgress cmd with
  | none => s
  | some c =>
    if s.streamGated c then s.sched (s.cc + 1) (slotStream t) (.streamCommandComplete t cmd)
    else match c.op with
      | .dpub _ k =>
        let p : SMap Pair := if c.d[3] = 0 then SMap.del (s.tile t).pairs k
          else SMap.put (s.tile t).pairs k ⟨c.d[0].toNat, c.d[1].toNat, c.d[3].toNat, false⟩
        (s.onTile t fun x => { x with pairs := p }).streamDone t c none 0
      | .dunf => s.streamDone t c c.efault c.nfault
      | _ =>
        let size := if c.src = .store then (s.cluster (clusterOf t)).storeSize else scratchSize
        let s := s.ownFirst c.org.tile c.org.strand
        let r := (s.elems t c).foldl (copyElem t c size) ⟨s.spendOn t, none, 0, 0, []⟩
        let s := r.s.onStrand c.org.tile c.org.strand fun x => x.foldWords r.words
        let s := if c.cmpl = .arrive then s.arrive t c (arrivalSizes c.d[3].toNat) else s
        s.streamDone t c r.err r.bad)

/-! ### Starts -/

/-- Whether a command is a DPUB. -/
def SOp.isDpub (o : SOp) : Bool := match o with | .dpub .. => true | _ => false

/-- Whether the head of a queue may start (R112, R89): the command four entries ahead of it, and all before that, have
completed, so that at most four are in progress. -/
def State.mayStart (s : State) (t : Nat) (c : SCmd) : Bool :=
  let x := s.tile t
  let k := s.cluster (clusterOf t)
  x.sp.all (fun p => c.id < p.id + 4) && !(x.sp.any (·.op.isDpub)) && (!c.op.isDpub || x.sp.isEmpty) &&
    !(k.busy && c.split == k.splits && (c.src == .store || c.dst == .store))

/-- A command in progress from this cc on, with what the credit counter of an unfolding holds (R127). -/
def State.begun (s : State) (t : Nat) (c : SCmd) : SCmd :=
  { c with start := s.cc, c0 := if c.op = .dunf then s.ctrGet (dieOf t) (unfoldOf c.desc).cred else 0 }

/-- What a command does first once it is in progress. -/
def State.streamFirst (s : State) (t : Nat) (c : SCmd) : State :=
  match c.op with
  | .dpub false _ => s.soon 16 (slotStream t) (.publishSwap t c.id)
  | .dpub true _ => s.soon 16 (slotStream t) (.streamCommandComplete t c.id)
  | .dunf =>
    if c.d[3] = 0 then s.sched (s.cc + 1) (slotStream t) (.streamCommandComplete t c.id)
    else
      let u := unfoldOf c.desc
      let base := max (s.baseBound t c) (if c.src = .global then
        s.pagesBound (clusterOf t) c.d[0].toNat ((u.h - 1) * u.istr + u.w * u.cb) else 0)
      s.soon (base + u.rowTime - 1) slotRow (.dunfRow t c.id 0)
  | .dcpy | .dfil | .dgth =>
    if c.d[3] = 0 then s.sched (s.cc + 1) (slotStream t) (.streamCommandComplete t c.id)
    else s.soon (s.streamBound t c) (slotStream t) (.streamCommandComplete t c.id)

/-- STREAM_COMMAND_START (R112, R122): the head of the queue starts if it may; a start fault abandons it. -/
def execStreamCommandStart (t : Nat) (s : State) : Result :=
  .next (match (s.tile t).sq with
  | [] => s
  | c :: rest =>
    if !s.mayStart t c then s
    else
      let s := (s.onTile t fun x => { x with sq := rest }).stir t
      let c := s.begun t c
      let s := if c.remote then s.carry (s.queueOf t) c.peer else s
      match lowestErr (s.startErrs t c) with
      | some e => (s.streamFault t c (e.1, 0, e.2) 0 false).streamLeave t c
      | none => ((s.sched s.cc slotBegin (.streamCommandStart t)).onTile t fun x => { x with sp := x.sp ++ [c] }).streamFirst t c)

/-! ### Arrivals -/

/-- An arrival of b bytes at a word: COUNT and GEN (R120). -/
def arriveWord (target count gen b : Nat) : Nat × Nat :=
  let c := (count + b) % 2 ^ 32
  if target = 0 then (c, gen) else (c % target, (gen + c / target) % 2 ^ 32)

/-- ARRIVAL (R120): an arrival word counts bytes, and strands that wait for its generation become ready (R277). -/
def execArrival (t addr bytes : Nat) (s : State) : Result :=
  let x := s.tile t
  let r := arriveWord (x.readNat addr 4) (x.readNat (addr + 4) 4) (x.readNat (addr + 8) 4) bytes
  let s := s.onTile t fun x => if x.isolated then x else x.writeBytes (addr + 4) (leBytes 4 r.1 ++ leBytes 4 r.2)
  let hit (k : Nat) : Bool := !(s.strand t k).wake && match (s.strand t k).block with
    | some (.arrival a g) => genReached ((s.tile t).genAt a) g
    | _ => false
  .next (s.each (strandIds.filter hit) fun s k => s.soon 4 12 (.waitSatisfied t k))

/-! ### Unfolding rows -/

/-- One tap of a row (R128): bytes of a pixel, or zeros. -/
def tapElem (t : Nat) (c : SCmd) (cb row : Nat) (p : Progress) (e : Option Nat × Nat) : Progress :=
  match e.1 with
  | none => { p with s := p.s.onTile t fun x => x.engWrite c.shd (row + e.2) (List.replicate cb 0) }
  | some a =>
    match p.s.readElem t c a cb with
    | .error x => p.fail p.s cb x
    | .ok (s, bs, bad) =>
      let s := s.onTile t fun x => x.engWrite c.shd (row + e.2) bs
      match bad with
      | none => { p with s := s }
      | some a => p.fail s cb (8, 0, a)

/-- DUNF_ROW (R128): the next row of an unfolding, once it has its credit. -/
def execDunfRow (t cmd row : Nat) (s : State) : Result :=
  .next (match (s.tile t).inProgress cmd with
  | none => s
  | some c =>
    let u := unfoldOf c.desc
    if row ≠ c.row then s
    else if u.depth ≤ row ∧ (s.ctrGet (dieOf t) u.cred).toNat < c.c0.toNat + row - u.depth + 1 then s
    else
      let base := c.d[1].toNat + row % u.depth * u.pitch
      let used := u.kh * u.kw * u.cb
      let s := s.ownFirst c.org.tile c.org.strand
      let r := (u.taps c.d[0].toNat row).foldl (tapElem t c u.cb base) ⟨s.spendOn t, c.efault, c.nfault, 0, []⟩
      let s := r.s.onTile t fun x => x.engWrite c.shd (base + used) (List.replicate (u.pitch - used) 0)
      let s := s.onTile t fun x => { x with sp := x.sp.map fun y =>
        if y.id == cmd then { y with row := row + 1, efault := r.err, nfault := r.bad } else y }
      let s := if c.cmpl = .arrive then s.arrive t c [u.pitch] else s
      if row + 1 = c.d[3].toNat then s.sched (s.cc + 1) (slotStream t) (.streamCommandComplete t cmd)
      else s.soon u.rowTime slotRow (.dunfRow t cmd (row + 1)))

/-! ### Publishing -/

/-- The cc until which a STRM in progress reads a window (R124). -/
def Tile.strmReads (x : Tile) (p : Pair) (cc : Nat) : Option Nat :=
  (x.arr.filterMap fun c =>
    let n := actBytes c.fmt x.bankA.fmt
    if c.op == .strm && cc < c.start + c.beats &&
        (rowAddrs (c.addr, c.pitch, (if c.ring = 0 then c.beats else min c.beats c.ring), n)).any fun a =>
          a < p.base + p.len && p.base < a + n
    then some (c.start + c.beats) else none).max?

/-- PUBLISH_SWAP (R124): the pair's regions change places at one cc, after the beats of a STRM that reads the window and
after the releases its strand had issued (R262); the command then completes. -/
def execPublishSwap (t cmd : Nat) (s : State) : Result :=
  .next (match (s.tile t).inProgress cmd with
  | none => s
  | some c =>
    match c.op with
    | .dpub _ k =>
      let p := SMap.get ⟨0, 0, 0, false⟩ (s.tile t).pairs k
      if s.streamGated c then s.sched (s.cc + 1) (slotStream t) (.publishSwap t cmd)
      else match (s.tile t).strmReads p s.cc with
        | some e => s.sched (max e (s.cc + 1)) (slotStream t) (.publishSwap t cmd)
        | none => (s.onTile t fun x => { x with pairs := SMap.upd (fun p => { p with pub := !p.pub }) x.pairs k }).streamDone t c none 0
    | _ => s)

end Sys2Proof.Machine
end

