-- ==== Sys2Proof/Machine/Kiln.lean ====
section
/-! DEFINITION. The kilns of a cluster (04_stack R91 to R96), class N, and the move of the way split (R87 to R89). A kiln
command reads and writes at its start and signals its completion by its bound. -/
namespace Sys2Proof.Machine

/-! ### Division and square root in FP32 (R93) -/

/-- Division, rounded once (R50). -/
def fpDiv (p : Nat) (rm : Rnd) (a b : Nat) : Flagged Nat :=
  match fpRead p a, fpRead p b with
  | .nan x, y => (fpNaN p, fpSig [.nan x, y])
  | x, .nan y => (fpNaN p, fpSig [x, .nan y])
  | .inf _, .inf _ => fpInvalid p
  | .inf x, .fin y _ _ => (fpInf p (x != y), .zero)
  | .fin x _ _, .inf y => (fpZero p (x != y), .zero)
  | .fin x m e, .fin y n f =>
    if n = 0 then (if m = 0 then fpInvalid p else (fpInf p (x != y), .divZero))
    else if m = 0 then (fpZero p (x != y), .zero)
    else
      let k := 2 * p + 8 + bitLen n
      fpRound p rm (x != y) (m * 2 ^ k / n) (e - f - k) (m * 2 ^ k % n != 0)

/-- Square root, rounded once (R50). -/
def fpSqrt (p : Nat) (rm : Rnd) (a : Nat) : Flagged Nat :=
  match fpRead p a with
  | .nan x => (fpNaN p, fpSig [.nan x])
  | .inf false => (fpInf p false, .zero)
  | .inf true => fpInvalid p
  | .fin neg m e =>
    if m = 0 then (fpZero p neg, .zero)
    else if neg then fpInvalid p
    else
      let k : Nat := 2 * p + 8 + (if (e - (2 * p + 8 : Nat)) % 2 = 0 then 0 else 1)
      let y := m * 2 ^ k
      let r := isqrt y
      fpRound p rm false r ((e - k) / 2) (r * r != y)

/-! ### Issue -/

/-- Room in the cluster's kiln queue (R91). -/
def kilnRoom (s : State) : Check := need ((s.cluster s.myCluster).kq.length < 8) (.block .kilnQueue)

/-- An N word enters the queue (R91). -/
def State.toKiln (s : State) (op : KOp) (cnt bf : Bool) : State :=
  let (o, s) := s.command 7 false
  let x := s.me
  let c : KCmd := ⟨op, cnt, bf, x.n, o, x.relNext, (s.cluster s.myCluster).splits, .zero, none, 0⟩
  (s.onCluster s.myCluster fun y => { y with kq := y.kq ++ [c] }).sched s.cc slotKilnStart (.kilnCommandStart s.myCluster)

/-- UPCF (R92). -/
def execUpcf : State → Result := guarded kilnRoom fun s => s.toKiln .upcf false false
/-- UPDM (R94). -/
def execUpdm (mom cnt bf : Bool) : State → Result := guarded kilnRoom fun s => s.toKiln (.updm mom) cnt bf
/-- UPMO (R93). -/
def execUpmo (cnt bf : Bool) : State → Result := guarded kilnRoom fun s => s.toKiln .upmo cnt bf

/-- The kiln status (Table MEM-10). -/
def kilnStatus (x : Cluster) : DWord :=
  BitVec.ofNat 64 (packLow [(1, x.kFlags.nv.toNat), (1, x.kFlags.ov.toNat), (1, x.kFlags.cl.toNat), (1, x.krun.isSome.toNat),
    (4, 0), (4, x.kq.length), (4, 0), (16, x.kSkip), (32, x.kDone.toNat)])

/-- UPST (R96); a flag set in its own cc stays set. -/
def execUpst (clr : Bool) (s : State) : Result :=
  let s' := s.write 2 (.stg .kiln 0 (kilnStatus (s.cluster s.myCluster)))
  .next (if clr then s'.onCluster s.myCluster fun x => { x with kFlags := if x.kNew.1 = s.cc then x.kNew.2 else .zero } else s')

/-! ### Checks at the start -/

/-- Whether a command is UPDM. -/
def KCmd.masters (c : KCmd) : Bool := match c.op with | .updm _ => true | _ => false
/-- Whether a command uses moments. -/
def KCmd.moments (c : KCmd) : Bool := match c.op with | .updm m => m | .upmo => true | .upcf => false
/-- Bytes of a gradient. -/
def KCmd.gsize (c : KCmd) : Nat := if c.bf then 2 else 4
/-- Element count. -/
def KCmd.count (c : KCmd) : Nat := c.n[6].toNat

/-- How a moment word translates for a kiln: the stack offset, a fault, or a page that is not local (R95, R111). -/
inductive Moment where
  | at_ (off : Nat)
  | fault (cause : Nat)
  | away
  deriving DecidableEq, Repr

/-- The moment word at an address; UPMO writes it. -/
def State.moment (s : State) (c va : Nat) (write : Bool) : Moment :=
  match s.engXlate c va with
  | .error f => .fault f.1
  | .ok e =>
    if e.mode ≠ 0 ∨ e.peer ≠ s.peerOf (c / 32) then .away
    else if write ∧ e.ro then .fault 2
    else if write ∧ s.shared (c / 32) (e.offset va) then .fault 3
    else .at_ (e.offset va)

/-- The 64 KiB ranges of a moment array (R95). -/
def momentPages (base n : Nat) : List Nat := (pageCuts base (4 * n)).map (·.1)

/-- The first address of a moment array whose page is not local (R95). -/
def State.momentAway (s : State) (c base n : Nat) : Option Nat := (momentPages base n).find? fun a => s.moment c a false == .away

/-- The kiln-range checks in their order: the address or value that fails first (R95). -/
def State.kilnErr (s : State) (c : Nat) (k : KCmd) : Option DWord :=
  let n := k.count
  let size := (s.cluster c).storeSize
  let m := k.masters
  let mo := k.moments
  let first (base : DWord) : DWord := BitVec.ofNat 64 (max base.toNat size)
  let bad : List (Bool × DWord) :=
    [(m && k.n[0].toNat % 2 != 0, k.n[0]), (k.n[3].toNat % k.gsize != 0, k.n[3]), (mo && k.n[4].toNat % 4 != 0, k.n[4]),
     (mo && k.n[5].toNat % 4 != 0, k.n[5]), (16777216 < n, k.n[6]),
     (m && n != 0 && size < k.n[0].toNat + 2 * n, first k.n[0]), (n != 0 && size < k.n[3].toNat + k.gsize * n, first k.n[3])]
  match bad.find? (·.1) with
  | some b => some b.2
  | none =>
    if !mo then none
    else ((s.momentAway c k.n[4].toNat n).or (s.momentAway c k.n[5].toNat n)).map (BitVec.ofNat 64)

/-! ### Elements -/

/-- Progress of a kiln command: the state and the command with its flags, first fault and skips. -/
abbrev KRun := State × KCmd

/-- Set kiln flags from floating-point flags (R93). -/
def KRun.flag (r : KRun) (f : Flags) : KRun := (r.1, { r.2 with fl := r.2.fl.or ⟨false, f.ov, f.nv⟩ })

/-- NV for an element that is left as it is. -/
def KRun.invalid (r : KRun) : KRun := r.flag .invalid

/-- CL for an element that clamps. -/
def KRun.clamped (r : KRun) : KRun := (r.1, { r.2 with fl := r.2.fl.or { EngFlags.zero with cl := true } })

/-- The first element fault stays (R95). -/
def KRun.err (r : KRun) (e : Nat × Nat × Nat) : KRun := (r.1, { r.2 with err := r.2.err.or (some e) })

/-- NaN or infinity. -/
def fpWild (a : Nat) : Bool := match fpRead 24 a with | .fin .. => false | _ => true

/-- Gradient i as f32 (R93). -/
def KCmd.gradient (k : KCmd) (x : Cluster) (i : Nat) : Nat :=
  let a := k.n[3].toNat + k.gsize * i
  if k.bf then leNat (x.store.reads a 2) * 65536 else leNat (x.store.reads a 4)

/-- UPMO's element (R93): the new moments with their flags, or none for an element that stays. -/
def momentStep (cfg : KilnCfg) (g m1 m2 : Nat) : Option (Nat × Nat × Flags) :=
  if fpWild g then none
  else
    let d := fpSub 24 .rne g m1
    let a := fpFma 24 .rne cfg.c1.toNat d.1 m1
    let q := fpMul 24 .rne g g
    let e := fpSub 24 .rne q.1 m2
    let b := fpFma 24 .rne cfg.c2.toNat e.1 m2
    some (a.1, b.1, Flags.all [d.2, a.2, q.2, e.2, b.2])

/-- The integer nearest to t * 256 (R94). -/
def scaled (t : Nat) : Int :=
  match fpRead 24 t with
  | .fin neg m e => signed neg (roundAt .rne neg m (e + 8) 0 false).1
  | _ => 0

/-- A clamped integer and whether it clamped. -/
def clampTo (lo hi x : Int) : Int × Bool := if x < lo then (lo, true) else if hi < x then (hi, true) else (x, false)

/-- What UPDM does to one master (R94): its new value, whether it clamped; none for NaN or an infinity. -/
def masterStep (decay w : Nat) (t : Nat) : Option (Nat × Bool) :=
  if fpWild t then none
  else
    let d := clampTo (-32767) 32767 (scaled t)
    let m := clampTo 1 32767 ((w % 0x8000 : Nat) - (if w < 0x8000 then d.1 else -d.1) - decay)
    some (w / 0x8000 * 0x8000 + m.1.toNat, d.2 || m.2)

/-- A moment word as it stood at home at the start s0, and whether its line is uncorrectable, in which case it reads as
zero (R79). -/
def readMoment (s0 : State) (d off : Nat) (va : Nat) (r : KRun) : KRun × Nat :=
  let r := (r.1.noteRead d off 4, r.2)
  if s0.isBad d off 4 then (KRun.err r (4, 0, va), 0) else (r, leNat (s0.memRead d off 4))

/-- Element i of a UPDM once its moments, if any, are known. -/
def masterElem (s0 : State) (c : Nat) (i u0 : Nat) (fl : Flags) (r : KRun) : KRun :=
  let x := s0.cluster c
  let cfg := x.kcfg
  let a := r.2.n[0].toNat + 2 * i
  let w := leNat (x.store.reads a 2)
  if w = 0 then r
  else if w = 0x8000 then r.invalid
  else
    let t := fpMul 24 .rne cfg.lr.toNat u0
    let r := r.flag (fl.or t.2)
    if fpWild u0 then r.invalid
    else match masterStep cfg.decay.toNat w t.1 with
      | none => r.invalid
      | some m =>
        let r := if m.2 then r.clamped else r
        (r.1.onCluster c fun x => { x with store := x.store.writes a (leBytes 2 m.1) }, r.2)

/-- Element i of a command, which reads masters, gradients and moments as they stood at its start s0 (R93, R94, R95). -/
def kilnElem (s0 : State) (c : Nat) (r : KRun) (i : Nat) : KRun :=
  let k := r.2
  let d := c / 32
  if !k.moments then masterElem s0 c i (k.gradient (s0.cluster c) i) .zero r
  else
    let a1 := k.n[4].toNat + 4 * i
    let a2 := k.n[5].toNat + 4 * i
    let w := !k.masters
    let skip (f a : Nat) : KRun := KRun.err (r.1, { r.2 with skip := r.2.skip + 1 }) (2, f, a)
    match s0.moment c a1 w, s0.moment c a2 w with
    | .fault f, _ => skip f a1
    | _, .fault f => skip f a2
    | .at_ o1, .at_ o2 =>
      let x := s0.cluster c
      let w0 := leNat (x.store.reads (k.n[0].toNat + 2 * i) 2)
      if k.masters ∧ w0 = 0 then r
      else if k.masters ∧ w0 = 0x8000 then r.invalid
      else
        let (r, m1) := readMoment s0 d o1 a1 r
        let (r, m2) := readMoment s0 d o2 a2 r
        if k.masters then
          let q := fpSqrt 24 .rne m2
          let b := fpAdd 24 .rne q.1 x.kcfg.eps.toNat
          let u := fpDiv 24 .rne m1 b.1
          masterElem s0 c i u.1 (Flags.all [q.2, b.2, u.2]) r
        else match momentStep x.kcfg (k.gradient x i) m1 m2 with
          | none => r.invalid
          | some m =>
            let r := r.flag m.2.2
            let b1 := leBytes 4 m.1
            let b2 := leBytes 4 m.2.1
            let s := (r.1.memWrite d o1 b1).memWrite d o2 b2
            (s.onStrand k.org.tile k.org.strand fun x => (x.foldBytes a1 b1).foldBytes a2 b2, r.2)
    | _, _ => r

/-! ### Start and completion -/

/-- The bound of a command (R95). -/
def KCmd.bound (k : KCmd) : Nat :=
  if k.count = 0 ∨ k.op = .upcf then 1 else if k.moments then 512 + (k.count + 7) / 8 else 64 + (k.count + 31) / 32

/-- The strand of a kiln command has its trap (R95). -/
def State.kilnFault (s : State) (k : KCmd) (cause x skip : Nat) (refused : Bool) (addr : Nat) : State :=
  s.fault k.org .kiln 7 (BitVec.ofNat 32 (packLow [(4, cause), (4, x), (1, refused.toNat), (7, 0), (16, min skip 0xFFFF)]))
    (BitVec.ofNat 64 addr)

/-- A kiln command leaves the engine and the next may start (R91). -/
def State.kilnLeave (s : State) (c : Nat) (k : KCmd) : State :=
  ((s.onCluster c fun x => { x with krun := none }).finish k.org 7 k.org.seq).sched s.cc slotBegin (.kilnCommandStart c)

/-- KILN_COMMAND_START (R91, R92, R95): the head of the queue starts when no command runs and no way split holds it. -/
def execKilnCommandStart (c : Nat) (s : State) : Result :=
  let x := s.cluster c
  .next (match x.krun, x.kq with
  | none, k :: rest =>
    if x.busy ∧ k.split = x.splits ∧ k.op ≠ .upcf then s
    else
      let s := s.onCluster c fun x => { x with kq := rest, krun := some k }
      let s := s.each (tilesOf c) fun s t => s.wakeWhere t (· == .kilnQueue)
      if k.op = .upcf then
        if (k.n[2].extractLsb' 16 48) ≠ 0 then (s.kilnFault k 1 0 0 false k.n[2].toNat).kilnLeave c k
        else (s.onCluster c fun x => { x with kcfg :=
          ⟨k.n[0].setWidth 32, k.n[0].extractLsb' 32 32, k.n[1].setWidth 32, k.n[1].extractLsb' 32 32, k.n[2].setWidth 16⟩ }).kilnLeave c k
      else match s.kilnErr c k with
        | some a => (s.kilnFault k 1 0 0 false a.toNat).kilnLeave c k
        | none =>
          let s := s.ownFirst k.org.tile k.org.strand
          let s := if k.moments then
              s.each (momentPages k.n[4].toNat k.count ++ momentPages k.n[5].toNat k.count) fun s a => s.touch c (BitVec.ofNat 64 a)
            else s
          let r := (List.range k.count).foldl (kilnElem s c) (s, k)
          (r.1.onCluster c fun x => { x with krun := some r.2 }).soon k.bound (slotKiln c) (.kilnCommandComplete c)
  | _, _ => s)

/-- KILN_COMMAND_COMPLETE (R95, R262): flags, skips and the count; then the completion add, after the releases that its
strand had issued; then at most one trap record. -/
def execKilnCommandComplete (c : Nat) (s : State) : Result :=
  .next (match (s.cluster c).krun with
  | none => s
  | some k =>
    if k.cnt && (s.strand k.org.tile k.org.strand).gated k.gate then s.sched (s.cc + 1) (slotKiln c) (.kilnCommandComplete c)
    else
      let s := s.onCluster c fun x => { x with
        kNew := (s.cc, if x.kNew.1 = s.cc then x.kNew.2.or k.fl else k.fl), kFlags := x.kFlags.or k.fl, kDone := x.kDone + 1, kSkip := min (x.kSkip + k.skip) 0xFFFF }
      let id := ctrId k.n[7]
      let (s, ok) := if !k.cnt then (s, true) else match s.ctrAdd (c / 32) id ((k.n[7].extractLsb' 32 32).setWidth 64) with
        | some s => (s, true)
        | none => (s, false)
      let s := match k.err, ok with
        | some e, _ => s.kilnFault k e.1 e.2.1 k.skip (!ok) e.2.2
        | none, false => s.kilnFault k 3 0 0 false id
        | none, true => s
      s.kilnLeave c k)

/-! ### Moving the way split -/

/-- Whether a strand stands at a split point (R88): the barrier that gave it completed later than every barrier that had
completed when the cluster's last SPLT issued. -/
def atSplitPoint (s : State) : Bool :=
  match s.me.splitGen with
  | none => false
  | some g => match (s.cluster s.myCluster).lastSplitGen with | none => true | some h => h < g

/-- The checks of SPLT (R87, R88). -/
def spltCheck (a : Reg) (s : State) : Check :=
  let ga := s.me.readG a
  (need (ga.toNat ≤ 16) (.at_ .splitRange ga)).and fun _ => need (atSplitPoint s) (.at_ .splitOrder ga)

/-- SPLT: the strand is held while the split drains (R87). -/
def execSplt (a : Reg) : State → Result :=
  guarded (spltCheck a) fun s =>
    let wn := (s.me.readG a).toNat
    let c := s.myCluster
    let o := s.origin s.me.seqs.sync
    let g := s.barCount
    let s := (s.yWord.onMe fun x => { x with hold := some .split }).onCluster c fun x => { x with
      tw := wn, busy := true, split := some ⟨o, wn⟩, splits := x.splits + 1, lastSplitGen := some g }
    s.sched s.cc slotSplit (.spltDrain c)

/-- The first byte above the store bytes that a stream command touches. -/
def State.storeTop (s : State) (t : Nat) (c : SCmd) : Nat :=
  let src (e : Elem) : Nat := if c.src = .store ∧ c.op ≠ .dfil then e.1 + e.2.2 else 0
  let dst (e : Elem) : Nat := if c.dst = .store then e.2.1 + e.2.2 else 0
  let u := unfoldOf c.desc
  if c.op = .dunf then (if c.src = .store then c.d[0].toNat + (u.h - 1) * u.istr + u.w * u.cb else 0)
  else if c.src = .store ∨ c.dst = .store then (s.elems t c).foldl (fun m e => max m (max (src e) (dst e))) 0
  else 0

/-- The first byte above the store bytes that a kiln command touches. -/
def KCmd.storeTop (k : KCmd) : Nat :=
  if k.op = .upcf then 0
  else max (if k.masters then k.n[0].toNat + 2 * k.count else 0) (k.n[3].toNat + k.gsize * k.count)

/-- Whether a command issued before the split that drains still touches the bytes that change hands (R87). -/
def State.splitWaits (s : State) (c wn : Nat) : Bool :=
  let x := s.cluster c
  let low := (16 - max x.cw wn) * 0x400000
  (tilesOf c).any (fun t => ((s.tile t).sq ++ (s.tile t).sp).any fun k => k.split != x.splits && low < s.storeTop t k) ||
    (x.kq ++ x.krun.toList).any fun k => k.split != x.splits && low < k.storeTop

/-- SPLT_DRAIN (R87, R89): once the commands it waits for are complete, the move runs to its bound. -/
def execSpltDrain (c : Nat) (s : State) : Result :=
  let x := s.cluster c
  .next (match x.split with
  | none => s
  | some p =>
    if s.splitWaits c p.wn then s.sched (s.cc + 1) slotSplit (.spltDrain c)
    else s.soon (4096 * (if x.cw ≤ p.wn then p.wn - x.cw else x.cw - p.wn) + 64) (slotKiln c) (.spltComplete c))

/-- SPLT_COMPLETE (R87): the ways have moved; store ways that appear are zero, those that leave lose their contents; the
strand is held no longer, and held commands start. -/
def execSpltComplete (c : Nat) (s : State) : Result :=
  .next (match (s.cluster c).split with
  | none => s
  | some p =>
    let s := s.onCluster c fun x => { x with
      cw := p.wn, tw := p.wn, busy := false, seq := x.seq + 1, split := none
      store := x.store.filter fun b => b.1 < min x.storeSize ((16 - p.wn) * 0x400000) }
    let s := s.dropUncached (c / 32)
    let s := (s.onStrand p.org.tile p.org.strand fun x => { x with hold := none }).stir p.org.tile
    let s := s.sched s.cc slotBegin (.kilnCommandStart c)
    s.each (tilesOf c) fun s t => s.sched s.cc slotBegin (.streamCommandStart t))

end Sys2Proof.Machine
end

