-- ==== Sys2Proof/Machine/Quilt.lean ====
section
/-! DEFINITION. The Quilt (10_quilt R212 to R229) and class Q: patches, the step cycle, the slot, save areas, status. -/
namespace Sys2Proof.Machine

/-! ### Cells -/

/-- A cell of the Quilt. -/
def Tile.qcell (x : Tile) (i : Nat) : QCell := SMap.get QCell.zero x.qcells i

/-- Replace a cell. -/
def Tile.setQcell (x : Tile) (i : Nat) (c : QCell) : Tile :=
  { x with qcells := if c = QCell.zero then SMap.del x.qcells i else SMap.put x.qcells i c }

/-- A domain of the Quilt. -/
def Tile.qdom (x : Tile) (e : Nat) : QDom := SMap.get QDom.zero x.qdoms e

/-- Select of input k (Table QLT-2). -/
def selOf (p : DWord) (k : Nat) : Nat := (p.extractLsb' (10 * k) 9).toNat
/-- Whether input k is negated. -/
def negOf (p : DWord) (k : Nat) : Bool := p.getLsbD (10 * k + 9)
/-- Domain of a patch. -/
def domOf (p : DWord) : Nat := (p.extractLsb' 40 2).toNat
/-- Whether a patch takes part in steps. -/
def enOf (p : DWord) : Bool := p.getLsbD 42

/-- Crossing counter k. -/
def QCell.cntAt (c : QCell) (k : Nat) : Int := (c.cnt.extractLsb' (3 * k) 3).toInt
/-- Set crossing counter k. -/
def QCell.setCnt (c : QCell) (k : Nat) (v : Int) : QCell :=
  { c with cnt := (c.cnt &&& ~~~((7#12) <<< (3 * k))) ||| ((BitVec.ofInt 3 v).setWidth 12 <<< (3 * k)) }

/-- Where an input comes from (R215): nothing, the pulse of its own domain, a cell of its own domain, or across. -/
inductive QSrc where
  | none
  | pulse
  | own (cell : Nat)
  | cross
  deriving DecidableEq, Repr

/-- The source of input k of a cell. -/
def srcOf (cells : Array QCell) (c : QCell) (k : Nat) : QSrc :=
  let sel := selOf c.patch k
  if sel = 0x1FF then .none
  else if sel = 0x100 + domOf c.patch then .pulse
  else if sel < 0x100 ∧ domOf (cells.getD sel QCell.zero).patch = domOf c.patch then .own sel
  else .cross

/-! ### The step cycle -/

/-- A fault of a cycle: phase, cell, input, cause (R219, Table QLT-4). -/
abbrev CycleFault := Nat × Nat × Nat × Nat

/-- What an input yields to a cell, and the cell with the unit taken (R217). `own` gives the increment of a cell of the
cell's own domain. -/
def takeIn (cells : Array QCell) (own : Nat → Int) (c : QCell) (k : Nat) : Int × QCell :=
  let r := match srcOf cells c k with
    | .none => (0, c)
    | .pulse => (1, c)
    | .own i => (own i, c)
    | .cross => let u := (c.cntAt k).sign; (u, c.setCnt k (c.cntAt k - u))
  (if negOf c.patch k then -r.1 else r.1, r.2)

/-- The limit of a domain (R217). -/
def QDom.lim (d : QDom) : Int := 2 ^ min d.n 31

/-- Phase 1 of a cell that steps (R217): the cell with its new residue and its increment; no increment where it faults. -/
def phase1 (cells : Array QCell) (d : QDom) (c : QCell) : QCell × Option Int :=
  if d.lim ≤ c.y.toInt.natAbs ∨ 2 ^ d.n ≤ c.res.toNat then (c, none)
  else
    let u := takeIn cells (fun i => (cells.getD i QCell.zero).out.toInt) c 0
    let t := (c.res.toNat : Int) + u.1 * c.y.toInt
    let dz := t / 2 ^ d.n
    ({ u.2 with res := BitVec.ofInt 32 (t - dz * 2 ^ d.n) }, some dz)

/-- Phase 2 of a cell (R217): its new integrand, its increment as OUT, and whether it faults. -/
def phase2 (cells : Array QCell) (dz : Nat → Int) (d : QDom) (z : Int) (c : QCell) : QCell × Bool :=
  let a := takeIn cells dz c 1
  let b := takeIn cells dz a.2 2
  let e := takeIn cells dz b.2 3
  let y := c.y.toInt + a.1 + b.1 + e.1
  let o := { e.2 with out := BitVec.ofInt 2 z }
  if d.lim ≤ y.natAbs then (o, true) else ({ o with y := BitVec.ofInt 32 y }, false)

/-- The increment that reaches input k of a cell across domains in this cycle (R218). -/
def crossing (cells : Array QCell) (dz : Nat → Int) (S : List Nat) (c : QCell) (k : Nat) : Int :=
  let sel := selOf c.patch k
  if srcOf cells c k ≠ .cross then 0
  else if sel < 0x100 then dz sel
  else if sel < 0x104 ∧ S.contains (sel - 0x100) then 1
  else 0

/-- Phase 3 at one input (R218). -/
def deposit (cells : Array QCell) (dz : Nat → Int) (S : List Nat) (x : Nat) (start : QCell) (p : QCell × List CycleFault)
    (k : Nat) : QCell × List CycleFault :=
  let v := crossing cells dz S start k
  if v = 0 then p
  else
    let n := p.1.cntAt k + v
    if 3 < n.natAbs then (p.1, p.2 ++ [(3, x, k, 1)]) else (p.1.setCnt k n, p.2)

/-- One step cycle of the domains S (R217 to R219): the cells after it and its faults, in order of phase, cell, input. -/
def stepCycle (cells : Array QCell) (dom : Nat → QDom) (S : List Nat) : Array QCell × List CycleFault :=
  let steps (c : QCell) : Bool := enOf c.patch && !c.frz && (dom (domOf c.patch)).conf && S.contains (domOf c.patch)
  let p1 := cells.map fun c => if steps c then phase1 cells (dom (domOf c.patch)) c else (c, none)
  let dz (i : Nat) : Int := (p1.getD i (QCell.zero, none)).2.getD 0
  let f1 : List CycleFault := ((cells.zip p1).toList.zipIdx).filterMap fun e =>
    if steps e.1.1 && e.1.2.2.isNone then some (1, e.2, 0, 2) else none
  let p2 := p1.map fun r => match r.2 with
    | none => (r.1, false)
    | some z => phase2 cells dz (dom (domOf r.1.patch)) z r.1
  let f2 : List CycleFault := (p2.toList.zipIdx).filterMap fun e => if e.1.2 then some (2, e.2, 1, 2) else none
  let p3 := ((cells.zip p2).toList.zipIdx).map fun e =>
    if enOf e.1.1.patch && !e.1.1.frz then [0, 1, 2, 3].foldl (deposit cells dz S e.2 e.1.1) (e.1.2.1, []) else (e.1.2.1, [])
  let faults := f1 ++ f2 ++ p3.flatMap (·.2)
  (((p3.zipIdx).map fun e => if faults.any (·.2.1 == e.2) then { e.1.1 with frz := true, out := 0 } else e.1.1).toArray, faults)

/-- All cells of a tile. -/
def Tile.qarray (x : Tile) : Array QCell := ((List.range 256).map x.qcell).toArray

/-- Put all cells back. -/
def Tile.setQarray (x : Tile) (a : Array QCell) : Tile :=
  { x with qcells := ((a.toList.zipIdx).filter fun e => e.1 != QCell.zero).map fun e => (e.2, e.1) }

/-! ### Checks -/

/-- The Quilt staging of the executing strand. -/
def stgQ (s : State) (i : Fin 8) : DWord := s.me.q[i]

/-- ADDR of q1 (Table QLT-6). -/
def qAddr (s : State) : Nat := ((stgQ s 1).setWidth 32).toNat

/-- Alignment, then range of the scratchpad bytes of a Q word (R222). -/
def qMem (align n : Nat) (s : State) : Check :=
  let a := qAddr s
  (need (a % align == 0) (.at_ .align (BitVec.ofNat 64 a))).and fun _ =>
    need (a + n ≤ scratchSize) (.at_ .scratchRange (BitVec.ofNat 64 (max a scratchSize)))

/-- The slot is free (R36, R222). -/
def qSlot (s : State) : Check := slotFree s s.myTile.qFree

/-- The checks of QPAT and QLDY. -/
def qLoadCheck (cells : BitVec 12) (s : State) : Check := (qMem 8 (8 * beatsOf cells) s).and fun _ => qSlot s

/-- The checks of QSAV and QRST. -/
def qAreaCheck (s : State) : Check := (qMem 16 4160 s).and fun _ => qSlot s

/-- The checks of QDOM (R222, R224). -/
def qdomCheck (s : State) : Check :=
  (need (1 ≤ (stgQ s 3).toNat && (stgQ s 3).toNat ≤ 65536) (.at_ .quiltRange (stgQ s 3))).and fun _ =>
    (need (8 ≤ (stgQ s 4).toNat && (stgQ s 4).toNat ≤ 32) (.at_ .quiltRange (stgQ s 4))).and fun _ => qSlot s

/-- The stepping domains of a QSTP (R216). -/
def steppers (d : BitVec 2) (mask : BitVec 4) : List Nat := (List.range 4).filter fun e => e == d.toNat || mask.getLsbD e

/-- How long a QSTP lasts (R216). -/
def qstpTime (steps : BitVec 12) (d : BitVec 2) (x : Tile) : Nat := beatsOf steps * (x.qdom d.toNat).div

/-- The checks of QSTP (R222). -/
def qstpCheck (steps : BitVec 12) (d : BitVec 2) (mask : BitVec 4) (s : State) : Check :=
  let x := s.myTile
  (match (steppers d mask).find? fun e => !(x.qdom e).conf with
  | some e => Check.at_ .quiltRange (BitVec.ofNat 64 e)
  | none => need (qstpTime steps d x ≤ 65536) (.at_ .quiltRange (BitVec.ofNat 64 (qstpTime steps d x)))).and fun _ => qSlot s

/-! ### Words -/

/-- Slot of the completions and step cycles of the Quilt, before the cores (R229). -/
def slotQuilt : Nat := 7

/-- A slot command of the Quilt starts, for n cc (R212). -/
def State.startQuilt (s : State) (op : QOp) (n first : Nat) : State :=
  let (o, s) := s.command 4 false
  let c : QCmd := ⟨op, o, s.cc, n, first, qAddr s, 0, none, 0⟩
  let s := s.onMyTile fun x => { x with qFree := s.cc + n, qcmd := some c }
  s.sched (s.cc + n) (slotQuilt + 1) (.quiltCommandComplete s.bun.tile)

/-- A slot command with beats. -/
def State.startBeats (s : State) (op : QOp) (n first : Nat) : State :=
  (s.startQuilt op n first).sched s.cc slotBeat (.quiltBeat s.bun.tile 0)

/-- QPAT (R223). -/
def execQpat (cells : BitVec 12) (first : BitVec 8) : State → Result :=
  guarded (qLoadCheck cells) fun s => s.startBeats .pat (beatsOf cells) first.toNat
/-- QLDY (R223). -/
def execQldy (cells : BitVec 12) (first : BitVec 8) : State → Result :=
  guarded (qLoadCheck cells) fun s => s.startBeats .ldy (beatsOf cells) first.toNat

/-- QDOM (R224). -/
def execQdom (d : BitVec 2) : State → Result :=
  guarded qdomCheck fun s =>
    let e : QDom := ⟨true, (stgQ s 3).toNat, (stgQ s 4).toNat⟩
    s.onMyTile fun x => { x with qdoms := SMap.put x.qdoms d.toNat e }

/-- The next offset after `from` at which a domain of a QSTP steps, within its time (R216). -/
def nextStep (x : Tile) (E : List Nat) (time from_ : Nat) : Option Nat :=
  ((E.map fun e => (from_ / (x.qdom e).div + 1) * (x.qdom e).div - 1).filter (· < time)).min?

/-- QSTP (R216, R225). -/
def execQstp (steps : BitVec 12) (d : BitVec 2) (mask : BitVec 4) : State → Result :=
  guarded (qstpCheck steps d mask) fun s =>
    let x := s.myTile
    let n := qstpTime steps d x
    let E := steppers d mask
    let s' := s.startQuilt (.stp d.toNat (E.foldl (fun m e => m + 2 ^ e) 0)) n 0
    match nextStep x E n 0 with
    | none => s'
    | some o => s'.sched (s.cc + o) (if o = 0 then slotBeat else slotQuilt) (.quiltStepCycle s.bun.tile o)

/-- QSAV (R226). -/
def execQsav : State → Result := guarded qAreaCheck fun s => s.startBeats .sav 260 0
/-- QRST (R226). -/
def execQrst : State → Result := guarded qAreaCheck fun s => s.startBeats .rst 260 0

/-- QRDV (R228). -/
def execQrdv (blk : Bool) (d : Reg) : State → Result :=
  guarded qSlot fun s =>
    let x := s.myTile
    (s.startQuilt .rdv 1 0).write 4 (.v d (buildV 32 128 fun i => (x.qcell (128 * blk.toNat + i)).y))

/-- The Quilt status (Table QLT-8). -/
def quiltStatus (x : Tile) (cc : Nat) : DWord :=
  let frozen := (x.qcells.filter (·.2.frz)).map (·.1)
  BitVec.ofNat 64 (packLow [(3, 0), (1, (decide (cc < x.qFree)).toNat),
    (4, ((List.range 4).map fun e => if (x.qdom e).conf then 2 ^ e else 0).foldl (· + ·) 0), (4, x.qCause), (3, 0),
    (8, frozen.headD 0), (9, frozen.length), (32, x.qDone.toNat)])

/-- QSTA (R229); a cause of its own cc stays recorded. -/
def execQsta (clr : Bool) (s : State) : Result :=
  let s' := s.write 2 (.stg .quilt 0 (quiltStatus s.myTile s.cc))
  .next (if clr then s'.onMyTile fun x => if x.qCauseCc = s.cc then x else { x with qCause := 0 } else s')

/-! ### Records -/

/-- A cell's save record (Table QLT-7). -/
def QCell.record (c : QCell) : List Byte :=
  leBytes 16 (packLow [(32, c.y.toNat), (32, c.res.toNat), (12, c.cnt.toNat), (2, c.out.toNat), (1, c.frz.toNat)])

/-- A domain's save record (Table QLT-7). -/
def QDom.record (d : QDom) : List Byte := leBytes 16 (packLow [(16, d.div - 1), (6, d.n), (1, d.conf.toNat)])

/-- Crossing counters as restored: a code 0b100 is 0 (R226). -/
def cntRestored (b : BitVec 12) : BitVec 12 :=
  [0, 1, 2, 3].foldl (fun a k => if b.extractLsb' (3 * k) 3 = 4#3 then a &&& ~~~((7#12) <<< (3 * k)) else a) b

/-- An OUT code as restored: 0b10 is 0 (R226). -/
def outRestored (b : BitVec 2) : BitVec 2 := if b = 2#2 then 0 else b

/-- A cell restored from its record, with its patch as it stands (R226). -/
def QCell.restored (c : QCell) (l : List Byte) : QCell :=
  let v := BitVec.ofNat 128 (leNat l)
  { c with
    y := v.extractLsb' 0 32, res := v.extractLsb' 32 32, cnt := cntRestored (v.extractLsb' 64 12)
    out := outRestored (v.extractLsb' 76 2), frz := v.getLsbD 78 }

/-- A domain restored from its record (R226). -/
def QDom.restored (l : List Byte) : QDom :=
  let v := BitVec.ofNat 128 (leNat l)
  let n := (v.extractLsb' 16 6).toNat
  ⟨v.getLsbD 22 && 8 ≤ n && n ≤ 32, (v.extractLsb' 0 16).toNat + 1, n⟩

/-- A save-area record by number: cells, then domains (Table QLT-7). -/
def Tile.qRecord (x : Tile) (b : Nat) : List Byte := if b < 256 then (x.qcell b).record else (x.qdom (b - 256)).record

/-- Restore a record by number. -/
def Tile.setQRecord (x : Tile) (b : Nat) (l : List Byte) : Tile :=
  if b < 256 then x.setQcell b ((x.qcell b).restored l) else { x with qdoms := SMap.put x.qdoms (b - 256) (QDom.restored l) }

/-! ### Beats and completion -/

/-- The lowest input of a patch with a reserved select (Table QLT-3). -/
def badInput (p : DWord) : Option Nat := [0, 1, 2, 3].find? fun k => 0x104 ≤ selOf p k && selOf p k ≤ 0x1FE

/-- Record a fault of the Quilt command in flight; the first one stays (R220). -/
def Tile.quiltFault (x : Tile) (cc : Nat) (f : QFault) : Tile :=
  { x with
    qCause := f.cause, qCauseCc := cc
    qcmd := x.qcmd.map fun c => { c with fault := c.fault.or (some f), nfault := c.nfault + 1 } }

/-- A cell after QPAT or QLDY wrote it (R223). -/
def QCell.loaded (c : QCell) : QCell := { c with cnt := 0, out := 0, frz := false }

/-- Beat b of a load, save or restore (R223, R226, R227). -/
def Tile.quiltBeat (x : Tile) (c : QCmd) (cc b : Nat) : Tile :=
  match c.op with
  | .pat =>
    let a := c.addr + 8 * b
    let v : DWord := (BitVec.ofNat 64 (x.readNat a 8)).setWidth 43 |>.setWidth 64
    let i := c.first + b
    let x' := x.setQcell i { (x.qcell i).loaded with patch := if (badInput v).isSome then v.setWidth 42 |>.setWidth 64 else v }
    match badInput v with
    | none => x'
    | some k => x'.quiltFault cc ⟨3, i, k, domOf v, a⟩
  | .ldy =>
    let v := x.readNat (c.addr + 8 * b) 8
    let i := c.first + b
    x.setQcell i { (x.qcell i).loaded with y := BitVec.ofNat 32 v, res := BitVec.ofNat 32 (v / 2 ^ 32) }
  | .sav => x.writeBytes (c.addr + 16 * b) (x.qRecord b)
  | .rst => x.setQRecord b (x.readBytes (c.addr + 16 * b) 16)
  | .stp .. | .rdv => x

/-- The bytes that a beat of QSAV replaces are kept for the engine commands in progress, which go on seeing them (R227). -/
def State.keepOld (s : State) (t : Nat) (c : QCmd) (beat : Nat) : State :=
  if c.op ≠ .sav then s
  else
    let idle := s.tiles.all fun e => e.2.sp.isEmpty && e.2.arr.isEmpty
    s.onTile t fun x => { x with
      qOld := if idle then [] else x.qOld ++ ((List.range 16).map fun i =>
        let a := x.phys (c.addr + 16 * beat + i)
        (s.cc, a, x.scratch.read a)) }

/-- QUILT_BEAT (R223, R226). Each beat reads and writes under the mapping of its cc, also where a swap falls inside the command,
which R124 leaves open (DESIGN CHOICE, log 32). -/
def execQuiltBeat (t beat : Nat) (s : State) : Result :=
  .next (match (s.tile t).qcmd with
  | none => s
  | some c =>
    if c.start + beat ≠ s.cc ∨ c.beats ≤ beat then s
    else
      let s := (s.keepOld t c beat).onTile t fun x => x.quiltBeat c s.cc beat
      if beat + 1 < c.beats then s.sched (s.cc + 1) slotBeat (.quiltBeat t (beat + 1)) else s)

/-- QUILT_STEP_CYCLE (R217): the domains that step at this offset of the QSTP step. -/
def execQuiltStepCycle (t offset : Nat) (s : State) : Result :=
  .next (match (s.tile t).qcmd with
  | none => s
  | some c =>
    match c.op with
    | .stp _ mask =>
      if c.start + offset ≠ s.cc ∨ c.beats ≤ offset then s
      else
        let x := s.tile t
        let E := (List.range 4).filter fun e => mask / 2 ^ e % 2 == 1
        let r := stepCycle x.qarray x.qdom (E.filter fun e => (offset + 1) % (x.qdom e).div == 0)
        let s := s.onTile t fun x => r.2.foldl (fun x f =>
          x.quiltFault s.cc ⟨f.2.2.2, f.2.1, f.2.2.1, domOf (x.qcell f.2.1).patch, offset⟩) (x.setQarray r.1)
        (match nextStep x E c.beats (offset + 1) with
        | none => s
        | some o => s.sched (c.start + o) slotQuilt (.quiltStepCycle t o))
    | _ => s)

/-- Internal status word of a Quilt fault (R220). -/
def QFault.isw (f : QFault) (n : Nat) : Word :=
  BitVec.ofNat 32 (packLow [(4, f.cause), (8, f.cell), (2, f.input), (2, f.dom), (16, min n 0xFFFF)])

/-- QUILT_COMMAND_COMPLETE (R220, R221): the slot's command completes, with its trap if it met faults. -/
def execQuiltCommandComplete (t : Nat) (s : State) : Result :=
  .next (match (s.tile t).qcmd with
  | none => s
  | some c =>
    if s.cc < c.start + c.beats then s
    else
      let s := s.onTile t fun x => { x with qcmd := none, qDone := x.qDone + 1 }
      let s := s.finish c.org 4 c.org.seq
      match c.fault with
      | none => s
      | some f => s.engineFault c.org (infoOf c.org .quilt 4 (f.isw c.nfault) (BitVec.ofNat 64 f.addr)) c.start (c.beats + 106))

end Sys2Proof.Machine
end

