-- ==== Sys2Proof/Machine/ScalarMem.lean ====
section
/-! DEFINITION. Class M, scalar memory and line hints (07_core R148 to R150, 04_stack R90). -/
namespace Sys2Proof.Machine

/-- The address of an M word (R148). -/
def memAddr (s : State) (b : Reg) (size : Nat) (i : BitVec 10) (ext : List LWord) : DWord :=
  s.me.readG b + BitVec.ofNat 64 size * imm i ext

/-- An access to the cluster store: refused while a SPLT drains, then checked against the size (R148, R85, R89). -/
def storeCheck (s : State) (ea : DWord) (n : Nat) : Check :=
  (need (!(s.cluster s.myCluster).busy) (.at_ .splitBusy ea)).and fun _ =>
    need (ea.toNat + n ≤ (s.cluster s.myCluster).storeSize) (.at_ .storeRange ea)

/-- An access to global memory blocks while its translation finds the walk queue full (R104). -/
def globalCheck (s : State) (ea : DWord) : Check :=
  need (s.coreXlate s.bun.tile ea != .full) (.block .walkQueue)

/-- The checks of an M word (R148). -/
def memCheck (b : Reg) (size : Nat) (sp : MSpace) (i : BitVec 10) (ext : List LWord) (s : State) : Check :=
  let ea := memAddr s b size i ext
  (need (ea.toNat % size == 0) (.at_ .align ea)).and fun _ =>
    match sp with
    | .scratch => need (ea.toNat + size ≤ scratchSize) (.at_ .scratchRange ea)
    | .store => storeCheck s ea size
    | .global => globalCheck s ea

/-- Whether a store to this address would become a rick entry (R149). -/
def isEntry (s : State) (ea : DWord) : Bool :=
  match s.coreXlate s.bun.tile ea with
  | .hit e _ => (e.mode == 1 || e.mode == 3) && !e.ro
  | _ => false

/-- The checks of a store: those of R148, and room in the fabric queue for an entry (R37). -/
def memStCheck (b : Reg) (size : Nat) (sp : MSpace) (i : BitVec 10) (ext : List LWord) (s : State) : Check :=
  (memCheck b size sp i ext s).and fun _ =>
    if sp == .global && 4 ≤ size && isEntry s (memAddr s b size i ext) then fabRoom s else .ok

/-- The bound of a translation's fault and of a local load (R103, R149, R105). -/
def localBound (s : State) (ea : DWord) (miss : Bool) : Nat := 1024 + if miss then s.missBound s.myCluster (ea.toNat / 65536) else 0

/-- The origin of an access of the core: its number is the bundle's (R308). -/
def coreOrigin (s : State) : Origin := s.origin s.me.bundleSeq

/-- A translation fault of an M word or of an RLD: a late-core trap by the bound (R103). -/
def State.lateXlate (s : State) (ea : DWord) (cause level : Nat) (miss : Bool) : State :=
  s.addFault s.bun.tile s.bun.strand (s.dueCc (localBound s ea miss))
    (infoOf (coreOrigin s) .translate 0 (BitVec.ofNat 32 (cause + 16 * level)) ea)

/-- A load from global memory (R149). -/
def State.loadGlobal (s : State) (g : Reg) (ea : DWord) (size : Nat) (signed : Bool) : State :=
  let r := s.coreXlate s.bun.tile ea
  let near := fun miss => localBound s ea miss
  let s := s.coreTouch s.bun.tile ea
  match r with
  | .full => s
  | .fault c l miss => (s.watch (.g g) (s.cc + near miss)).lateXlate ea c l miss
  | .hit e miss =>
    let off := e.offset ea.toNat
    let d := stnOf e.peer
    let far := near miss + 2 * s.transit s.myDie e.peer
    if e.mode ≠ 0 && s.absent e.peer then
      (s.watch (.g g) (s.cc + far)).addFault s.bun.tile s.bun.strand (s.dueCc far) (infoOf (coreOrigin s) .fabric 5 3 ea)
    else if e.mode = 1 || e.mode = 3 then
      let n := s.me.bundleSeq
      let s := if s.entriesOn s.bun.tile s.bun.strand ea.toNat size then s.moveItems s.bun.tile s.bun.strand else s
      ((s.watch (.g g) (s.cc + far)).onMe fun x => x.loads 0 n).remoteLoad
        ⟨ea, e.peer, off, e.mode, size, signed, g, coreOrigin s, s.cc + far, 0, n, [], none⟩
    else
      let s := if e.mode = 2 then s.copyFrame s.myDie e ea.toNat else s
      let b := if e.mode = 2 then far else near miss
      if s.ownPackage e.peer then
        let s := (s.ownEntries s.bun.tile s.bun.strand ea.toNat size).noteRead d off size 0
        let s := if s.isBad d off size then s.spend.addFault s.bun.tile s.bun.strand (s.dueCc b)
          (infoOf (coreOrigin s) .memory 0 (Config.freeW s.fresh) ea) else s
        s.write b (.g g (loaded signed (s.seen s.me d off ea.toNat size)))
      else
        let f := s.foreign e.peer off size true
        f.2.write b (.g g (loaded signed f.1))

/-- A store to global memory (R149, R150, R100). One of a byte or halfword to a read-only page of MODE 01 or 11 meets two
causes, RO and WIDTH, between which the spec does not choose; it reports RO (DESIGN CHOICE, log 34). -/
def State.storeGlobal (s : State) (ea : DWord) (bs : List Byte) : State :=
  let t := s.bun.tile
  match s.coreXlate t ea with
  | .full => s
  | .fault c l miss => (s.coreTouch t ea).lateXlate ea c l miss
  | .hit e miss =>
    if e.ro then (s.coreTouch t ea).lateXlate ea 2 e.level miss
    else if e.mode = 1 || e.mode = 3 then
      if bs.length < 4 then (s.coreTouch t ea).lateXlate ea 8 e.level miss
      else
        let (o, s) := s.command 5 true
        let s := s.onMe fun x => x.foldBytes ea.toNat bs
        s.toStation (.entry .store ea (BitVec.ofNat 64 (leNat bs)) (bs.length == 8) o s.cc)
    else (s.coreTouch t ea).onMe fun x => x.own false ea.toNat (stnOf e.peer) (e.offset ea.toNat) bs

/-- A load (R148, R149). -/
def load (size : Nat) (signed : Bool) (g b : Reg) (sp : MSpace) (i : BitVec 10) (ext : List LWord) : State → Result :=
  guarded (memCheck b size sp i ext) fun s =>
    let ea := memAddr s b size i ext
    match sp with
    | .scratch => s.write 4 (.g g (loaded signed (s.myTile.readBytes ea.toNat size)))
    | .store => s.write 48 (.g g (loaded signed (s.seenStore s.me s.myCluster ea.toNat size)))
    | .global => s.loadGlobal g ea size signed

/-- A store (R148 to R150). -/
def store (size : Nat) (g b : Reg) (sp : MSpace) (i : BitVec 10) (ext : List LWord) : State → Result :=
  guarded (memStCheck b size sp i ext) fun s =>
    let ea := memAddr s b size i ext
    let bs := leBytes size (s.me.readG g).toNat
    match sp with
    | .scratch => s.write 1 (.mem (s.myTile.phys ea.toNat) bs)
    | .store => s.onMe fun x => x.own true ea.toNat 0 ea.toNat bs
    | .global => s.storeGlobal ea bs

/-- The first byte of a hint's line (R90). -/
def hintLine (s : State) (b : Reg) (i : BitVec 10) (ext : List LWord) : Nat := (memAddr s b 128 i ext).toNat / 128 * 128

/-- DISC: the strand's owned words of the line are gone (R90, R268). -/
def Strand.discard (x : Strand) (line : Nat) : Strand :=
  { x with owned := x.owned.filter fun o => o.store || o.word * 4 / 128 * 128 != line }

/-- LDB (R149). -/
def execLdb (g b : Reg) (sp : MSpace) (i : BitVec 10) (ext : List LWord) : State → Result :=
  load 1 true g b sp i ext
/-- LDBN (R149). -/
def execLdbn (g b : Reg) (sp : MSpace) (i : BitVec 10) (ext : List LWord) : State → Result :=
  load 1 false g b sp i ext
/-- LDH (R149). -/
def execLdh (g b : Reg) (sp : MSpace) (i : BitVec 10) (ext : List LWord) : State → Result :=
  load 2 true g b sp i ext
/-- LDHN (R149). -/
def execLdhn (g b : Reg) (sp : MSpace) (i : BitVec 10) (ext : List LWord) : State → Result :=
  load 2 false g b sp i ext
/-- LDW (R149). -/
def execLdw (g b : Reg) (sp : MSpace) (i : BitVec 10) (ext : List LWord) : State → Result :=
  load 4 true g b sp i ext
/-- LDWN (R149). -/
def execLdwn (g b : Reg) (sp : MSpace) (i : BitVec 10) (ext : List LWord) : State → Result :=
  load 4 false g b sp i ext
/-- LDD (R149). -/
def execLdd (g b : Reg) (sp : MSpace) (i : BitVec 10) (ext : List LWord) : State → Result :=
  load 8 false g b sp i ext
/-- STB (R149). -/
def execStb (g b : Reg) (sp : MSpace) (i : BitVec 10) (ext : List LWord) : State → Result := store 1 g b sp i ext
/-- STH (R149). -/
def execSth (g b : Reg) (sp : MSpace) (i : BitVec 10) (ext : List LWord) : State → Result := store 2 g b sp i ext
/-- STW (R149). -/
def execStw (g b : Reg) (sp : MSpace) (i : BitVec 10) (ext : List LWord) : State → Result := store 4 g b sp i ext
/-- STD (R149). -/
def execStd (g b : Reg) (sp : MSpace) (i : BitVec 10) (ext : List LWord) : State → Result := store 8 g b sp i ext
/-- PREF: a fetch changes no value that any party reads (R90). -/
def execPref (_b : Reg) (_i : BitVec 10) (_ext : List LWord) (s : State) : Result := .next s
/-- Whether a hint has an effect on a line (R90): the line is mapped, by a page of MODE 00 that may be written. -/
def hintLocal (s : State) (line : Nat) : Bool :=
  match s.engXlate s.myCluster line with
  | .ok e => e.mode == 0 && !e.ro
  | .error _ => false
/-- DISC (R90). -/
def execDisc (b : Reg) (i : BitVec 10) (ext : List LWord) (s : State) : Result :=
  let line := hintLine s b i ext
  .next (if hintLocal s line then s.onMe fun x => x.discard line else s)
/-- LUSE: a mark changes no value that any party reads (R90). -/
def execLuse (_b : Reg) (_i : BitVec 10) (_ext : List LWord) (s : State) : Result := .next s

end Sys2Proof.Machine
end

