-- ==== Sys2Proof/Machine/Control.lean ====
section
/-! DEFINITION. Class B, branches, loops and control (07_core R151 to R165). What a word asks of the core at the end of
its bundle stands in the bundle's control words; a member of a panel leaves these decisions to its lead (R164). -/
namespace Sys2Proof.Machine

/-- A check that a member of a panel leaves to its lead (R164). -/
def unlessFollow (s : State) (c : Check) : Check := if s.bun.follow then .ok else c

/-- The executing bundle transfers to a word (R25). -/
def State.transferTo (s : State) (w : Word) : State := s.onBun fun b => { b with target := some w }

/-- BR (R151). -/
def execBr (p : Reg3) (n : Bool) (d : BitVec 18) (s : State) : Result :=
  .next (if s.me.readP p != n then s.transferTo (s.disp d) else s)

/-- JMP (R151). -/
def execJmp (d : BitVec 22) (s : State) : Result := .next (s.transferTo (s.disp d))

/-- The link register of CALL (Table COR-1). -/
def linkReg : Reg := 31

/-- The word index after the executing bundle. -/
def State.after (s : State) : Word := s.bun.first + BitVec.ofNat 32 s.bun.len

/-- CALL (R151). -/
def execCall (d : BitVec 22) (s : State) : Result :=
  .next ((s.write 1 (.g linkReg (s.after.setWidth 64))).transferTo (s.disp d))

/-- The check of JR: a word index has 32 bits (R151). -/
def jrCheck (a : Reg) (s : State) : Check :=
  unlessFollow s (need ((s.me.readG a).extractLsb' 32 32 == 0) (.plain .fetchRange))

/-- JR (R151). -/
def execJr (a : Reg) : State → Result :=
  guarded (jrCheck a) fun s => s.transferTo ((s.me.readG a).setWidth 32)

/-! ### Loops -/

/-- Loop register l of a strand. -/
def Strand.loop (x : Strand) (l : Bool) : Loop := if l then x.loop1 else x.loop0
/-- Replace loop register l. -/
def Strand.setLoop (x : Strand) (l : Bool) (v : Loop) : Strand := if l then { x with loop1 := v } else { x with loop0 := v }

/-- Loop l becomes inactive with the loop nested in it (R155). -/
def Strand.endLoop (x : Strand) (l : Bool) : Strand :=
  let x := x.setLoop l { x.loop l with act := false }
  if (x.loop !l).nest then x.setLoop (!l) { x.loop !l with act := false } else x

/-- The checks of a loop setup (R153). -/
def loopCheck (l : Bool) (n : DWord) (e : Nat) (s : State) : Check :=
  unlessFollow s ((need (s.bun.len ≤ e) (.plain .illegal)).and fun _ =>
    (need (n.toNat ≤ 0xFFFFFFFF) (.plain .loopRange)).and fun _ =>
      let o := s.me.loop !l
      need (!(o.act && (o.stop.toNat < s.bun.first.toNat + e || s.bun.first.toNat < o.start.toNat))) (.plain .loopRange))

/-- A loop setup (R153): with a count of zero the strand skips the body. -/
def loopSet (l : Bool) (n : DWord) (e : Nat) (s : State) : State :=
  let s := s.onMe fun x => x.endLoop l
  let last := s.bun.first + BitVec.ofNat 32 e
  if n = 0 then s.onBun fun b => { b with jump := some last }
  else s.onMe fun x => x.setLoop l ⟨s.after, last, n.setWidth 32, true, (x.loop !l).act⟩

/-- LSET (R153). -/
def execLset (l : Bool) (g : Reg) (e : BitVec 16) : State → Result :=
  guarded (fun s => loopCheck l (s.me.readG g) e.toNat s) fun s => loopSet l (s.me.readG g) e.toNat s

/-- LSETI (R153). -/
def execLseti (l : Bool) (n : BitVec 12) (e : BitVec 9) : State → Result :=
  guarded (loopCheck l (n.setWidth 64) e.toNat) (loopSet l (n.setWidth 64) e.toNat)

/-- LEXIT (R156); an inactive loop stays as it is. -/
def execLexit (l : Bool) (s : State) : Result :=
  .next (if (s.me.loop l).act then s.onMe fun x => x.endLoop l else s)

/-- DLY (R157). -/
def execDly (n : BitVec 8) (s : State) : Result := .next (s.onBun fun b => { b with stall := b.stall + n.toNat + 1 })

/-! ### Nodes and schedules -/

/-- The image of the launch that a tile runs. -/
def State.image (s : State) (t : Nat) : Image := match s.launchOf t with | none => .empty | some l => l.img

/-- A word of a code segment; none lies beyond its end (R138). -/
def Image.word (g : Image) (i : Nat) : Word := g.code.getD i 0

/-- An entry of a schedule table (Table SCH-5): target, cycles, capacity. -/
def Image.schedEntry (g : Image) (table e : Nat) : Word × Nat × Nat :=
  (g.word (table + 5 * e + 1), (g.word (table + 5 * e + 2)).toNat,
    (g.word (table + 5 * e + 4)).toNat + 2 ^ 32 * (g.word (table + 5 * e + 5)).toNat)

/-- The number of entries of a schedule table. -/
def Image.schedCount (g : Image) (table : Nat) : Nat := (g.word table).toNat % 16

/-- The entry of least capacity that fits (R159). -/
def Image.fitting (g : Image) (table : Nat) (size : DWord) : Option (Word × Nat × Nat) :=
  ((List.range (g.schedCount table)).map (g.schedEntry table)).find? fun e => size.toNat ≤ e.2.2

/-- The node-table entry of an index. -/
def Image.nodeOf (g : Image) (n : Nat) : Option NodeEntry := g.nodes.find? fun e => e.node == n

/-- A node is complete for a strand (R297): entered, ended, and every command issued within it complete. A NODE bundle
first ends the strand's current node. -/
def Strand.nodeDone (x : Strand) (p : Nat) : Bool :=
  (x.ended.any (·.toNat == p) || (match x.node with | none => false | some r => r.index.toNat == p)) &&
  !x.outst.any fun o => match o.node with | none => false | some n => n.toNat == p

/-- The checks of NODE (R158). -/
def nodeCheck (n : BitVec 22) (s : State) : Check :=
  unlessFollow s (match (s.image s.bun.tile).nodeOf n.toNat with
    | none => .plain .nodeRange
    | some e => need (e.preds.all s.me.nodeDone) (.plain .predecessor))

/-- A strand ends its current node, if it is in one. -/
def Strand.endNode (x : Strand) : Strand :=
  match x.node with | none => x | some r => { x with node := none, ended := r.index :: x.ended }

/-- NODE: the strand ends its node and enters another, whose bound counts from here (R158, R297, R298). -/
def execNode (n : BitVec 22) : State → Result :=
  guarded (nodeCheck n) fun s =>
    match (s.image s.bun.tile).nodeOf n.toNat with
    | none => s
    | some e =>
      let bound := ((s.image s.bun.tile).schedEntry e.sched 0).2.1
      let s := s.onMe fun x => { x.endNode with node := some ⟨n, BitVec.ofNat 32 e.entry, s.cc, bound, none, false⟩ }
      s.sched (s.cc + bound) 12 (.overrun s.bun.tile s.bun.strand)

/-- The checks of SELS (R159). -/
def selsCheck (g : Reg) (t : BitVec 17) (s : State) : Check :=
  unlessFollow s (need ((s.image s.bun.tile).fitting (s.disp t).toNat (s.me.readG g)).isSome (.plain .sizeClass))

/-- SELS: the strand goes to the schedule that fits, whose bound becomes its node's (R159, R298). -/
def execSels (g : Reg) (t : BitVec 17) : State → Result :=
  guarded (selsCheck g t) fun s =>
    match (s.image s.bun.tile).fitting (s.disp t).toNat (s.me.readG g) with
    | none => s
    | some e =>
      let s := match s.me.node with
        | none => s
        | some r => (s.onMe fun x => { x with node := some { r with bound := e.2.1, late := r.late && r.since + e.2.1 ≤ s.cc } }).sched
            (max (s.cc + 1) (r.since + e.2.1)) 12 (.overrun s.bun.tile s.bun.strand)
      s.transferTo e.1

/-! ### Yield, halt, trap -/

/-- YIELD: outside a panel the strand offers its core (R160). -/
def execYield (s : State) : Result :=
  .next (if s.me.gang == .ganged then s else s.onBun fun b => { b with yields := true })

/-- HALT is not for a panel (R161). -/
def haltCheck (s : State) : Check := need (!(s.me.gang == .ganged)) (.plain .gangState)

/-- HALT: at its bundle's end the strand releases and is finished (R161, log 15). -/
def execHalt : State → Result := guarded haltCheck fun s => s.onBun fun b => { b with halts := true }

/-- TRAP: the software trap follows the bundle (R162). -/
def execTrap (k : BitVec 16) (s : State) : Result := .next (s.onBun fun b => { b with soft := some k })

/-! ### Gang mode -/

/-- The checks of GANG enter (R163, R319): a wait word that has met its partners passes. -/
def gangEnterCheck (s : State) : Check :=
  if (SMap.find s.me.barPassed gangCode).isSome then .ok
  else (need (!(tilesOf s.myCluster).any (fun t => (s.tile t).retired) && !(s.me.gang == .ganged) &&
      !strandIds.any (fun k => k != s.bun.strand && ((s.strand s.bun.tile k).gang == .waiting ||
        (s.strand s.bun.tile k).gang == .ganged))) (.plain .gangState)).and fun _ => .block .gang

/-- GANG enter, once all eight have met (R163). -/
def execGangEnter : State → Result :=
  guarded gangEnterCheck fun s => s.onMe fun x => { x with barPassed := SMap.del x.barPassed gangCode }

/-- The check of GANG exit (R165). -/
def gangExitCheck (s : State) : Check := need (s.me.gang == .ganged) (.plain .gangState)

/-- A member leaves its panel: CHAIN is 0, the tile's other strands are held no longer, and the panel ends with its last
member (R165, R207). With the lead go the panel's faults that are still to be taken: its strands take them alone (log 22). -/
def State.exitGang (s : State) : State :=
  let t := s.bun.tile
  let c := clusterOf t
  let s := s.onMe fun x => { x with gang := .no, gangEnd := some x.seqs }
  let s := if posOf t = 0 then
      s.each (((s.cluster c).panel.map (·.traps)).getD []) fun s f => s.scatterFault c f.1 f.2
    else s
  let s := s.onTile t fun x => { x with
    chain := false
    strands := x.strands.map fun y => (y.1, if y.2.gang == .held then { y.2 with gang := .no } else y.2) }
  let s := s.onCluster c fun c => match c.panel with
    | none => c
    | some p => if p.gone + 1 < 8 then { c with panel := some { p with gone := p.gone + 1 } } else { c with panel := none, stream := [] }
  s.stir t

/-- GANG exit (R165). -/
def execGangExit : State → Result := guarded gangExitCheck State.exitGang

end Sys2Proof.Machine
end

