-- ==== Sys2Proof/Machine/Reduce.lean ====
section
/-! DEFINITION. Multicast load-and-reduce (11_fabric R252 to R258): groups, the checks at a start, joining, agreement, the
results, completion. -/
namespace Sys2Proof.Machine

/-! ### Elements (R256) -/

/-- Bytes of an element. -/
def elemSize : MlrType → Nat | .bf16 => 2 | .f32 | .i32 => 4 | .l8 => 1

/-- Bytes of a result element (R253). -/
def outSize (t : MlrType) (otype : Nat) : Nat := if otype = 0 then elemSize t else if otype = 1 then 4 else 8

/-- The l8 format of an F code (R52). -/
def mlrLog (f : BitVec 2) : LogFmt := ⟨8, logF 8 f, true⟩

/-- Significand bits of a floating-point element. -/
def elemPrec (t : MlrType) : Nat := if t = .bf16 then 8 else 24

/-- What an element is to a sum: NaN or NaR, an infinity, or a finite value. -/
inductive Special where
  | nan | inf (neg : Bool) | finite
  deriving DecidableEq, Repr

/-- The kind of an element. -/
def special (t : MlrType) (f : LogFmt) (x : Nat) : Special :=
  match t with
  | .l8 => if x = f.nar then .nan else .finite
  | .i32 => .finite
  | .bf16 | .f32 => match fpRead (elemPrec t) x with | .nan _ => .nan | .inf n => .inf n | .fin .. => .finite

/-- e(x): the exponent of a finite nonzero element. -/
def expOf (t : MlrType) (f : LogFmt) (x : Nat) : Option Int :=
  match t with
  | .i32 => none
  | .l8 => if x = 0 ∨ x = f.nar then none else some (f.e x / 2 ^ f.F)
  | .bf16 | .f32 => match fpRead (elemPrec t) x with
    | .fin _ m e => if m = 0 then none else some ((m.log2 : Int) + e)
    | _ => none

/-- A natural times a power of two, truncated. -/
def shiftTrunc (m : Nat) (e : Int) : Nat := if 0 ≤ e then m * 2 ^ e.toNat else m / 2 ^ (-e).toNat

/-- v(x, E): the fixed-point value of a finite element under a block exponent; none is the empty-block marker. -/
def fixOf (t : MlrType) (f : LogFmt) (x : Nat) (E : Option Int) : Int :=
  match E, expOf t f x with
  | some E, some e =>
    let neg := match t with
      | .l8 => f.neg x
      | _ => x / 2 ^ (8 * elemSize t - 1) % 2 == 1
    if E < e then signed neg (2 ^ 48 - 1)
    else match t with
      | .l8 =>
        let j := f.e x - e * 2 ^ f.F
        signed neg (shiftTrunc (powerT (j.toNat * (16 / 2 ^ f.F))) (e - 19 + 47 - E))
      | _ => match fpRead (elemPrec t) x with
        | .fin _ m k => signed neg (shiftTrunc m (k + 47 - E))
        | _ => 0
  | _, _ => 0

/-- The default NaN or NaR of a result (R256). -/
def nanOut (t : MlrType) (f : LogFmt) (otype : Nat) : Nat :=
  if otype = 2 then 0 else if otype = 1 then fpNaN 24 else if t = .l8 then f.nar else fpNaN (elemPrec t)

/-- An infinite result. -/
def infOut (t : MlrType) (otype : Nat) (neg : Bool) : Nat :=
  if otype = 2 then 0 else if otype = 1 then fpInf 24 neg else fpInf (elemPrec t) neg

/-- S * 2^(E - 47) in the output type (R256). -/
def sumOut (t : MlrType) (f : LogFmt) (otype : Nat) (S E : Int) : Nat :=
  if otype = 2 then (BitVec.ofInt 64 S).toNat
  else if S = 0 then 0
  else if otype = 1 then (fpRound 24 .rne (S < 0) S.natAbs (E - 47) false).1
  else if t = .l8 then (f.ofMag .rne (S < 0) S.natAbs (E - 47) 0).1
  else (fpRound (elemPrec t) .rne (S < 0) S.natAbs (E - 47) false).1

/-- One result of a sum of bf16, f32 or l8. -/
def sumElem (t : MlrType) (f : LogFmt) (otype : Nat) (E : Option Int) (xs : List Nat) : Nat :=
  let ks := xs.map (special t f)
  let pos := ks.contains (.inf false)
  let neg := ks.contains (.inf true)
  if ks.contains .nan || (pos && neg) then nanOut t f otype
  else if pos then infOut t otype false
  else if neg then infOut t otype true
  else sumOut t f otype ((xs.map fun x => fixOf t f x E).foldl (· + ·) 0) (E.getD 0)

/-- An i32 result in the output type (R256). -/
def intOut (otype : Nat) (x : Int) : Nat :=
  if otype = 2 then (BitVec.ofInt 64 x).toNat
  else if otype = 1 then (fpOfInt 24 .rne x).1
  else (BitVec.ofInt 32 (max (-2147483648) (min 2147483647 x))).toNat

/-- One result of max or min. -/
def pickElem (t : MlrType) (f : LogFmt) (otype : Nat) (max_ : Bool) (xs : List Nat) : Nat :=
  if (xs.map (special t f)).contains .nan then nanOut t f otype
  else
    let better (a b : Nat) : Bool := match t with
      | .i32 => (BitVec.ofNat 32 a).toInt < (BitVec.ofNat 32 b).toInt
      | .l8 => f.ord a < f.ord b
      | _ => fpLess (elemPrec t) a b
    let y := xs.foldl (fun a b => if better a b == max_ && a != b then b else a) (xs.headD 0)
    match t with
    | .i32 => intOut otype (BitVec.ofNat 32 y).toInt
    | .l8 => if otype = 1 then (f.toFp 24 .rne 0 y).1 else y
    | .bf16 => if otype = 1 then (fpOfFp 8 24 .rne y).1 else y
    | .f32 => y

/-- The block exponent that the members agree on (R256). -/
def agreeExp (t : MlrType) (f : LogFmt) (xs : List Nat) : Option Int := (xs.filterMap (expOf t f)).max?

/-- A block exponent as int32, with the marker (R256). -/
def expWord (E : Option Int) : Word := match E with | none => 0x80000000 | some e => BitVec.ofInt 32 e

/-- An int32 as a block exponent. -/
def wordExp (w : Word) : Option Int := if w = 0x80000000 then none else some w.toInt

/-- Elements of block b of a member. -/
def mlrBlock (m : MlrMember) (b : Nat) : List Nat := ((m.data.drop (32 * b)).take 32).map (·.toNat)

/-- Number of blocks. -/
def mlrBlocks (m : MlrMember) : Nat := (m.n + 31) / 32

/-- The block exponents that a member's sum uses (R256). -/
def mlrBlockExps (m : MlrMember) (parts : List MlrMember) : List (Option Int) :=
  if m.op = .sum ∧ !m.tp then m.exps.map wordExp
  else (List.range (mlrBlocks m)).map fun b => agreeExp m.type (mlrLog m.fcode) (parts.flatMap fun p => mlrBlock p b)

/-- The results of a reduction at a member, each as little-endian bytes (R256). -/
def mlrResults (m : MlrMember) (parts : List MlrMember) : List (List Byte) :=
  let f := mlrLog m.fcode
  let cols := parts.map fun p => (p.data.map (·.toNat)).toArray
  let at_ (i : Nat) : List Nat := cols.map fun c => c.getD i 0
  let es := (if m.type = .i32 ∨ m.op = .max ∨ m.op = .min then [] else mlrBlockExps m parts).toArray
  match m.op with
  | .agree => es.toList.map fun e => leBytes 4 (expWord e).toNat
  | .sum =>
    (List.range m.n).map fun i => leBytes (outSize m.type m.otype)
      (if m.type = .i32 then intOut m.otype (((at_ i).map fun x => (BitVec.ofNat 32 x).toInt).foldl (· + ·) 0)
       else sumElem m.type f m.otype (es.getD (i / 32) none) (at_ i))
  | .max => (List.range m.n).map fun i => leBytes (outSize m.type m.otype) (pickElem m.type f m.otype true (at_ i))
  | .min => (List.range m.n).map fun i => leBytes (outSize m.type m.otype) (pickElem m.type f m.otype false (at_ i))

/-! ### Groups (R252) -/

/-- A group descriptor in a scratchpad: its group, or the cause of MGRP's failure. -/
def State.readGroup (s : State) (t : Nat) (addr : DWord) : Except Nat Group :=
  let a := addr.toNat
  if a % 16 ≠ 0 ∨ scratchSize < a + 8 then .error 5
  else
    let h := s.engRead t a 8
    let m := leNat ((h.drop 4).take 2)
    if m < 2 ∨ 32768 < m ∨ scratchSize < a + 8 + 2 * m then .error 5
    else
      let bs := (s.engRead t (a + 8) (2 * m)).toArray
      let l : List (BitVec 16) := (List.range m).map fun i => BitVec.ofNat 16 ((bs.getD (2 * i) 0).toNat + 256 * (bs.getD (2 * i + 1) 0).toNat)
      if l.eraseDups.length ≠ m ∨ l.any (fun p => stnOf p > 7) ∨ !l.contains (s.peerOf (dieOf t)) then .error 5
      else if l.any s.absent then .error 3
      else .ok ⟨BitVec.ofNat 32 (leNat (h.take 4)), l⟩

/-- MGRP reaches the station (R252): the slot takes the group, or its strand has a fault by the bound. -/
def State.stationGroup (s : State) (slot : BitVec 4) (addr : DWord) (o : Origin) : State :=
  let d := dieOf o.tile
  let q := s.queueOf o.tile
  let m := leNat (s.engRead o.tile (addr.toNat % scratchSize + 4) 2)
  let bound := 64 + (m + 7) / 8
  let r := s.readGroup o.tile addr
  let s := s.spendOn o.tile
  let s := match r with
    | .ok g =>
      let c := SMap.get CtxSet.reset (s.die d).sets q
      let c : CtxSet := { c with groups := SMap.put c.groups slot.toNat g }
      s.onDie d fun x => { x with sets := SMap.put x.sets q c }
    | .error c => (s.addFault o.tile o.strand (s.dueCc bound) (infoOf o .fabric 5 (BitVec.ofNat 32 c) addr)).fabCause o.tile c
  s.soon bound slotRing (.mgrpComplete o slot addr)

/-- MGRP_COMPLETE (R252). -/
def execMgrpComplete (o : Origin) (_slot : BitVec 4) (_addr : DWord) (s : State) : Result := .next (s.finish o 5 o.seq)

/-! ### Starts (R254) -/

/-- Why a range of an MLR cannot be used: the lowest address that does not translate to a MODE 00 page homed on the die,
with the code of Table XLT-7. For a page that translates, but elsewhere, the table has no code: which of its codes stands there
is free (log 44). -/
def State.mlrRange (s : State) (c va n : Nat) (write : Bool) : Option (Nat × Nat) :=
  (pageCuts va n).findSome? fun p => match s.engXlate c p.1 with
    | .error f => some (p.1, f.1)
    | .ok e =>
      if e.mode ≠ 0 ∨ e.peer ≠ s.peerOf (c / 32) then some (p.1, 1 + (Config.freeW s.fresh).toNat % 8)
      else if write ∧ e.ro then some (p.1, 2)
      else none

/-- The lowest of the addresses that failed. -/
def lowestRange (l : List (Option (Nat × Nat))) : Option (Nat × Nat) :=
  (l.filterMap id).foldl (fun o e => match o with
    | none => some e
    | some f => if e.1 < f.1 then some e else some f) none

/-- Little-endian words of n bytes each. -/
def chunk (n : Nat) : Nat → List Byte → List Word
  | 0, _ => []
  | k + 1, l => BitVec.ofNat 32 (leNat (l.take n)) :: chunk n k (l.drop n)

/-! ### Joining (R255) -/

/-- Whether one of two members' groups names the other's die. -/
def mlrLinked (a b : MlrMember) : Bool := a.members.contains b.peer || b.members.contains a.peer

/-- One round of collecting those whose groups are linked. -/
def mlrGrow (all got : List MlrMember) : List MlrMember := all.filter fun b => got.any fun a => a.id == b.id || mlrLinked a b

/-- The members that have joined a member's reduction (R253): those of its TAG and number whose groups are linked with its own; two
groups of one TAG that share no die do not meet. -/
def State.mlrParts (s : State) (m : MlrMember) : List MlrMember :=
  let all := s.mlrs.filter fun b => b.tag == m.tag && b.round == m.round && b.phase != .failed
  all.foldl (fun got _ => mlrGrow all got) (all.filter fun b => b.id == m.id || mlrLinked m b)

/-- What members compare (R255). -/
def mlrAgrees (a b : MlrMember) : Bool :=
  let esum (m : MlrMember) : DWord :=
    if m.op = .sum ∧ !m.tp ∧ m.type ≠ .i32 then BitVec.ofInt 64 ((m.exps.map (·.toInt)).foldl (· + ·) 0) else 0
  a.op == b.op && a.type == b.type && a.tp == b.tp && a.n == b.n && a.otype == b.otype && a.fcode == b.fcode &&
    a.members.all (b.members.contains ·) && b.members.all (a.members.contains ·) && esum a == esum b

/-- X between two members (Table FAB-1). -/
def State.between (s : State) (p q : BitVec 16) : Nat :=
  let at_ (i : Nat) (x : BitVec 16) : Nat := (x.extractLsb' i 4).toNat
  if p = q then 32
  else if p.extractLsb' 4 12 = q.extractLsb' 4 12 then 128
  else 256 + 256 * (hops1 (at_ 4 p) (at_ 4 q) s.extent.1 + hops1 (at_ 8 p) (at_ 8 q) s.extent.2.1 +
    hops1 (at_ 12 p) (at_ 12 q) s.extent.2.2)

/-- The bound of a reduction after its last join (R258). -/
def State.mlrBound (s : State) (m : MlrMember) : Nat :=
  let xg := m.members.foldl (fun b p => m.members.foldl (fun b q => max b (s.between p q)) b) 0
  (if m.op = .sum ∧ m.tp then 2 else 1) * (2 * xg + 512 + (m.n + 31) / 32)

/-- Change a member. -/
def State.onMember (s : State) (id : Nat) (f : MlrMember → MlrMember) : State :=
  { s with mlrs := s.mlrs.map fun m => if m.id == id then f m else m }

/-- Everyone has joined: the members complete with their results, or fail if they disagree (R255, R258). -/
def State.mlrResolve (s : State) (m : MlrMember) : State :=
  let parts := s.mlrParts m
  let need := parts.flatMap (·.members)
  if need.any (fun p => s.mlrFailed.contains (p, m.tag, m.round)) || parts.any (fun m => m.phase != .joined) ||
      !need.all (fun p => parts.any (·.peer == p)) then s
  else
    let agree := parts.all fun m => match parts.head? with | none => true | some h => mlrAgrees h m
    s.each parts fun s m =>
      let s := s.onMember m.id fun x => { x with phase := .resolved, fail := if agree then none else some (6, 0, x.src) }
      if !m.local_ then s
      else if agree then s.soon (s.mlrBound m) slotFabric (.mlrComplete m.id)
      else s.sched (s.cc + 1) slotFabric (.mlrComplete m.id)

/-- A member joins (R255): a member of this package tells those of other packages. -/
def State.mlrJoin (s : State) (m : MlrMember) : State :=
  let m := { m with id := s.mlrNext, start := s.cc, phase := .joined }
  let s' : State := { s with mlrs := s.mlrs ++ [m], mlrNext := s.mlrNext + 1 }
  let s := if m.local_ && m.members.any (fun p => !s.ownPackage p) then
      (s'.emit (.member m)).each m.members fun s p => s.carry (s.queueOf m.org.tile) p
    else s'
  (s.sched (s.cc + m.window) slotDeadline (.mlrJoinDeadline m.id)).mlrResolve m

/-- MLR_JOIN (R255). -/
def execMlrJoin (member : MlrMember) (s : State) : Result := .next (s.mlrJoin member)

/-- A reduction whose members of this package are all done is forgotten. -/
def State.mlrForget (s : State) (m : MlrMember) : State :=
  let parts := s.mlrParts m
  if parts.all fun m => m.phase == .done || (!m.local_ && m.phase == .resolved) then
    { s with mlrs := s.mlrs.filter fun b => !parts.any (·.id == b.id) }
  else s

/-- MLR_JOIN_DEADLINE (R255): a member that still waits fails, and with it the reduction. -/
def execMlrJoinDeadline (member : Nat) (s : State) : Result :=
  .next (match s.mlrs.find? (·.id == member) with
  | none => s
  | some m =>
    if m.phase != .joined then s
    else
      let s' : State := { s with
        mlrFailed := if s.mlrFailed.contains (m.peer, m.tag, m.round) then s.mlrFailed else (m.peer, m.tag, m.round) :: s.mlrFailed }
      if m.local_ then
        (s'.onMember member fun x => { x with phase := .resolved, fail := some (3, 0, x.src) }).sched (s.cc + 1) slotFabric
          (.mlrComplete member)
      else (s'.onMember member fun x => { x with phase := .done }).mlrForget m)

/-- An MLR reaches the station and starts (R254): one that fails its checks contributes nothing but counts among its
die's reductions of the tag. -/
def State.stationReduce (s : State) (m : MlrMember) : State :=
  let o := m.org
  let d := dieOf o.tile
  let c := clusterOf o.tile
  let fail (s : State) (cause x : Nat) (a : DWord) : State :=
    let m := { m with id := s.mlrNext, start := s.cc, phase := .failed, fail := some (cause, x, a) }
    let s' : State := { s with mlrs := s.mlrs ++ [m], mlrNext := s.mlrNext + 1 }
    s'.sched (s.cc + 1) slotFabric (.mlrComplete m.id)
  match SMap.find (SMap.get CtxSet.reset (s.die d).sets (s.queueOf o.tile)).groups m.slot.toNat with
  | none => fail s 7 0 m.src
  | some g =>
    let round := SMap.get 0 (s.die d).rounds g.tag.toNat
    let s := s.onDie d fun x => { x with rounds := SMap.put x.rounds g.tag.toNat (round + 1) }
    let m := { m with tag := g.tag, round := round, members := g.members, die := d, peer := s.peerOf d, window := (s.die d).mlrjoin }
    let fexp : Bool := m.op == .sum && !m.tp && m.type != .i32
    if 2 < m.otype ∨ (m.otype = 2 ∧ m.op ≠ .sum) ∨ (m.type = .l8 ∧ m.fcode = 3) then fail s 7 0 m.src
    else
      let out := if m.op = .agree then 4 * mlrBlocks m else m.n * outSize m.type m.otype
      match lowestRange [s.mlrRange c m.src.toNat (m.n * elemSize m.type) false, s.mlrRange c m.dst.toNat out true,
          if fexp then s.mlrRange c m.exp.toNat (4 * mlrBlocks m) false else none] with
      | some e => fail s.spend 1 e.2 (BitVec.ofNat 64 e.1)
      | none =>
        let s := s.ownFirst o.tile o.strand
        let read (s : State) (a n : Nat) : State × List Byte := match s.engReadGlobal c a n with
          | .ok r => (r.1, r.2.1)
          | .error _ => (s, [])
        let (s, src) := read s m.src.toNat (m.n * elemSize m.type)
        let (s, ex) := if fexp then read s m.exp.toNat (4 * mlrBlocks m) else (s, [])
        let data := chunk (elemSize m.type) m.n src
        let exps := if fexp then chunk 4 (mlrBlocks m) ex else []
        s.mlrJoin { m with data := data, exps := exps }

/-! ### Completion (R255, R258) -/

/-- Write the results at a member; an element that its home refuses keeps its old value (R111). The first fault comes with
the state. -/
def State.mlrWrite (s : State) (m : MlrMember) (results : List (List Byte)) : State × Option (Nat × Nat × DWord) :=
  let folds := (s.strand m.org.tile m.org.strand).folding
  let r := (results.zipIdx).foldl (fun (p : State × Option (Nat × Nat × DWord) × SMap Word) r =>
    let a := m.dst.toNat + r.2 * r.1.length
    match p.1.engWriteGlobal (clusterOf m.org.tile) a r.1 with
    | .ok s => (s, p.2.1, if folds then putWords p.2.2 a r.1 else p.2.2)
    | .error e => (p.1, p.2.1.or (some (1, e.2.1, BitVec.ofNat 64 e.2.2)), p.2.2)) (s, none, [])
  (r.1.onStrand m.org.tile m.org.strand fun x => x.foldWords r.2.2, r.2.1)

/-- A reduction that spans packages holds the rise of power for the package's slot (R339). -/
def State.stagger (s : State) (m : MlrMember) : State :=
  if s.power.stgEn && m.members.any fun p => !s.ownPackage p then
    { s with riseAt := max s.riseAt (s.cc + s.power.stgSlot.toNat * s.power.stgWidth.toNat * s.mhz) }
  else s

/-- MLR_COMPLETE (R255, R258): results, then the completion add, then the fault of a failed reduction. -/
def execMlrComplete (member : Nat) (s : State) : Result :=
  .next (match s.mlrs.find? (·.id == member) with
  | none => s
  | some m =>
    if !(m.phase == .resolved || m.phase == .failed) || !m.local_ then s
    else if m.cpl && (s.strand m.org.tile m.org.strand).gated m.gate then s.sched (s.cc + 1) slotFabric (.mlrComplete member)
    else
      let r := match m.fail with
        | some f => (s, some f)
        | none => s.mlrWrite m (mlrResults m (s.mlrParts m))
      let add := if m.cpl then r.1.ctrAdd (dieOf m.org.tile) m.ctr.toNat m.inc else some r.1
      let s := add.getD r.1
      let f := r.2.or (if add.isNone then some (8, 0, m.ctr.setWidth 64) else none)
      let s := match f with
        | none => s
        | some f => (s.fault m.org .fabric 5 (BitVec.ofNat 32 (packLow [(4, f.1), (4, f.2.1), (4, m.slot.toNat)])) f.2.2).fabCause
            m.org.tile f.1
      let s := (s.finish m.org 5 m.org.seq).stagger m
      let s' : State := if m.phase == .failed then { s with mlrs := s.mlrs.filter (·.id != member) }
        else (s.onMember member fun x => { x with phase := .done }).mlrForget m
      s')

end Sys2Proof.Machine
end

