-- ==== Sys2Proof/Machine/Fabric.lean ====
section
/-! DEFINITION. Class F, ricks and reductions (11_fabric R236 to R258), and the steps of a tile's fabric queue, of ricks,
of cords on the ring and of remote loads. -/
namespace Sys2Proof.Machine

/-! ### Words -/

/-- The alignment check of RSW, RAM and RLD (R247, R248). -/
def fabAlign (a : Reg) (w : Bool) (s : State) : Check :=
  need ((s.me.readG a).toNat % (if w then 8 else 4) == 0) (.at_ .align (s.me.readG a))

/-- The checks of a queued F word with an address. -/
def fabCheck (a : Reg) (w : Bool) (s : State) : Check := (fabAlign a w s).and fun _ => fabRoom s

/-- An RSW or RAM word becomes an entry (R247); its words fold into the digest of its strand (R281). -/
def State.sendEntry (s : State) (kind : EntryKind) (a b : Reg) (w : Bool) : State :=
  let va := s.me.readG a
  let x := s.me.readG b
  let data := if w then x else x &&& 0xFFFFFFFF#64
  let (o, s) := s.command 5 true
  let s := s.onMe fun y => y.foldBytes va.toNat (leBytes (if w then 8 else 4) x.toNat)
  s.toStation (.entry kind va data w o s.cc)

/-- RSW (R247). -/
def execRsw (a b : Reg) (w : Bool) : State → Result := guarded (fabCheck a w) fun s => s.sendEntry .store a b w

/-- RAM (R247). -/
def execRam (a b : Reg) (op : RamOp) (w : Bool) : State → Result :=
  guarded (fabCheck a w) fun s => s.sendEntry (.ram op) a b w

/-- RLD (R248): the register is watched for its bound. -/
def execRld (d a : Reg) (w signed : Bool) : State → Result :=
  guarded (fabCheck a w) fun s =>
    let va := s.me.readG a
    let due := s.cc + s.rldBound s.myDie s.myCluster va
    let bundle := s.me.bundleSeq
    let o := s.origin s.me.seqs.fabric
    let s := s.onMe fun x => { x.loads 5 o.seq with seqs := x.seqs.bump 5 }
    let s := s.watch (.g d) due
    s.toStation (.load va (if w then 8 else 4) signed d o due bundle (s.me.ownBytes va.toNat (if w then 8 else 4)))

/-- RFL (R249). -/
def execRfl (a : Reg) (all : Bool) : State → Result :=
  guarded fabRoom fun s => s.toStation (.flush all ((s.me.readG a).setWidth 16) (s.origin 0))

/-- MGRP (R252): f0 is read at issue. -/
def execMgrp (slot : BitVec 4) : State → Result :=
  guarded fabRoom fun s =>
    let addr := s.me.f[0]
    let (o, s) := s.command 5 false
    s.toStation (.group slot addr o)

/-- The count of an MLR (Table FAB-10). -/
def mlrCount (f2 : DWord) : Nat := let n := (f2.extractLsb' 0 24).toNat; if n = 0 then 2 ^ 24 else n

/-- An MLR with its staging (Table FAB-10), before it reaches the station. -/
def mlrOf (op : MlrOp) (type : MlrType) (tp cpl : Bool) (f : Vector DWord 8) (o : Origin) (gate : Nat) : MlrMember where
  id := 0
  local_ := true
  phase := .joined
  org := o
  die := dieOf o.tile
  peer := 0
  tag := 0
  round := 0
  op := op
  type := type
  tp := tp
  n := mlrCount f[2]
  otype := (f[2].extractLsb' 32 3).toNat
  fcode := f[2].extractLsb' 36 2
  members := []
  start := 0
  window := 0
  slot := f[5].extractLsb' 0 4
  src := f[0]
  dst := f[1]
  exp := f[3]
  cpl := cpl
  ctr := f[4].extractLsb' 0 24
  inc := (f[4].extractLsb' 32 32).setWidth 64
  gate := gate
  data := []
  exps := []
  fail := none

/-- The checks of MLR: under DET a sum of bf16, f32 or l8 keeps the order of its group (R322). -/
def mlrCheck (op : MlrOp) (type : MlrType) (tp : Bool) (s : State) : Check :=
  (need (!s.det || op != .sum || type == .i32 || tp) (.plain .illegal)).and fun _ => fabRoom s

/-- MLR (R253): its staging is read at issue. -/
def execMlr (op : MlrOp) (type : MlrType) (tp cpl : Bool) : State → Result :=
  guarded (mlrCheck op type tp) fun s =>
    let f := s.me.f
    let gate := s.me.relNext
    let (o, s) := s.command 5 false
    s.toStation (.reduce (mlrOf op type tp cpl f o gate))

/-- A remote-fault record of 32 bytes (Table FAB-5). -/
def RFRecord.word (r : RFRecord) : Nat :=
  packLow [(64, r.addr.toNat), (32, r.seq), (2, r.strand), (16, r.peer.toNat), (4, r.kind), (1, r.dbl.toNat), (4, r.xcause),
    (4, r.cause), (1, 1), (64, r.data.toNat), (8, r.tile), (56, 0)]

/-- RFQ (R250). -/
def execRfq (d : Reg) (s : State) : Result :=
  let x := match s.myTile.rfq with | [] => 0 | r :: _ => r.word
  let s := s.onMyTile fun t => { t with rfq := t.rfq.tail }
  .next ((s.write 4 (.g d (BitVec.ofNat 64 x))).write 4 (.g (d + 1) (BitVec.ofNat 64 (x / 2 ^ 64))))

/-- Whether an MLR of a strand is in progress: issued and not complete (R258). -/
def State.mlrBusy (s : State) (t k : Nat) : Bool :=
  (s.tile t).fq.any (fun i => match i with | .reduce m => m.org.strand == k | _ => false) ||
    s.mlrs.any fun m => m.local_ && m.phase != .done && m.org.tile == t && m.org.strand == k

/-- RSTA (R251, Table FAB-7): what was recorded in this cc stays. -/
def execRsta (d : Reg) (clr : Bool) (s : State) : Result :=
  let x := s.myTile
  let new := x.fNew.1 == s.cc
  let v := packLow [(1, (s.mlrBusy s.bun.tile s.bun.strand).toNat), (3, 0), (4, x.fCause), (3, 0), (5, x.rfq.length),
    (16, x.fOvf), (16, x.fFaults), (8, 0), (8, (s.die s.myDie).ricks.length)]
  let s := s.write 4 (.g d (BitVec.ofNat 64 v))
  .next (if clr then s.onMyTile fun x => { x with
    fOvf := 0, fFaults := if new then x.fNew.2 else 0, fCause := if new then x.fCause else 0 } else s)

/-! ### The fabric queue -/

/-- A word passes to the station (R237). -/
def State.passItem (s : State) : FabItem → State
  | .entry kind va data dbl o issue => s.stationEntry kind va data dbl o issue
  | .remoteAdd id inc peer o issue _ => s.stationAdd id inc peer o issue
  | .load va size signed dest o due bundle own => s.stationLoad va size signed dest o due bundle own
  | .flush all peer o => s.stationFlush all peer o
  | .group slot addr o => s.stationGroup slot addr o
  | .reduce m => s.stationReduce m
  | .drain o _ => s.departWhere (dieOf o.tile) (·.holds o.tile o.strand)

/-- The drains at the head of a queue are no words: they take effect at once (R241). -/
def State.passDrains (s : State) (t : Nat) : List FabItem → State
  | .drain o r :: l => ((s.passItem (.drain o r)).onTile t fun x => { x with fq := x.fq.tail }).passDrains t l
  | _ => s

/-- FABRIC_QUEUE_ARRIVAL (R237): the queue passes one word in a cc, unless its head waits. -/
def execFabricQueueArrival (t : Nat) (s : State) : Result :=
  .next (if s.cc < (s.tile t).fqCc then s
  else
    let s := s.passDrains t (s.tile t).fq
    match (s.tile t).fq with
    | [] => s
    | i :: rest => match s.headWait t i with
      | .stay => s
      | .walk page =>
        let s := s.onTile t fun x => { x with fqWalk := some page }
        if ((s.cluster (clusterOf t)).walking page).isSome then s else s.touch (clusterOf t) (BitVec.ofNat 64 (page * 65536))
      | .no =>
        let s := (s.onTile t fun x => { x with fq := rest, fqCc := s.cc + 1, fqWalk := none }).passItem i
        let s := (s.passDrains t (s.tile t).fq).wakeWhere t (· == .fabricQueue)
        if (s.tile t).fq.isEmpty then s else s.sched (s.cc + 1) (slotQueue t) (.fabricQueueArrival t))

/-! ### Ricks, cords, remote loads -/

/-- RICK_AGE_DEPARTURE, or a departure for a flush, a release, a trap or a stop (R238). -/
def execRickAgeDeparture (d rick : Nat) (s : State) : Result := .next (s.depart d rick)

/-- RING_SLOT_ARRIVAL (R231): a refused slot makes one more lap, within its bound; the second arrival is always accepted. -/
def execRingSlotArrival (p : Packet) (lap : Nat) (refused : Bool) (s : State) : Result :=
  .next (if refused && lap == 1 && s.cc < packetDue p then s.soon (packetDue p - s.cc) slotRing (.ringSlotArrival p 2 false)
  else match p with
    | .cord c => s.sched s.cc slotRing (.cordPerform c)
    | .load r => s.sched s.cc slotLoad (.remoteLoadRequest r))

/-- Whether a packet that left the same station for the same home earlier is still on its way (R232). -/
def State.laterThan (s : State) (p : Packet) : Bool :=
  s.agenda.any fun e => match packetOf e.2 with
    | some b => packetDie b == packetDie p && packetPeer b == packetPeer p && packetId b < packetId p
    | none => false

/-- CORD_PERFORM (R232, R240): the home performs a source's packets in the order they left. -/
def execCordPerform (c : Cord) (s : State) : Result :=
  .next (if s.laterThan (.cord c) then s.sched (s.cc + 1) slotRing (.cordPerform c) else s.cordHere c)

/-- REMOTE_LOAD_REQUEST (R248): a request leaves its station, behind the departures of its cc; at its home it is served in the
order of its source's packets (R232). -/
def execRemoteLoadRequest (r : RemoteLoad) (s : State) : Result :=
  let d := dieOf r.org.tile
  .next (match r.sent with
  | none => s.send d (.load { r with sent := some (s.cordNext, s.cc + s.transit d r.peer) })
  | some _ => if s.laterThan (.load r) then s.sched (s.cc + 1) slotLoad (.remoteLoadRequest r) else s.loadHere r false)

/-- The queues whose launches have traffic on its way through a port: packets, streams to other packages, reductions with members
there. -/
def State.heldBy (s : State) (port : Nat) : List Nat :=
  let via (p : BitVec 16) : Bool := s.portTo p == some port
  ((s.agenda.filterMap fun e => packetOf e.2).filter fun p => via (packetPeer p)).map (packetQueue s) ++
  (s.tiles.filter fun e => e.2.sp.any fun c => (c.src == .remote || c.dst == .remote) && via (c.d[6].setWidth 16)).map (fun e => s.queueOf e.1) ++
  (s.mlrs.filter fun m => m.local_ && (m.phase == .joined || m.phase == .resolved) && m.members.any via).map fun m => s.queueOf m.org.tile

/-- FLIT_CRC_FAILURE (R234): up to three retries of a flit are within the bounds; a fourth failure in a row starts a
self-test of the port's lanes, and until its verdict the port holds what goes through it. -/
def execFlitCrcFailure (port tries : Nat) (s : State) : Result :=
  .next (if tries < 4 then s
  else
    let s' : State := { s with ports := SMap.put s.ports port ((SMap.get [] s.ports port ++ s.heldBy port).eraseDups) }
    s'.startTest ⟨8, 0, 0, port⟩)

end Sys2Proof.Machine
end

