-- ==== Sys2Proof/Machine/SysReg.lean ====
section
/-! DEFINITION. System registers (14_traps R323 to R325, Tables TRP-7, TRP-8): SRD, SWR, TRET; and SLP and SFLT (R328, R329). -/
namespace Sys2Proof.Machine

/-! ### Registers of a die and of the package -/

/-- A bit field of a doubleword as a natural. -/
def bits (w : DWord) (lo n : Nat) : Nat := (w.extractLsb' lo n).toNat

/-- READYMAP; the management bit reads 1 whenever it can be read (Table SYS-3). -/
def State.readyMap (s : State) : DWord := s.ready ||| 2

/-- MEMGOV as a word (Table MEM-2). -/
def memgovWord (g : MemGov) : DWord :=
  BitVec.ofNat 64 (packLow [(3, g.wcur.toNat), (1, 0), (3, g.wmin.toNat), (1, 0), (3, g.wmax.toNat), (1, g.hold.toNat), (4, 0),
    (16, g.lo.toNat), (16, g.hi.toNat), (8, g.scrubh.toNat)])

/-- A write of MEMGOV (Table MEM-2): fields out of range keep their values. -/
def MemGov.write (g : MemGov) (w : DWord) : MemGov where
  scrubh := if 1 ≤ bits w 48 8 ∧ bits w 48 8 ≤ 24 then w.extractLsb' 48 8 else g.scrubh
  hi := w.extractLsb' 32 16
  lo := w.extractLsb' 16 16
  hold := w.getLsbD 11
  wmax := if bits w 8 3 ≤ 4 then w.extractLsb' 8 3 else g.wmax
  wmin := if bits w 4 3 ≤ 4 then w.extractLsb' 4 3 else g.wmin
  wcur := g.wcur

/-- Read a register of die scope (Tables XLT-5, FAB-11, CON-5, MEM-2, TRP-8). -/
def Die.readReg (x : Die) : SysReg → DWord
  | .migthr => x.migthr
  | .mlrjoin => BitVec.ofNat 64 x.mlrjoin
  | .ctrarea => BitVec.ofNat 64 (packLow [(11, x.ctrNfr), (21, 0), (20, x.ctrFrame)])
  | .memgov => memgovWord x.gov
  | .savepool => BitVec.ofNat 64 (packLow [(32, 0), (20, x.poolFrame), (11, 0), (1, x.poolEn.toNat)])
  | _ => 0

/-- Write a register of die scope. -/
def Die.writeReg (x : Die) (w : DWord) : SysReg → Die
  | .migthr => { x with migthr := w }
  | .mlrjoin => if 1024 ≤ bits w 0 25 ∧ bits w 0 25 ≤ 16777216 then { x with mlrjoin := bits w 0 25 } else x
  | .ctrarea => { x with ctrFrame := bits w 32 20, ctrNfr := if bits w 0 11 ≤ 2040 then bits w 0 11 else x.ctrNfr }
  | .memgov => { x with gov := x.gov.write w }
  | .savepool => if bits w 32 20 ≤ 0xF5AE0 then { x with poolEn := w.getLsbD 63, poolFrame := bits w 32 20 } else x
  | _ => x

/-- QCFGq as a word (Table SCH-1). -/
def QCfg.word (c : QCfg) : DWord :=
  BitVec.ofNat 64 (packLow [(24, c.scid.toNat), (20, c.frame.toNat), (4, c.stn.toNat), (15, 0), (1, c.en.toNat)])

/-- QCFGq of the package. -/
def State.queueCfg (s : State) (q : Nat) : QCfg := SMap.get QCfg.reset s.qcfg q

/-- Read a register of package scope. -/
def State.pkgRead (s : State) : SysReg → DWord
  | .bundlelimit => BitVec.ofNat 64 s.bundlelimit
  | .stopwin => BitVec.ofNat 64 s.stopwin
  | .qcfg q => (s.queueCfg q.toNat).word
  | .readymap => s.readyMap
  | _ => 0

/-- A write of QCFGq (Table SCH-1, R284): launches count from 0 since EN last became 1. -/
def State.setQueue (s : State) (q : Nat) (w : DWord) : State :=
  let c := s.queueCfg q
  let n : QCfg := ⟨w.getLsbD 63, if bits w 44 4 < 8 then w.extractLsb' 44 4 else c.stn, w.extractLsb' 24 20, w.extractLsb' 0 24⟩
  let s' : State := { s with
    qcfg := SMap.put s.qcfg q n, qtaken := if n.en && !c.en then SMap.put s.qtaken q 0 else s.qtaken }
  if n.en then s'.sched s.cc 13 (.launchTake q) else s'

/-- Write a register of package scope. -/
def State.pkgWrite (s : State) (w : DWord) : SysReg → State
  | .bundlelimit => if 64 ≤ bits w 0 16 then { s with bundlelimit := bits w 0 16 } else s
  | .stopwin => if 1024 ≤ bits w 0 32 then { s with stopwin := bits w 0 32 } else s
  | .qcfg q => s.setQueue q.toNat w
  | _ => s

/-! ### Registers of strands, tiles, clusters and launches -/

/-- WAYPART as a word (Table MEM-5). -/
def Cluster.waypart (x : Cluster) : DWord :=
  BitVec.ofNat 64 (packLow [(5, x.cw), (3, 0), (5, x.tw), (3, 0), (1, x.busy.toNat), (15, 0), (32, x.seq.toNat)])

/-- STOPFLAG as a word (Table TRP-8). -/
def TrapRegs.stopflag (r : TrapRegs) : DWord := BitVec.ofNat 64 (packLow [(1, r.pend.toNat), (1, r.deep.toNat), (1, r.exp.toNat)])

/-- TRAPST as a word. -/
def TrapRegs.trapst (r : TrapRegs) : DWord :=
  BitVec.ofNat 64 (packLow [(1, r.inh.toNat), (1, r.priv.toNat), (1, r.ppriv.toNat), (1, r.lact0.toNat), (1, r.lact1.toNat)])

/-- TRAPVEC as a word. -/
def TrapRegs.trapvec (r : TrapRegs) : DWord := BitVec.ofNat 64 (packLow [(32, r.entry.toNat), (31, 0), (1, r.en.toNat)])

/-- The context set of the launch on a tile (R243). -/
def State.ctxSet (s : State) (t : Nat) : CtxSet := SMap.get CtxSet.reset (s.die (dieOf t)).sets (s.queueOf t)

/-- RFCTR as a word (Table FAB-3). -/
def CtxSet.rfctr (c : CtxSet) : DWord := BitVec.ofNat 64 (packLow [(24, c.rfCid), (39, 0), (1, c.rfEn.toNat)])

/-- Read a system register as strand k of tile t names it (Table TRP-7). -/
def State.sysRead (s : State) (t k : Nat) (r : SysReg) : DWord :=
  let x := s.strand t k
  let c := s.cluster (clusterOf t)
  match r with
  | .schedmode => BitVec.ofNat 64 x.schedTrap.toNat
  | .efrv => efrV x.fmt x.flags
  | .efra => efrA ((s.tile t).fmt k s.cc) (s.tile t).flagsA
  | .loop0se => loopSE x.loop0
  | .loop0ct => loopCT x.loop0
  | .loop1se => loopSE x.loop1
  | .loop1ct => loopCT x.loop1
  | .trapst => x.trap.trapst
  | .trappc => x.trap.pc.setWidth 64
  | .trapvec => x.trap.trapvec
  | .traprec => BitVec.ofNat 64 x.trap.area
  | .stopflag => x.trap.stopflag
  | .savearea => (s.tile t).saveArea
  | .waypart => c.waypart
  | .ptroot => BitVec.ofNat 64 (packLow [(16, (s.xgenOf (dieOf t) c.ptCtx).toNat), (12, c.ptCtx.toNat), (20, c.ptFrame.toNat),
      (16, c.ptPeer.toNat)])
  | .agelimit => BitVec.ofNat 64 (s.ctxSet t).age
  | .rfctr => (s.ctxSet t).rfctr
  | .migthr | .mlrjoin | .ctrarea | .memgov | .savepool => (s.die (dieOf t)).readReg r
  | .bundlelimit | .stopwin | .qcfg _ | .readymap => s.pkgRead r

/-- LOOPkSE written (Table COR-9). -/
def Loop.setSE (l : Loop) (w : DWord) : Loop := { l with start := w.extractLsb' 0 32, stop := w.extractLsb' 32 32 }
/-- LOOPkCT written. -/
def Loop.setCT (l : Loop) (w : DWord) : Loop := { l with count := w.extractLsb' 0 32, nest := w.getLsbD 62, act := w.getLsbD 63 }

/-- Change the context set of the launch on a tile. -/
def State.onCtxSet (s : State) (t : Nat) (f : CtxSet → CtxSet) : State :=
  s.onDie (dieOf t) fun x => { x with sets := SMap.put x.sets (s.queueOf t) (f (s.ctxSet t)) }

/-- The clusters that a launch on a tile holds; the tile's own if there is none. -/
def State.launchClusters (s : State) (t : Nat) : List Nat :=
  match s.launchOf t with
  | none => [clusterOf t]
  | some l => (List.range l.desc.clcount).map (l.desc.clbase + ·)

/-- Whether the launch on a tile is a serialised re-execution, in which no stop is taken (R321). -/
def State.noStops (s : State) (t : Nat) : Bool := match s.launchOf t with | none => true | some l => l.reexec && l.runs == 2

/-- A request to stop a strand is set or changed (R311): a new request opens a window of the STOPWIN cc that stand then, a deep one
expires at once. In a serialised re-execution the register is written and nothing stops (R321). -/
def State.requestStop (s : State) (t k : Nat) (deep : Bool) : State :=
  let fresh := !(s.strand t k).trap.pend
  let s := s.onStrand t k fun x => { x with
    trap := { x.trap with pend := true, deep := deep }
    stopSince := if fresh then s.cc else x.stopSince, stopUntil := if fresh then s.cc + s.stopwin else x.stopUntil }
  let s := if deep then s.sched s.cc 14 (.stopWindowExpiry t k)
    else if fresh then s.sched (s.cc + s.stopwin) 14 (.stopWindowExpiry t k) else s
  s.wakeSleepers

/-- A request is cancelled before the strand stops (Table TRP-8). -/
def State.cancelStop (s : State) (t k : Nat) (deep : Bool) : State :=
  s.onStrand t k fun x => { x with trap := { x.trap with pend := false, deep := deep, exp := false } }

/-- Write a system register as strand k of tile t names it (Table TRP-8 and those that Table TRP-7 names). The formats of
EFR.V and EFR.A follow R71 and are written at issue; here their flags are cleared. -/
def State.sysWrite (s : State) (t k : Nat) (r : SysReg) (w : DWord) : State :=
  let onTrap (f : TrapRegs → TrapRegs) : State := s.onStrand t k fun x => { x with trap := f x.trap }
  match r with
  | .schedmode => s.onStrand t k fun x => { x with schedTrap := w.getLsbD 0 }
  | .efrv => s.onStrand t k fun x => { x with flags := x.flags.clear w }
  | .efra => s.onTile t fun x => { x with flagsA := x.flagsA.clear w }
  | .loop0se => s.onStrand t k fun x => { x with loop0 := x.loop0.setSE w }
  | .loop0ct => s.onStrand t k fun x => { x with loop0 := x.loop0.setCT w }
  | .loop1se => s.onStrand t k fun x => { x with loop1 := x.loop1.setSE w }
  | .loop1ct => s.onStrand t k fun x => { x with loop1 := x.loop1.setCT w }
  | .trapst => onTrap fun y => { y with lact1 := w.getLsbD 4, lact0 := w.getLsbD 3, ppriv := w.getLsbD 2 }
  | .trappc => onTrap fun y => { y with pc := w.extractLsb' 0 32 }
  | .trapvec => onTrap fun y => { y with en := w.getLsbD 63, entry := w.extractLsb' 0 32 }
  | .traprec => onTrap fun y => { y with area := bits w 6 15 * 64 }
  | .stopflag => if w.getLsbD 0 then s.requestStop t k (w.getLsbD 1) else s.cancelStop t k (w.getLsbD 1)
  | .savearea => s.onTile t fun x => { x with saveArea := BitVec.ofNat 64 (bits w 28 36 * 2 ^ 28) }
  | .waypart => s
  | .ptroot => s.each (s.launchClusters t) fun s c => s.onCluster c fun x => { x with
      ptPeer := w.extractLsb' 48 16, ptFrame := w.extractLsb' 28 20, ptCtx := w.extractLsb' 16 12 }
  | .agelimit => if 256 ≤ bits w 0 17 ∧ bits w 0 17 ≤ 65536 then s.onCtxSet t fun c => { c with age := bits w 0 17 } else s
  | .rfctr => s.onCtxSet t fun c => { c with rfEn := w.getLsbD 63, rfCid := bits w 0 24 }
  | .migthr | .mlrjoin | .ctrarea | .memgov | .savepool => s.onDie (dieOf t) fun x => x.writeReg w r
  | .bundlelimit | .stopwin | .qcfg _ | .readymap => s.pkgWrite w r

/-! ### Words -/

/-- SRD of WAYPART is the one Z word that unprivileged code may issue (R323). -/
def srdCheck (r : SysReg) (s : State) : Check := if r = .waypart then .ok else privileged s

/-- SRD (R324). -/
def execSrd (g : Reg) (r : SysReg) : State → Result :=
  guarded (srdCheck r) fun s => s.write 2 (.g g (s.sysRead s.bun.tile s.bun.strand r))

/-- A field that keeps its value when the code written is reserved (R52, Table NUM-8). -/
def keepIf {n : Nat} (bad new old : BitVec n) : BitVec n := if new = bad then old else new

/-- The format that an SWR of EFR.V writes (Table NUM-9, R52). -/
def FmtV.write (f : FmtV) (w : DWord) : FmtV :=
  ⟨keepIf 3 (w.extractLsb' 14 2) f.l4f, keepIf 3 (w.extractLsb' 12 2) f.l8f, w.extractLsb' 10 2⟩

/-- The format that an SWR of EFR.A writes (Table NUM-8, R52); SP keeps its value under R69. -/
def FmtA.write (f : FmtA) (w : DWord) : FmtA :=
  let n := fmtAOf (w.extractLsb' 11 12)
  { n with af := keepIf 3 n.af f.af, wf := keepIf 3 n.wf f.wf, sp := if n.sp = 1 || n.ww && n.sp = 2 then f.sp else n.sp }

/-- The last format written, whether or not it is seen yet. -/
def Strand.lastFmt (x : Strand) : FmtV := (x.fmtVLog.getLast?.map (·.fmt)).getD x.fmtV
/-- The last format of the array written. -/
def Tile.lastFmt (x : Tile) : FmtA := (x.fmtALog.getLast?.map (·.fmt)).getD x.fmtA

/-- A write of a format field is seen under R71. -/
def State.writeFmt (s : State) (r : SysReg) (w : DWord) : State :=
  match r with
  | .efrv => s.onMe fun x => { x with fmtVLog := x.fmtVLog ++ [⟨x.bundles + 3, x.lastFmt.write w⟩] }
  | .efra =>
    let k := s.bun.strand
    let n := s.me.bundles + 3
    s.onMyTile fun x => { x with fmtALog := x.fmtALog ++ [⟨k, n, s.cc + 3, x.lastFmt.write w⟩] }
  | _ => s

/-- SWR (R324): the strand sees it from its next bundle. -/
def execSwr (g : Reg) (r : SysReg) : State → Result :=
  guarded privileged fun s =>
    let w := s.me.readG g
    (s.writeFmt r w).sched (s.cc + 1) 0 (.systemRegisterPropagate s.bun.tile s.bun.strand r w)

/-- SYSTEM_REGISTER_PROPAGATE (R323): a write takes effect for the strands of the register's scope. -/
def execSystemRegisterPropagate (t k : Nat) (r : SysReg) (w : DWord) (s : State) : Result := .next (s.sysWrite t k r w)

/-- The checks of TRET (R325). -/
def tretCheck (s : State) : Check := (privileged s).and fun _ => need s.me.trap.inh (.plain .illegal)

/-- TRET (R325): the mode returns, and the bundle transfers to TRAPPC; loops are restored behind the transfer (R155). -/
def execTret (loops : Bool) : State → Result :=
  guarded tretCheck fun s =>
    ((s.onMe Strand.leaveHandler).transferTo s.me.trap.pc).onBun fun b => { b with tret := some loops }

/-- The checks of SLP (R328): it waits for its deadline, a queue, or a request to stop. -/
def slpCheck (g : Reg) (mask : BitVec 5) (s : State) : Check :=
  let d := s.me.readG g
  (privileged s).and fun _ =>
    need (d.toNat ≤ s.cc || s.queueReady s.bun.tile mask || (mask.getLsbD 4 && s.me.trap.pend)) (.block (.sleep d mask))

/-- SLP (R328). -/
def execSlp (g : Reg) (mask : BitVec 5) : State → Result := guarded (slpCheck g mask) id

/-- The checks of SFLT (R329). -/
def sfltCheck (b : Reg) (s : State) : Check := (privileged s).and fun _ => scratchCheck (s.me.readG b) 64 64

/-- SFLT pops a queue of a die: its oldest record, the drops since the last SFLT, and the queue without them. -/
def RecQ.pop (q : RecQ) (cc : Nat) : Option (List Byte) × Nat × RecQ :=
  (q.recs.head?, q.drops, { q with recs := q.recs.tail, drops := 0, popped := cc + 1 })

/-- Pop the queue that SFLT names (R329, R250). -/
def State.popQueue (s : State) (t : Nat) (q : RecQueue) : Option (List Byte) × Nat × State :=
  let d := dieOf t
  match q with
  | .memory => let r := (s.die d).memQ.pop s.cc; (r.1, r.2.1, s.onDie d fun x => { x with memQ := r.2.2 })
  | .migration => let r := (s.die d).migQ.pop s.cc; (r.1, r.2.1, s.onDie d fun x => { x with migQ := r.2.2 })
  | .health => let r := (s.die d).healthQ.pop s.cc; (r.1, r.2.1, s.onDie d fun x => { x with healthQ := r.2.2 })
  | .remote =>
    ((s.tile t).rfq.head?.map fun r => leBytes 32 r.word, (s.tile t).rfDrop,
      s.onTile t fun x => { x with rfq := x.rfq.tail, rfDrop := 0 })

/-- SFLT (R329). -/
def execSflt (g b : Reg) (q : RecQueue) : State → Result :=
  guarded (sfltCheck b) fun s =>
    let a := (s.me.readG b).toNat
    let r := s.popQueue s.bun.tile q
    let bs := r.1.getD []
    let s := r.2.2
    (s.write 64 (.mem (s.myTile.phys a) (bs ++ List.replicate (64 - bs.length) 0))).write 64
      (.g g (BitVec.ofNat 64 (packLow [(1, r.1.isSome.toNat), (31, 0), (32, r.2.1)])))

end Sys2Proof.Machine
end

