-- ==== Sys2Proof/Machine/Save.lean ====
section
/-! DEFINITION. Save areas (14_traps R312 to R316, Tables TRP-3, TRP-4, TRP-10): what a save writes, what a resume reads; and
CSAV and CRST (R327). -/
namespace Sys2Proof.Machine

/-- Bytes to write, each list at its offset. -/
abbrev Segs := List (Nat × List Byte)

/-- A doubleword at an offset. -/
def seg8 (off : Nat) (w : DWord) : Nat × List Byte := (off, leBytes 8 w.toNat)

/-- Doublewords at rising offsets. -/
def segs8 (off : Nat) (l : List DWord) : Segs := (l.zipIdx).map fun w => seg8 (off + 8 * w.2) w.1

/-! ### Strand regions (Table TRP-4) -/

/-- Counted cc of the node that a strand is in (R298). -/
def Strand.counted (x : Strand) (cc : Nat) : Nat := match x.node with | none => 0 | some n => n.pause.getD cc - n.since

/-- Predicates as a byte, p0 true. -/
def Strand.preds (x : Strand) : Nat := packLow ((List.range 8).map fun i => (1, (x.readP (BitVec.ofNat 3 i)).toNat))

/-- The flags doubleword of a region. -/
def Strand.saveFlags (x : Strand) (v : Bool) : DWord :=
  BitVec.ofNat 64 (packLow [(1, x.folding.toNat), (1, x.node.isSome.toNat), (1, (x.gang == .ganged).toNat), (60, 0), (1, v.toNat)])

/-- The words that every save writes. -/
def strandHead (x : Strand) (cc : Nat) (v : Bool) (pc : Word) : Segs :=
  segs8 0 ((List.range 32).map fun i => x.readG (BitVec.ofNat 5 i)) ++
  segs8 0x100 [pc.setWidth 64, BitVec.ofNat 64 x.preds, BitVec.ofNat 64 x.schedTrap.toNat, efrV x.lastFmt x.flags,
    x.trap.trapst, x.trap.pc.setWidth 64, x.trap.trapvec, BitVec.ofNat 64 x.trap.area,
    loopSE x.loop0, loopCT x.loop0, loopSE x.loop1, loopCT x.loop1,
    x.digest.extractLsb' 0 64, x.digest.extractLsb' 64 64, x.saveFlags v, BitVec.ofNat 64 (x.counted cc)]

/-- The words that only a deep save and CSAV write. -/
def strandBody (x : Strand) : Segs :=
  segs8 0x180 (x.d.toList ++ x.q.toList ++ x.f.toList ++ x.n.toList) ++
  (List.range 8).map (fun i => (0x300 + 128 * i, leBytes 128 (x.readM (BitVec.ofNat 3 i)).toNat)) ++
  (List.range 32).map (fun i => (0x800 + 512 * i, leBytes 512 (x.readV (BitVec.ofNat 5 i)).toNat))

/-- A doubleword of a region. -/
def at8 (b : Array Byte) (off : Nat) : DWord := BitVec.ofNat 64 (leNat ((List.range 8).map fun i => b.getD (off + i) 0))

/-- n bytes of a region as a natural. -/
def atN (b : Array Byte) (off n : Nat) : Nat := leNat ((List.range n).map fun i => b.getD (off + i) 0)

/-- The head of a region restored, but for the trap registers (R314, R327): registers, modes, loops, digest, and the cc that
the node has counted. -/
def Strand.loadHead (x : Strand) (b : Array Byte) (cc : Nat) : Strand :=
  let fl := at8 b 0x170
  { x with
    g := Vector.ofFn fun i => at8 b (8 * i)
    pc := (at8 b 0x100).setWidth 32
    p := Vector.ofFn fun i => (at8 b 0x108).getLsbD i
    schedTrap := (at8 b 0x110).getLsbD 0
    fmtV := x.lastFmt.write (at8 b 0x118)
    fmtVLog := []
    flags := ⟨(at8 b 0x118).getLsbD 5, (at8 b 0x118).getLsbD 4, (at8 b 0x118).getLsbD 3, (at8 b 0x118).getLsbD 2,
      (at8 b 0x118).getLsbD 1, (at8 b 0x118).getLsbD 0⟩
    loop0 := (x.loop0.setSE (at8 b 0x140)).setCT (at8 b 0x148)
    loop1 := (x.loop1.setSE (at8 b 0x150)).setCT (at8 b 0x158)
    digest := at8 b 0x168 ++ at8 b 0x160
    folding := fl.getLsbD 0
    node := x.node.map fun n => { n with since := cc - (at8 b 0x178).toNat, pause := none } }

/-- The trap registers of a region restored (R314); the request to stop is gone. -/
def Strand.loadTraps (x : Strand) (b : Array Byte) : Strand :=
  let st := at8 b 0x120
  let vec := at8 b 0x130
  { x with trap := {
      lact1 := st.getLsbD 4, lact0 := st.getLsbD 3, ppriv := st.getLsbD 2, priv := st.getLsbD 1, inh := st.getLsbD 0,
      pc := (at8 b 0x128).setWidth 32, en := vec.getLsbD 63, entry := vec.setWidth 32, area := bits (at8 b 0x138) 6 15 * 64,
      exp := false, deep := false, pend := false } }

/-- The body of a region restored. -/
def Strand.loadBody (x : Strand) (b : Array Byte) : Strand :=
  { x with
    d := Vector.ofFn fun i => at8 b (0x180 + 8 * i)
    q := Vector.ofFn fun i => at8 b (0x200 + 8 * i) &&& stgMask .quilt (BitVec.ofNat 4 i)
    f := Vector.ofFn fun i => at8 b (0x240 + 8 * i)
    n := Vector.ofFn fun i => at8 b (0x280 + 8 * i)
    m := Vector.ofFn fun i => BitVec.ofNat 1024 (atN b (0x300 + 128 * i) 128)
    v := Vector.ofFn fun i => BitVec.ofNat 4096 (atN b (0x800 + 512 * i) 512) }

/-- Registers that a cheap stop leaves undefined (R168, R312); `u` makes the free values of one resume distinct. -/
def Strand.freeBody (x : Strand) (u : Nat) : Strand :=
  { x with
    d := Vector.ofFn fun i => Config.freeD (u + i)
    q := Vector.ofFn fun i => Config.freeD (u + 16 + i) &&& stgMask .quilt (BitVec.ofNat 4 i)
    f := Vector.ofFn fun i => Config.freeD (u + 24 + i)
    n := Vector.ofFn fun i => Config.freeD (u + 32 + i)
    m := Vector.ofFn fun i => Config.freeM (u + i)
    v := Vector.ofFn fun i => Config.freeV (u + i) }

/-! ### Tile regions (Table TRP-3) -/

/-- A bank's format record in EFR.A's layout (Table TRP-3). -/
def BankRec.efr (r : BankRec) : DWord :=
  BitVec.ofNat 64 (packLow [(11, 0), (2, r.sp.toNat), (2, 0), (1, r.ws.toNat), (2, r.wf.toNat), (1, r.ww.toNat)])

/-- A bank's format record from EFR.A's layout. -/
def bankRecOf (w : DWord) : BankRec := (fmtAOf (w.extractLsb' 11 12)).record

/-- The cells of a bank that are not zero. -/
def bankSegs (off : Nat) (b : Bank) : Segs :=
  (b.cells.filter (·.1 < 9216)).map fun e =>
    let c := SMap.get Cell.zero b.cells e.1
    (off + 4 * e.1, [c.c0, c.c1, c.i0.setWidth 8, c.i1.setWidth 8])

/-- A bank from its cells and record. -/
def bankOf (b : Array Byte) (off : Nat) (r : DWord) : Bank :=
  ⟨(List.range 9216).filterMap fun i =>
    let a := off + 4 * i
    let c : Cell := ⟨b.getD a 0, b.getD (a + 1) 0, (b.getD (a + 2) 0).setWidth 3, (b.getD (a + 3) 0).setWidth 3⟩
    if c = Cell.zero then none else some (i, c), bankRecOf r⟩

/-- The tile region but for the scratchpad. -/
def tileSegs (x : Tile) : Segs :=
  segs8 0x15000 x.a.toList ++
  [(0x15040, leBytes 4 x.actL.last.toNat), (0x15044, leBytes 4 x.outL.last.toNat)] ++
  (List.range 96).map (fun c => (0x15048 + 4 * c, leBytes 4 (x.col c).last.toNat)) ++
  [seg8 0x151C8 (efrA x.lastFmt x.flagsA), seg8 0x151D0 (BitVec.ofNat 64 x.chain.toNat), seg8 0x151D8 x.bankA.fmt.efr,
    seg8 0x151E0 x.bankS.fmt.efr] ++
  bankSegs 0x15400 x.bankA ++ bankSegs 0x1E400 x.bankS ++
  (x.acc.filter (·.1 < 18432)).map (fun e => seg8 (0x27400 + 8 * e.1) (SMap.get 0 x.acc e.1)) ++
  (List.range 260).map (fun b => (0x4B400 + 16 * b, x.qRecord b)) ++
  (List.range 256).map (fun i => seg8 (0x4C800 + 8 * i) (x.qcell i).patch) ++
  (x.pairs.filter (·.1 < 8)).flatMap fun e =>
    let p := SMap.get ⟨0, 0, 0, false⟩ x.pairs e.1
    segs8 (0x4D000 + 32 * e.1) [BitVec.ofNat 64 p.base, BitVec.ofNat 64 p.alt, BitVec.ofNat 64 p.len, BitVec.ofNat 64 p.pub.toNat]

/-- The tile region restored, but for the scratchpad. -/
def Tile.load (x : Tile) (b : Array Byte) : Tile :=
  let efr := at8 b 0x151C8
  let x : Tile := { x with
    a := Vector.ofFn fun i => at8 b (0x15000 + 8 * i) &&& stgMask .array (BitVec.ofNat 4 i)
    actL := ⟨BitVec.ofNat 32 (atN b 0x15040 4), []⟩
    outL := ⟨BitVec.ofNat 32 (atN b 0x15044 4), []⟩
    colL := (List.range 96).map fun c => (c, ⟨BitVec.ofNat 32 (atN b (0x15048 + 4 * c) 4), []⟩)
    fmtA := x.lastFmt.write efr
    fmtALog := []
    flagsA := ⟨efr.getLsbD 2, efr.getLsbD 1, efr.getLsbD 0⟩
    chain := (at8 b 0x151D0).getLsbD 0
    bankA := bankOf b 0x15400 (at8 b 0x151D8)
    bankS := bankOf b 0x1E400 (at8 b 0x151E0)
    acc := (List.range 18432).filterMap fun i =>
      let w := at8 b (0x27400 + 8 * i)
      if w = 0 then none else some (i, w)
    pairs := (List.range 8).filterMap fun k =>
      let o := 0x4D000 + 32 * k
      let len := (at8 b (o + 16)).toNat
      if len = 0 then none else some (k, ⟨(at8 b o).toNat, (at8 b (o + 8)).toNat, len, (at8 b (o + 24)).getLsbD 0⟩) }
  let x := (List.range 256).foldl (fun x i => x.setQcell i { x.qcell i with patch := at8 b (0x4C800 + 8 * i) }) x
  (List.range 260).foldl (fun x i => x.setQRecord i ((List.range 16).map fun j => b.getD (0x4B400 + 16 * i + j) 0)) x

/-- A free format: one that a write can leave (R4, R52, R69). -/
def freeFmt (f : Word) : FmtA := FmtA.reset.write ((f.extractLsb' 0 12).setWidth 64 <<< 11)

/-- Array, Quilt and scratchpad after a cheap stop: undefined, with every shadow pair unconfigured (R312). Each value is one of its
type (R4, Table QLT-1); no cell takes part in steps before a QPAT makes it, as R350 needs (log 39). -/
def Tile.freeBody (x : Tile) (u : Nat) : Tile :=
  let cell (v i : Nat) : Cell := let w := Config.freeW (v + i)
    ⟨w.extractLsb' 0 8, w.extractLsb' 8 8, w.extractLsb' 16 3, w.extractLsb' 24 3⟩
  let f := Config.freeW u
  { x with
    a := Vector.ofFn fun i => Config.freeD (u + i) &&& stgMask .array (BitVec.ofNat 4 i)
    actL := ⟨Config.freeW (u + 1), []⟩
    outL := ⟨Config.freeW (u + 2), []⟩
    colL := (List.range 96).map fun c => (c, ⟨Config.freeW (u + 16 + c), []⟩)
    fmtA := freeFmt f
    fmtALog := []
    flagsA := ⟨f.getLsbD 12, f.getLsbD 13, f.getLsbD 14⟩
    chain := f.getLsbD 15
    bankA := ⟨(List.range 9216).map fun i => (i, cell (u + 0x4000) i), (freeFmt (Config.freeW (u + 3))).record⟩
    bankS := ⟨(List.range 9216).map fun i => (i, cell (u + 0x8000) i), (freeFmt (Config.freeW (u + 4))).record⟩
    acc := (List.range 18432).map fun i => (i, Config.freeD (u + 0x8000 + i))
    pairs := []
    qcells := (List.range 256).map fun i =>
      let w := Config.freeD (u + 0x10000 + i)
      (i, ⟨Config.freeW (u + 0x10000 + i), Config.freeW (u + 0x10100 + i), (Config.freeD (u + 0x10100 + i)).setWidth 42 |>.setWidth 64,
        cntRestored (w.extractLsb' 0 12), outRestored (w.extractLsb' 12 2), w.getLsbD 14⟩)
    qdoms := (List.range 4).map fun i =>
      let w := Config.freeW (u + 0x10200 + i)
      (i, ⟨w.getLsbD 0 && 8 ≤ (w.extractLsb' 8 6).toNat && (w.extractLsb' 8 6).toNat ≤ 32, (w.extractLsb' 16 16).toNat + 1,
        (w.extractLsb' 8 6).toNat⟩)
    scratch := (List.range scratchSize).filterMap fun i => let b := Config.freeByte (u * 0x400000 + i)
      if b = 0 then none else some (i, b) }

/-! ### Areas in memory -/

/-- The stack that an area stands in, and its first byte, when it lies in this package. -/
def State.areaHome (s : State) (w : DWord) : Option (Nat × Nat) :=
  let peer := w.extractLsb' 48 16
  if s.ownPackage peer && stnOf peer < 8 then some (stnOf peer, bits w 28 20 * 65536) else none

/-- Write part of an area: bytes of [lo, hi) that no segment gives become zero, and no others change. Whole lines replace
uncorrectable ones. -/
def State.writeArea (s : State) (d base lo hi : Nat) (l : Segs) : State :=
  s.onDie d fun x => { x.renew (fun b => base + lo ≤ b && b + 128 ≤ base + hi) with
    mem := (l.filter fun g => lo ≤ g.1 && g.1 + g.2.length ≤ hi).foldl (fun m g => m.splice (base + g.1) (base + g.1 + g.2.length) (cellsOf (base + g.1) g.2))
      (x.mem.clear (base + lo) (base + hi)) }

/-- Put a memory in a part of an area that begins at `base`. -/
def State.fillArea (s : State) (d base n : Nat) (m : Memory) : State :=
  s.onDie d fun x => { x.renew (fun b => base ≤ b && b + 128 ≤ base + n) with
    mem := x.mem.splice base (base + n) (m.part 0 n base) }

/-- A part of an area, its uncorrectable lines zero, moved to begin at 0 (Table MEM-3). -/
def State.areaPart (s : State) (d base n : Nat) : Memory :=
  let x := s.die d
  (x.bad.foldl (fun m l => m.clear l (l + 128)) x.mem).part base (base + n) 0

/-- Read part of an area. -/
def State.readArea (s : State) (d base n : Nat) : Array Byte := ((s.areaPart d base n).reads 0 n).toArray

/-- Offset of a strand's region in a save area. -/
def regionAt (k : Nat) : Nat := 0x1000 + 0x5000 * k

/-- VALID of a save area (Table TRP-3). -/
def validWord (id : Word) (kind : Nat) : DWord := BitVec.ofNat 64 (packLow [(1, 1), (2, kind), (29, 0), (32, id.toNat)])

/-- The header of a save area: VALID, the work unit, the cc. -/
def headerSegs (id : Word) (kind unit cc : Nat) : Segs :=
  [seg8 0 (validWord id kind), seg8 8 (BitVec.ofNat 64 (unit % 65536)), seg8 16 (BitVec.ofNat 64 cc)]

/-- Save a tile (R312, R314): the head of every strand, and after a deep stop everything. -/
def State.saveTile (s : State) (t : Nat) (deep : Bool) : State :=
  let x := s.tile t
  match s.areaHome x.saveArea, s.launchOf t with
  | some (d, b), some l =>
    let stopCc := (strandIds.map fun k => (x.strand k).stopSince).foldl max 0
    let head := strandIds.flatMap fun k =>
      (strandHead (x.strand k) s.cc false (x.strand k).pc).map fun g => (regionAt k + g.1, g.2)
    let s := if deep then
        let body := strandIds.flatMap fun k => (strandBody (x.strand k)).map fun g => (regionAt k + g.1, g.2)
        (s.writeArea d b 0x1000 0x50000 (head ++ body ++ tileSegs x)).fillArea d (b + 0x50000) scratchSize x.scratch
      else strandIds.foldl (fun s k => s.writeArea d b (regionAt k) (regionAt k + 0x180)
        ((strandHead (x.strand k) s.cc false (x.strand k).pc).map fun g => (regionAt k + g.1, g.2))) s
    s.writeArea d b 0 0x1000 (headerSegs l.desc.launchid (if deep then 2 else 1) l.unit stopCc)
  | _, _ => s

/-- State of a strand that no region holds, at its work-unit start (R314, R134, R246, R308): numbers of bundles and commands,
faults that have not been taken, owned words. What has happened stays: the nodes entered and ended, the barriers joined and
the panel (log 23). -/
def Strand.anew (x : Strand) : Strand :=
  { x with
    owned := [], bundles := 0, seqs := ⟨0, 0, 0, 0, 0, 0, 0⟩, faults := [], barFaults := [], thermal := false, board := []
    cleared := none, regionDue := none, yielded := false, mismatch := false, transferFrom := none
    panelTraps := [], gangBase := ⟨0, 0, 0, 0, 0, 0, 0⟩, gangEnd := none, extent := none }

/-- A strand resumed from its region (R314). -/
def Strand.resume (x : Strand) (b : Array Byte) (deep : Bool) (cc u : Nat) : Strand :=
  let x := (x.loadHead b cc).loadTraps b
  let x := if deep then x.loadBody b else x.freeBody u
  { x.anew with stopped := .no, stopHere := false, block := none, wake := false, nextCc := cc }

/-- Whether the saved tile's area is whole (R314). -/
def State.areaValid (s : State) (t : Nat) : Bool :=
  match s.areaHome (s.tile t).saveArea with
  | none => false
  | some (d, b) => (s.readArea d b 8).getD 0 0 &&& 1 == 1

/-- The status of a tile's engines as it was at the start of the work unit (R314). -/
def Tile.restatus (x : Tile) : Tile :=
  let m := x.marks
  { x with
    arrDone := m.arrDone, qDone := m.qDone, qCause := m.qCause, sDone := m.sDone, sFaults := m.sFaults, sCause := m.sCause
    fFaults := m.fFaults, fOvf := m.fOvf, fCause := m.fCause }

/-- Resume a tile from its area (R314): strands, then the tile; VALID.V is cleared. The strand that ran last goes on in this
cc, so that a stop adds nothing to what its node counts (R342; log 23). -/
def State.loadTile (s : State) (t : Nat) : State :=
  match s.areaHome (s.tile t).saveArea with
  | none => s
  | some (d, b) =>
    let deep := (s.readArea d b 8).getD 0 0 &&& 4 == 4
    let u := s.freeKey t * 0x20000
    let s := s.spendOn t
    let reg (k : Nat) : Array Byte := s.readArea d (b + regionAt k) 0x4800
    let s := s.onTile t fun x =>
      let x := if deep then { x.load (s.readArea d b 0x50000) with scratch := s.areaPart d (b + 0x50000) scratchSize } else x.freeBody u
      { x.restatus with
        strands := x.strands.map fun y => (y.1, y.2.resume (reg y.1) deep s.cc (u + 0x10400 + 64 * y.1))
        saving := .no, saveAt := none, saved := false, deepRun := none, hang := 0, running := none, act := some s.cc }
    let s := s.noteRead d b (if deep then 0x250000 else 0x15000)
    let run := if s.canRun t (s.tile t).last then some (s.tile t).last else none
    (s.onTile t fun x => { x with running := run }).onDie d fun x => { x with mem := x.mem.write b ((x.mem.read b) &&& 0xFE) }

/-! ### Cluster regions (Table TRP-10) -/

/-- Where a cluster's region stands in the save pool of its die (R315). -/
def State.regionHome (s : State) (c : Nat) : Nat × Nat := (c / 32, ((s.die (c / 32)).poolFrame + 1321 * (c % 32) + 296) * 65536)

/-- Save a cluster's region (R316). -/
def State.saveCluster (s : State) (c : Nat) : State :=
  let x := s.cluster c
  let h := s.regionHome c
  let id := match x.launch.bind s.launch with | none => 0 | some l => l.desc.launchid
  let kc : Segs := [seg8 8 x.waypart, seg8 0x10 (x.kcfg.eps ++ x.kcfg.lr), seg8 0x18 (x.kcfg.c2 ++ x.kcfg.c1),
    seg8 0x20 (x.kcfg.decay.setWidth 64)]
  let s := (s.writeArea h.1 h.2 0 0x10000 kc).fillArea h.1 (h.2 + 0x10000) x.storeSize x.store
  s.writeArea h.1 h.2 0 8 [seg8 0 (validWord id 0)]

/-- Whether a cluster's region is whole. -/
def State.regionValid (s : State) (c : Nat) : Bool :=
  let h := s.regionHome c
  (s.readArea h.1 h.2 8).getD 0 0 &&& 1 == 1

/-- Restore a cluster's region (R316): the split, the store, the kiln configuration; V is cleared. -/
def State.loadCluster (s : State) (c : Nat) : State :=
  let h := s.regionHome c
  let b := s.readArea h.1 h.2 0x28
  let w := at8 b 8
  let cw := min 16 (bits w 0 5)
  let store := s.areaPart h.1 (h.2 + 0x10000) ((16 - cw) * 0x400000)
  let s := s.noteRead h.1 h.2 (0x10000 + (16 - cw) * 0x400000)
  let s := s.onCluster c fun x => { x with
    cw := cw, tw := bits w 8 5, busy := false, seq := w.extractLsb' 32 32, store := store, saved := false, saving := false
    kcfg := ⟨(at8 b 0x10).extractLsb' 0 32, (at8 b 0x10).extractLsb' 32 32, (at8 b 0x18).extractLsb' 0 32,
      (at8 b 0x18).extractLsb' 32 32, (at8 b 0x20).extractLsb' 0 16⟩ }
  s.onDie h.1 fun x => { x with mem := x.mem.write h.2 ((x.mem.read h.2) &&& 0xFE) }

/-! ### CSAV and CRST -/

/-- Bytes of a region that CSAV writes and CRST reads (R327). -/
def regionBytes : Nat := 0x4800

/-- The bytes of a strand's region, from its segments. -/
def regionList (l : Segs) : List Byte :=
  (Memory.reads (l.foldl (fun m g => m.writes g.1 g.2) []) 0 regionBytes)

/-- Mode and alignment (R327). -/
def regionAlign (g : Reg) (s : State) : Check :=
  (privileged s).and fun _ => need ((s.me.readG g).toNat % 128 == 0) (.at_ .align (s.me.readG g))

/-- The wait of CSAV and CRST (R327): their bundle issues when the bytes are performed, or read, at their home. -/
def regionWait (s : State) : Check :=
  match s.me.regionDue with
  | none => .block .region
  | some c => need (c ≤ s.cc) (.block .region)

/-- The checks of CSAV (R327). -/
def csavCheck (g : Reg) (s : State) : Check := (regionAlign g s).and fun _ => regionWait s

/-- A translation fault of CSAV or CRST is a late-core trap at the end of its wait (R327). -/
def State.regionFault (s : State) (va : DWord) (e : ElemErr) : State :=
  let level := match s.engXlate s.myCluster e.2.2 with | .error f => f.2 | .ok x => x.level
  s.addFault s.bun.tile s.bun.strand s.cc
    (infoOf (coreOrigin s) .translate 0 (BitVec.ofNat 32 (e.2.1 + 16 * level)) (if e.2.2 = 0 then va else BitVec.ofNat 64 e.2.2))

/-- Write bytes of a region: neither owned nor folded (R327). -/
def State.writeRegion (s : State) (va : Nat) (bs : List Byte) : Except ElemErr State :=
  s.engWriteGlobal s.myCluster va bs

/-- What CSAV leaves once its bytes are written, or found to fault (R327). -/
def State.csavFrom (s : State) (va : DWord) : Except ElemErr State → State
  | .error e => s.regionFault va e
  | .ok u => u.onBun fun b => { b with csav := some va }

/-- CSAV (R327): the strand's state at issue, behind its wait; the bundle's end corrects the PC if it transfers. -/
def execCsav (g : Reg) : State → Result :=
  guarded (csavCheck g) fun s =>
    let va := s.me.readG g
    s.csavFrom va (s.writeRegion va.toNat (regionList (strandHead s.me s.cc true s.after ++ strandBody s.me)))

/-- V of a region that was read must be 1, unless the reading meets a fault (R327). -/
def regionMarked : Except ElemErr (State × List Byte × Option Nat) → Check
  | .error _ => .ok
  | .ok r => if r.2.2.isSome then .ok else need ((r.2.1.getD 0x177 0).getLsbD 7) (.plain .restore)

/-- The checks of CRST (R327): V must be 1. -/
def crstCheck (g : Reg) (s : State) : Check :=
  (regionAlign g s).and fun _ =>
    (regionMarked (s.engReadGlobal s.myCluster (s.me.readG g).toNat regionBytes)).and fun _ => regionWait s

/-- What CRST leaves once the region is read, or found to fault (R327): one that faults restores nothing. A memory error is
a late-core trap (R79, R306), whose status word no rule gives (log 17). -/
def State.crstFrom (s : State) (va : DWord) : Except ElemErr (State × List Byte × Option Nat) → State
  | .error e => s.regionFault va e
  | .ok r => match r.2.2 with
    | some a => r.1.spend.addFault s.bun.tile s.bun.strand s.cc
        (infoOf (coreOrigin s) .memory 0 (Config.freeW r.1.fresh) (BitVec.ofNat 64 a))
    | none => r.1.onBun fun b => { b with crst := some r.2.1 }

/-- CRST (R327): behind its wait, the bundle's end restores the strand. -/
def execCrst (g : Reg) : State → Result :=
  guarded (crstCheck g) fun s =>
    let va := s.me.readG g
    s.crstFrom va (s.engReadGlobal s.myCluster va.toNat regionBytes)

/-- The node that a region puts a strand in: the region says whether it is in one and for how long, not which. It stays in
the one it is in; a strand in none is in the one that it ended last (R327, Table TRP-4; log 29). -/
def Strand.regionNode (x : Strand) (g : Image) (b : Array Byte) (cc : Nat) : Option NodeRun :=
  if !(at8 b 0x170).getLsbD 1 then none
  else
    let since := cc - (at8 b 0x178).toNat
    match x.node with
    | some n => some { n with since := since, pause := none }
    | none => (x.ended.head?.bind fun n => g.nodeOf n.toNat).map fun e =>
        ⟨BitVec.ofNat 22 e.node, BitVec.ofNat 32 e.entry, since, (g.schedEntry e.sched 0).2.1, none, false⟩

/-- The restoring of a strand from a region (R327): every field but the trap registers. -/
def Strand.restoreAll (x : Strand) (g : Image) (l : List Byte) (cc : Nat) : Strand :=
  let b := l.toArray
  { (x.loadHead b cc).loadBody b with node := x.regionNode g b cc }

/-- Whether a region restores the executing strand to its panel (Table TRP-4): it does when the panel of the cluster still
counts the strand as its tile's (log 29). -/
def State.regionGang (s : State) (l : List Byte) : Bool :=
  (at8 l.toArray 0x170).getLsbD 2 && match (s.cluster s.myCluster).panel with
    | none => false
    | some p => p.strands[posOf s.bun.tile]? == some s.bun.strand

end Sys2Proof.Machine
end

