-- ==== Sys2Proof/Machine/Stop.lean ====
section
/-! DEFINITION. Stopping (14_traps R311 to R317, R326) and self-test (R318, R319): STOP, stop flags and windows, the saves of
tiles and clusters, watchdogs, verdicts. -/
namespace Sys2Proof.Machine

/-- The clock changes: what the damper counts in time keeps its length (R338, R339). -/
def State.setMhz (s : State) (mhz : Nat) : State :=
  let scale (at_ : Nat) : Nat := s.cc + ((at_ - s.cc) * mhz + s.mhz - 1) / s.mhz
  { s with mhz := mhz, riseAt := if s.riseAt ≤ s.cc then s.riseAt else scale s.riseAt,
           power := { s.power with msAt := scale s.power.msAt } }

/-! ### Requests -/

/-- Strands of a tile that run a work unit and have not halted. -/
def Tile.live (x : Tile) : List Nat :=
  if x.unitOn then strandIds.filter fun k => (x.strand k).started && !(x.strand k).halted else []

/-- The strands that STOP names (R326). -/
def State.stopTargets (s : State) (kind : StopKind) (w : DWord) : List (Nat × Nat) :=
  let t := s.bun.tile
  let all (t : Nat) : List (Nat × Nat) := (s.tile t).live.map fun k => (t, k)
  match kind with
  | .strand => (all t).filter fun p => p.2 == bits w 0 2
  | .tile => all (256 * dieOf t + bits w 0 8)
  | .launch =>
    s.launches.flatMap fun l =>
      if l.2.desc.launchid.toNat = bits w 0 32 ∧ (l.2.phase = .running ∨ l.2.phase = .stopping) then l.2.tiles.flatMap all else []

/-- STOP (R326): the flags are set within 1,024 cc. -/
def execStop (a : Reg) (deep : Bool) (kind : StopKind) : State → Result :=
  guarded privileged fun s =>
    (s.stopTargets kind (s.me.readG a)).foldl (fun s p => s.sched (s.dueCc 1024) 14 (.stopFlagSet p.1 p.2 deep)) s

/-! ### Strands stop -/

/-- Whether the launch on a tile is being pre-empted (R305). -/
def State.preempted (s : State) (t : Nat) : Bool := match s.launchOf t with | none => false | some l => l.preempted

/-- A tile's stop may be saved once every started strand of it has stopped or halted (R311): cheap if all stopped cheap or
halted, else deep. A deep save waits for what the tile's strands queued. -/
def State.checkStop (s : State) (t : Nat) : State :=
  let x := s.tile t
  let on := strandIds.filter fun k => (x.strand k).started
  if x.saveAt.isNone && !x.saved && !s.agenda.any (·.2 == .tileSaveComplete t) && (on.any (fun k => (x.strand k).stopped != .no) || s.preempted t) &&
      on.all fun k => (x.strand k).stopped != .no || (x.strand k).halted then
    if on.all fun k => (x.strand k).stopped != .deep then
      let d := s.dueCc 1024
      (s.onTile t fun x => { x with saving := .cheap, saveAt := some d }).soon 1024 14 (.tileSaveComplete t)
    else (s.onTile t fun x => { x with saving := .deep }).sched s.cc 14 (.tileSaveComplete t)
  else s

/-- A strand stops (R311): its writes in flight complete and its entries are performed (R242), its block is abandoned, its
node's count pauses (R298). -/
def State.stopStrand (s : State) (t k : Nat) (how : Stopped) : State :=
  let s := s.flush t k
  let s := s.onStrand t k fun x => { x with
    stopped := how, stopHere := false, block := none, wake := false, cleared := none, regionDue := none, stopSince := s.cc
    node := x.node.map fun n => { n with pause := some (n.pause.getD s.cc) } }
  (s.leave t k).checkStop t

/-- The strands of a tile in a deep stop that stop where they stand (R311): all but the one that ran when the stop became deep,
those that a panel gangs, and those held. -/
def State.standing (s : State) (t : Nat) : List Nat :=
  (s.tile t).live.filter fun k => (s.tile t).deepRun != some k && (s.strand t k).stopped == .no && (s.strand t k).hold.isNone &&
    (s.strand t k).gang != .ganged

/-- A tile's stop becomes deep (R311): every strand that does not run stops where it stands; the one that runs now goes on to its
stop point, through the waits of its bundles, as the ganged strand of a panel does. A strand that is held for a SPLT, a release
or a superstep stops once it is held no longer. -/
def State.deepStop (s : State) (t : Nat) : State :=
  let s := s.onTile t fun x => if x.saving == .deep then x else { x with saving := .deep, deepRun := x.running }
  (s.each (s.standing t) fun s k => s.stopStrand t k .deep).checkStop t

/-- STOP_FLAG_SET (R311, R326); a strand that runs a serialised re-execution takes no stop (R321). -/
def execStopFlagSet (t k : Nat) (deep : Bool) (s : State) : Result :=
  .next (if s.noStops t || !(s.tile t).live.contains k then s
  else s.requestStop t k (deep || (s.strand t k).trap.deep))

/-- STOP_WINDOW_EXPIRY (R311): a request that still stands becomes deep. -/
def execStopWindowExpiry (t k : Nat) (s : State) : Result :=
  let x := s.strand t k
  .next (if s.noStops t || !x.trap.pend || x.halted || (s.tile t).saveAt.isSome || (s.tile t).saved then s
  else if x.stopped == .no && !x.trap.deep && s.cc < x.stopUntil then s
  else (s.onStrand t k fun x => { x with trap := { x.trap with exp := true } }).deepStop t)

/-! ### Saves -/

/-- What a deep save waits for (R313): commands, releases and entries of the tile's strands. -/
def State.tileDrained (s : State) (t : Nat) : Bool :=
  let x := s.tile t
  strandIds.all (fun k => (x.strand k).outst.isEmpty && (x.strand k).rels.isEmpty) && x.arr.isEmpty && x.qcmd.isNone &&
    x.sq.isEmpty && x.sp.isEmpty && x.fq.isEmpty && x.yq.isEmpty && x.partner.isEmpty

/-- Whether a tile of a launch is on its way to a save. -/
def Tile.stopOpen (x : Tile) : Bool :=
  !x.saved && x.unitOn && (x.saveAt.isSome || x.saving != .no || strandIds.any fun k => (x.strand k).trap.pend && !(x.strand k).halted)

/-- The tiles of a cluster whose saves precede that of its region (R316): of a launch that is pre-empted all that serve, else
those that run a work unit. -/
def State.savedTiles (s : State) (c : Nat) : List Nat :=
  (tilesOf c).filter fun t => (s.tile t).unitOn || (s.preempted t && !(s.tile t).retired && !(s.tile t).isolated)

/-- Whether every started strand of a tile has halted. -/
def Tile.allHalted (x : Tile) : Bool := strandIds.all fun k => !(x.strand k).started || (x.strand k).halted

/-- Whether a cluster has stopped and its region is to be saved (R316): some tile of it is saved, and of those that run a unit
every one is saved, or has halted in a launch that is not pre-empted. -/
def State.clusterStopped (s : State) (c : Nat) : Bool :=
  !(s.cluster c).saved && !(s.cluster c).saving && ((tilesOf c).any fun t => (s.tile t).saved) &&
    (s.savedTiles c).all fun t => (s.tile t).saved || (!s.preempted t && (s.tile t).allHalted)

/-- The saving of a cluster's region begins, if it has stopped (R316). -/
def State.beginRegion (s : State) (c : Nat) : State :=
  if s.clusterStopped c then (s.onCluster c fun x => { x with saving := true }).sched s.cc 14 (.clusterRegionSave c) else s

/-- After a save the cluster's region may follow (R316), and the loader looks whether it may resume or start something. -/
def State.afterSave (s : State) (t : Nat) : State :=
  let s := s.beginRegion (clusterOf t)
  match (s.tile t).launch with
  | none => s
  | some q => s.sched s.cc 13 (.launchResume q)

/-- TILE_SAVE_COMPLETE (R312 to R314): a deep save begins its copy once the tile has drained, and is complete 9,216 cc
later. -/
def execTileSaveComplete (t : Nat) (s : State) : Result :=
  let x := s.tile t
  .next (if x.saved || x.saving == .no then s
  else match x.saveAt with
  | some d =>
    if s.cc < d then s
    else ((s.saveTile t (x.saving == .deep)).onTile t fun x => { x with saved := true, saveAt := none }).afterSave t
  | none =>
    if s.tileDrained t then
      let d := s.dueCc 9216
      (s.onTile t fun x => { x with saveAt := some d }).soon 9216 14 (.tileSaveComplete t)
    else s.sched (s.cc + 1) 14 (.tileSaveComplete t))

/-- Whether a stream command reads or writes cluster store. -/
def SCmd.onStore (c : SCmd) : Bool := c.src == .store || c.dst == .store

/-- Whether no stream-engine or kiln command that touches cluster store is left in a cluster (R316). -/
def State.clusterDrained (s : State) (c : Nat) : Bool :=
  (s.cluster c).kq.isEmpty && (s.cluster c).krun.isNone &&
    (tilesOf c).all fun t => (s.tile t).sq.all (!SCmd.onStore ·) && (s.tile t).sp.all (!SCmd.onStore ·)

/-- The bound of the copy of a cluster's region (R316). -/
def Cluster.copyBound (x : Cluster) : Nat := 32768 * (16 - x.cw) + 1024

/-- CLUSTER_REGION_SAVE (R316): the copy begins when the cluster's commands have completed. -/
def execClusterRegionSave (c : Nat) (s : State) : Result :=
  .next (if !(s.cluster c).saving then s
  else if s.clusterDrained c then s.soon (s.cluster c).copyBound 14 (.clusterStopComplete c)
  else s.sched (s.cc + 1) 14 (.clusterRegionSave c))

/-- What the loader keeps of a stopped cluster beside its save areas: its tiles and the cluster as they stand. -/
def State.keep (s : State) (c q : Nat) : State :=
  s.onLaunch q fun l => { l with
    keptC := SMap.put l.keptC c (s.cluster c), keptT := (tilesOf c).foldl (fun m t => SMap.put m t (s.tile t)) l.keptT }

/-- CLUSTER_STOP_COMPLETE (R316): the region is written, VALID last. -/
def execClusterStopComplete (c : Nat) (s : State) : Result :=
  .next (if !(s.cluster c).saving then s
  else
    let s := (s.saveCluster c).onCluster c fun x => { x with saving := false, saved := true }
    match (s.cluster c).launch with
    | none => s
    | some q => (s.keep c q).sched s.cc 13 (.launchResume q))

/-! ### Watchdogs and self-test -/

/-- A tile is isolated, and tested (R317). -/
def State.isolate (s : State) (t : Nat) : State :=
  (s.onTile t fun x => { x with isolated := true, running := none, act := none, hang := 0 }).startTest ⟨11, dieOf t, t, 0⟩

/-- The count at which the hang watchdog fires (R317). -/
def hangLimit : Nat := 1048576

/-- HANG_WATCHDOG (R317). -/
def execHangWatchdog (t : Nat) (s : State) : Result := .next (if hangLimit ≤ (s.tile t).hang then s.isolate t else s)

/-- The tile whose sequencer copies a cluster's region (R316): the live one of lowest position. -/
def State.copier (s : State) (c : Nat) : Option Nat := (tilesOf c).find? fun t => !(s.tile t).retired

/-- SEQUENCER_OVERRUN (R317): a save that is not complete is abandoned, of the tile or of its cluster's region; V stays 0. -/
def execSequencerOverrun (t : Nat) (s : State) : Result :=
  let c := clusterOf t
  .next (if (s.cluster c).saving && s.copier c == some t then
    let s := (s.unsched fun e => e == .clusterRegionSave c || e == .clusterStopComplete c).onCluster c fun x =>
      { x with saving := false, saved := true }
    let s := match (s.cluster c).launch with | none => s | some q => (s.keep c q).sched s.cc 13 (.launchResume q)
    s.isolate t
  else if (s.tile t).saving == .no || (s.tile t).saved then s
  else (s.onTile t fun x => { x with saving := .no, saveAt := none }).isolate t)

/-- A self-test record (R318, Table TRP-2); the fields that no rule gives it are free (log 17). -/
def State.testRecord (s : State) (u : TestUnit) (verdict : Nat) : State :=
  let f := s.fresh
  { s with fresh := f + 8 }.health u.die (recordOf s.cc u.tile (Config.freeW f).toNat 2 verdict u.code (Config.freeW (f + 1)).toNat
    ⟨.illegal, (Config.freeW (f + 2)).toNat, (Config.freeW (f + 3)).toNat, Config.freeW (f + 4), Config.freeD s.fresh,
      Config.freeW (f + 5), (Config.freeW (f + 6)).setWidth 22, Config.freeW (f + 7), 0⟩)

/-- SELF_TEST_START (R318): its record is queued; the verdict, which is not the spec's to give, follows within the bound. -/
def execSelfTestStart (u : TestUnit) (s : State) : Result :=
  let s := s.testRecord u 0
  let w := Config.freeW s.fresh
  .next (s.spend.soon 65536 14 (.selfTestVerdict u (w.getLsbD 0) (w.getLsbD 1)))

/-- A tile is retired (R319). -/
def State.retire (s : State) (t : Nat) : State := s.onTile t fun x => { x with retired := true, running := none, act := none }

/-- A die is isolated: its ready bit falls (R335). -/
def State.isolateDie (s : State) (d : Nat) : State :=
  let s' : State := { s with ready := s.ready &&& ~~~((1 : DWord) <<< (8 + d)) }
  s'.onDie d fun x => { x with isolated := true }

/-- What a lasting verdict does to its unit (Table TRP-5, R80). How large a row of the stack is the spec does not say; here it
is one 128-byte line (DESIGN CHOICE, log 33). -/
def State.lasting (s : State) (u : TestUnit) (spared : Bool) : State :=
  match u.code with
  | 1 => if spared then s else s.retire u.tile
  | 2 => if spared then s else s.onCluster (clusterOf u.tile) fun x => { x with maxCw := x.maxCw - 1 }
  | 3 =>
    let s := s.onDie u.die fun x => { x.renew (· == u.index) with
      mem := x.mem.clear u.index (u.index + 128)
      spared := if spared then u.index :: x.spared else x.spared
      retired := if spared then x.retired else u.index / 65536 :: x.retired }
    s.memRecord u.die u.index (if spared then 5 else 6) 0 2
  | 4 | 5 | 6 | 7 | 11 => s.retire u.tile
  | 8 => s
  | 9 => s.isolateDie u.die
  | 10 => if spared then s else s.isolateDie u.die
  | _ => s

/-- Whether a launch depends on a unit (R318): on a row of a stack if one of its clusters holds a translation of the frame. -/
def State.depends (s : State) (l : Launch) (u : TestUnit) : Bool :=
  if u.code = 3 then l.clusters.any fun c => (s.cluster c).tlb.any fun e =>
    e.peer == s.peerOf u.die && e.frame ≤ u.index / 65536 && u.index / 65536 < e.frame + e.pages
  else l.uses u

/-- SELF_TEST_VERDICT (R318, R304): a transient verdict retires nothing; after a lasting one, whether or not a spare serves, every
launch that depends on the unit ends as broken, and its bounds are reported broken (R18). A port that a transient verdict finds
whole reports the bounds of what it held during the test, and the launches of that traffic run on as broken (R234). -/
def execSelfTestVerdict (u : TestUnit) (lasting spared : Bool) (s : State) : Result :=
  let s := s.testRecord u (if lasting then 2 else 1)
  let held := if u.code = 8 then SMap.get [] s.ports u.index else []
  let s : State := if u.code = 8 then { s with ports := SMap.del s.ports u.index } else s
  .next (if !lasting then
    (if u.code = 11 then (s.onTile u.tile fun x => { x with isolated := false, act := some s.cc })
     else if held.isEmpty then s
     else (s.each held fun s q => s.onLaunch q fun l => { l with broken := true }).emit (.broken 8 u.index))
  else
    let ls := s.launches.filter fun l => s.depends l.2 u && l.2.phase != .taken
    ((s.lasting u spared).emit (.broken u.code u.index)).each ls fun s l => s.endLaunch l.1 8)

end Sys2Proof.Machine
end

