-- ==== Sys2Proof/Machine/Clock.lean ====
section
/-! DEFINITION. Supersteps and the timing contract (13_scheduling R300 to R303, 15_system R338, R339): boundaries, idle
supersteps, the clock, power limits and thermal emergencies. When and how far the device acts, within its bounds, are inputs
(log 20). -/
namespace Sys2Proof.Machine

/-- A launch that runs: it has started and has neither ended nor stopped. -/
def Launch.active (l : Launch) : Bool := l.phase == .running || l.phase == .between || l.phase == .stopping

/-- A launch in a serialised re-execution, or about to be (R321). -/
def Launch.serial (l : Launch) : Bool := l.runs == 2 || (l.phase == .admitted && l.runs == 1)

/-- Whether a serialised re-execution runs or waits. -/
def State.serial (s : State) : Bool := s.launches.any fun l => l.2.serial

/-- A launch is at a superstep boundary, or held at one (R301). -/
def Launch.atBoundary (l : Launch) (cc : Nat) : Bool :=
  l.edge == some cc || match l.heldTo with | none => false | some c => cc ≤ c

/-- Every running launch is at a boundary: the clock may change (R301). -/
def State.aligned (s : State) : Bool := s.launches.all fun l => !l.2.active || l.2.atBoundary s.cc

/-- A change of the clock that waits. -/
def State.waitingMhz (s : State) : Option Nat :=
  match s.wantMhz with
  | none => none
  | some f => if f = s.mhz || s.serial then none else some f

/-- Where LSTAT of a launch stands: its queue's frame (R283, R287). -/
def State.slotHome (s : State) (q : Nat) : Nat × Nat := ((s.queueCfg q).stn.toNat, (s.queueCfg q).frame.toNat * 65536)

/-- The loader writes LSTAT (Table SCH-3). -/
def State.lstat (s : State) (q k idle code : Nat) : State :=
  let h := s.slotHome q
  s.memWrite h.1 (h.2 + 32768 + 8 * (k % 256)) (leBytes 8 (code + 2 ^ 32 * idle))

/-- Change every strand of a launch's tiles that runs. -/
def State.onStrandsOf (s : State) (l : Launch) (f : Strand → Strand) : State :=
  s.each l.tiles fun s t => if (s.tile t).unitOn then
    s.onTile t fun x => { x with strands := x.strands.map fun y => (y.1, f y.2) } else s

/-- The counts of a launch's nodes pause (R298). -/
def State.pauseNodes (s : State) (l : Launch) : State :=
  s.onStrandsOf l fun x => { x with node := x.node.map fun n => { n with pause := some (n.pause.getD s.cc) } }

/-- The counts of the nodes of strands that are not stopped go on, and their bounds fall later (R298). -/
def State.resumeNodes (s : State) (l : Launch) : State :=
  let s := s.onStrandsOf l fun x => if x.stopped != .no then x else
    { x with node := x.node.map fun n => { n with since := n.since + (s.cc - n.pause.getD s.cc), pause := none } }
  s.each (s.strandsWith fun t _ x => l.tiles.contains t && x.node.isSome && x.stopped == .no) fun s w =>
    match (s.strand w.1 w.2).node with
    | none => s
    | some n => if n.late then s else s.sched (max (s.cc + 1) (n.since + n.bound)) 12 (.overrun w.1 w.2)

/-- Cores of a launch's tiles look again. -/
def State.stirLaunch (s : State) (l : Launch) : State :=
  s.each l.tiles fun s t => if (s.tile t).unitOn then
    s.onTile t fun x => { x with act := some (match x.act with | none => s.cc | some a => max s.cc a) } else s

/-- Blocks of 1,024 cc for which the device holds a launch at its boundary: for a test, a power limit, a rise of power that is
held, or to align a change of the clock; 0 if it does not (R302, R318, R338, R339). At most 16 holds follow one another, but
for a rise of power, which is held as long as R338 and R339 say. -/
def State.holdBlocks (s : State) (l : Launch) : Nat :=
  if l.idleRun < 16 && s.tests.any l.uses then 64
  else if l.idleRun < 16 && s.wantIdle ≠ 0 then min 64 s.wantIdle
  else if s.cc < s.riseAt then min 64 ((s.riseAt - s.cc + 1023) / 1024)
  else if l.idleRun < 16 && s.waitingMhz.isSome && !s.aligned then 1
  else 0

/-- The clock changes at this boundary if a change waits and may come about. -/
def State.pokeClock (s : State) : State :=
  match s.waitingMhz with
  | none => s
  | some f => if s.aligned then s.sched s.cc 13 (.clockChange f) else s

/-- At a boundary the device holds the launch, or changes the clock, or neither. -/
def State.atEdge (s : State) (q : Nat) : State :=
  match s.launch q with
  | none => s
  | some l => if s.holdBlocks l ≠ 0 then s.sched s.cc 13 (.idleSuperstep q (s.holdBlocks l)) else s.pokeClock

/-- A launch reaches a superstep boundary (R300, R317). -/
def State.boundary (s : State) (q : Nat) : State :=
  match s.launch q with
  | none => s
  | some l =>
    ((s.onLaunch q fun l => { l with edge := some s.cc, idleRun := 0 }).each l.tiles fun s t =>
      s.onTile t fun x => { x with hang := 0 }).atEdge q

/-- SUPERSTEP_BOUNDARY (R300): the communication step is over. -/
def execSuperstepBoundary (q : Nat) (s : State) : Result :=
  .next (match s.launch q with
  | none => s
  | some l =>
    let s := s.onLaunch q fun l => { l with supers := l.supers + 1 }
    let s := s.onStrandsOf l fun x => if x.hold == some .superstep then { x with hold := none } else x
    (s.boundary q).stirLaunch l)

/-- IDLE_SUPERSTEP (R302, R287): every strand of the launch is held for a whole number of blocks; tests of its units run. -/
def execIdleSuperstep (q blocks : Nat) (s : State) : Result :=
  .next (match s.launch q with
  | none => s
  | some l =>
    if !l.active || (l.idleRun ≥ 16 && s.riseAt ≤ s.cc) || !(l.edge == some s.cc) then s
    else
      let stop := s.cc + 1024 * min 64 (max 1 blocks)
      let tests := s.tests.filter l.uses
      let s := s.onLaunch q fun l => { l with
        supers := l.supers + 1, idle := l.idle + 1, idleRun := l.idleRun + 1, heldTo := some stop }
      let s := (s.lstat q l.k (l.idle + 1) 1).pauseNodes l
      let s : State := { s with tests := s.tests.filter (!l.uses ·), wantIdle := 0 }
      (s.each tests fun s u => s.sched s.cc 14 (.selfTestStart u)).sched stop 13 (.idleSuperstepEnd q))

/-- IDLE_SUPERSTEP_END (R302): a run goes on, for at most 16, or the launch goes on. -/
def execIdleSuperstepEnd (q : Nat) (s : State) : Result :=
  .next (match s.launch q with
  | none => s
  | some l =>
    if !(l.heldTo == some s.cc) then s
    else
      let s := s.onLaunch q fun l => { l with edge := some s.cc }
      if s.holdBlocks l ≠ 0 then s.sched s.cc 13 (.idleSuperstep q (s.holdBlocks l))
      else
        ((s.pokeClock.onLaunch q fun l => { l with heldTo := none, idleRun := 0 }).resumeNodes l).stirLaunch l)

/-- The seven steps of the core clock, in MHz (R301). -/
def clockSteps : List Nat := [800, 850, 900, 950, 1000, 1050, 1100]

/-- CLOCK_CHANGE (R301): at one cc, with every running launch at a boundary, or else it waits for that; a serialised
re-execution keeps 0.80 GHz (R321). The clock takes no other value than its seven steps. -/
def execClockChange (mhz : Nat) (s : State) : Result :=
  .next (if s.serial || !clockSteps.contains mhz then s
  else if s.aligned then { s.setMhz mhz with wantMhz := none }
  else { s with wantMhz := some mhz })

/-- POWER_LIMIT (R303, R338): the superstep ends at its clock; at the boundary the clock falls, or idle supersteps stand, or
both. -/
def execPowerLimit (mhz blocks : Nat) (s : State) : Result :=
  let s' : State := { s with
    wantMhz := if mhz < s.mhz && clockSteps.contains mhz then some mhz else s.wantMhz
    wantIdle := blocks
    power := { s.power with limited := true } }
  .next s'.pokeClock

/-- The power of the ms that ends (R338): it follows the demand within RATE of the ms before it and not below FLOOR percent of
the mean of the last eight. A power or thermal limit that acts in the same ms governs where it is lower, and after a thermal
emergency nothing limits the fall. -/
def Power.next (p : Power) (demand cap : Nat) : Nat :=
  let last := p.watts.headD 0
  let least := if p.fallFree then 0 else max (last - p.rate.toNat) (p.floor.toNat * (p.watts.sum / max 1 p.watts.length) / 100)
  let w := min (last + p.rate.toNat) (max least demand)
  if p.limited then min w cap else w

/-- A ms of the package's power ends (R338): a demand that the rise does not meet is held with idle supersteps for the next ms.
The demand, and the power that a limit allows, the spec leaves to the workload and the package: they are free (log 45). -/
def State.powerMs (s : State) : State :=
  let demand := (Config.freeW s.fresh).toNat
  let w := s.power.next demand (Config.freeW (s.fresh + 1)).toNat
  { s with
    fresh := s.fresh + 2
    riseAt := if w < demand then max s.riseAt (s.cc + 1000 * s.mhz) else s.riseAt
    power := { s.power with
      watts := (w :: s.power.watts).take 8, msAt := s.cc + 1000 * s.mhz, limited := false, fallFree := false } }

/-- THERMAL_EMERGENCY (R303, R338): every running strand takes the trap; no bound applies from there, which is reported. -/
def execThermalEmergency (s : State) : Result :=
  let s : State := { s with power := { s.power with limited := true, fallFree := true } }
  .next ((s.each (s.launches.filter fun l => l.2.active) fun s l =>
    let s := s.onLaunch l.1 fun x => { x with unbound := true }
    s.each l.2.tiles fun s t => (s.each (s.tile t).live fun s k =>
      s.onStrand t k fun x => if x.stopped == .no then { x with thermal := true } else x).stir t).emit (.broken 0 0))

end Sys2Proof.Machine
end

