-- ==== Sys2Proof/WellFormed.lean ====
section
/-! DEFINITION. Which instructions are well formed: the limits that an entry states on a field encoded in the word
(R40, Table WRD-11), the number of L words (R28, Table WRD-4), and, for an event, that its unit exists (R8, R13). -/
namespace Sys2Proof

/-- The value of a lane field of VGET and VPUT with its L words, extended with zeros (R28). -/
def laneValue (l : BitVec 8) (ext : List LWord) : Nat :=
  match ext with
  | [] => l.toNat
  | x :: _ => l.toNat + 256 * x.toNat

/-- A lane value is below the lane count of its type, with at most one L word (R29). -/
def laneOk (t : VType) (l : BitVec 8) (ext : List LWord) : Bool :=
  ext.length ≤ 1 && laneValue l ext < t.lanes

/-- The group of registers a widening form writes is aligned, and its type is permitted (R172). -/
def widenOk (t : VType) (d : Reg) (g : Nat) : Bool :=
  t.isInt && t.width * g ≤ 32 && d.toNat % g == 0

/-- First row plus rows stays within `limit`, and rows within its own limit (R198). -/
def rowsOk (beats : BitVec 12) (first limit : Nat) : Bool :=
  beats.toNat < limit && first + beats.toNat + 1 ≤ limit

/-- Whether VCVT rounds between these types (R188): it never does between integers, nor from bf16 to f32. -/
def cvtRounds (s t : VType) : Bool :=
  !(s.isInt && t.isInt) && !(s == .bf16 && t == .f32)

/-- The space combination of a D word is legal, for the operations that have one (R125). -/
def shadowOk (shd : Bool) (d : DSpace) : Bool := !shd || d == .scratch || d == .remote

/-- A tile number of the package (die * 256 + tile id, R8, R13). -/
def tileOk (t : Nat) : Bool := t < 2048
/-- A strand of a tile of the package. -/
def strandOk (t s : Nat) : Bool := t < 2048 && s < 4

/-- The well-formedness check. -/
def wellFormed : Instr → Bool
  | .nop | .add .. | .sub .. | .mul .. | .mulh .. | .mulhn .. | .div .. | .divn .. | .rem .. | .remn ..
  | .addw .. | .subw .. | .mulw .. | .and .. | .or .. | .xor .. | .andn .. | .shl .. | .shr .. | .shra ..
  | .shlw .. | .shrw .. | .shraw .. | .min .. | .max .. | .minn .. | .maxn .. | .clz .. | .popc ..
  | .bfx .. | .bfi .. | .sel .. | .cmp .. | .plog .. | .geti .. => true
  | .addImm _ _ _ e | .subImm _ _ _ e | .mulImm _ _ _ e | .mulhImm _ _ _ e | .mulhnImm _ _ _ e
  | .divImm _ _ _ e | .divnImm _ _ _ e | .remImm _ _ _ e | .remnImm _ _ _ e | .addwImm _ _ _ e
  | .subwImm _ _ _ e | .mulwImm _ _ _ e | .andImm _ _ _ e | .orImm _ _ _ e | .xorImm _ _ _ e
  | .andnImm _ _ _ e | .shlImm _ _ _ e | .shrImm _ _ _ e | .shraImm _ _ _ e | .shlwImm _ _ _ e
  | .shrwImm _ _ _ e | .shrawImm _ _ _ e | .minImm _ _ _ e | .maxImm _ _ _ e | .minnImm _ _ _ e
  | .maxnImm _ _ _ e | .bfxImm _ _ _ e | .bfiImm _ _ _ e => e.length ≤ 2
  | .cmpImm _ _ _ _ _ e => e.length ≤ 2
  | .stg e x _ | .rstg _ e x => e == .stream || x.toNat < 8
  | .ldb _ _ _ _ e | .ldbn _ _ _ _ e | .ldh _ _ _ _ e | .ldhn _ _ _ _ e | .ldw _ _ _ _ e
  | .ldwn _ _ _ _ e | .ldd _ _ _ _ e | .stb _ _ _ _ e | .sth _ _ _ _ e | .stw _ _ _ _ e
  | .std _ _ _ _ e => e.length ≤ 2
  | .pref _ _ e | .disc _ _ e | .luse _ _ e => e.length ≤ 2
  | .br .. | .jmp .. | .call .. | .jr .. | .lset .. | .lseti .. | .lexit .. | .dly .. | .node .. | .sels ..
  | .yield | .halt | .trap .. | .gangEnter | .gangExit => true
  | .vadd t .. | .vsub t .. | .vadds t .. | .vsubs t .. | .vmul t .. | .vmulh t .. | .vmad t ..
  | .vmin t .. | .vmax t .. | .vminn t .. | .vmaxn t .. | .vabs t .. | .vshl t .. | .vshr t ..
  | .vshra t .. => t.isInt
  | .vand .. | .vor .. | .vxor .. => true
  | .vaddw t d .. | .vmulw t d .. => widenOk t d 2
  | .vmulq t d .. | .vmadq t d .. => widenOk t d 4
  | .vfadd t .. | .vfsub t .. | .vfmul t .. | .vfma t .. | .vfmin t .. | .vfmax t .. | .vfabs t ..
  | .vfneg t .. | .vfrcp t .. | .vfrsq t .. | .vfexp2 t .. | .vflog2 t .. => t.isFp
  | .vlmul t .. | .vlrcp t .. => t.isLog
  | .vcmp t _ k _ _ => t.isInt || !(k == .ltn || k == .gen)
  | .vsel .. => true
  | .vreds t .. | .vredx t .. | .vredn t .. => !t.isLog
  | .vld t _ _ s _ e | .vst t _ _ s _ e => e.length ≤ 1 && (t.width != 4 || s == 0)
  | .vgth t .. | .vsct t .. | .vprm t .. => t.width != 4
  | .vbc .. | .vrnd .. | .viota .. | .vext .. | .vcmpr .. | .vmovm .. => true
  | .vget t _ _ l e | .vput t _ _ l e => laneOk t l e
  | .vtrp t g => (t == .i8 || t == .i16 || t == .i32) && g.toNat < 4
  | .vcvt s _ _ t r _ => s != t && (cvtRounds s t || r == .rne)
  | .vqnt t d _ s _ => t.isLog && d != s
  | .vdqnt t .. => t.isLog
  | .afmt _ af _ ww wf _ _ sp => af != 3 && wf != 3 && sp != 1 && !(ww && sp == 2)
  | .wld b f => rowsOk b f.toNat 96
  | .strm b f => rowsOk b f.toNat 192
  | .drn b _ _ f => rowsOk b f.toNat 192
  | .aclr b f => rowsOk b f.toNat 192
  | .aswp | .agng .. | .asta .. | .kclr => true
  | .ksa _ _ e | .kso _ _ e => e.length ≤ 1
  | .ksw _ c _ e => e.length ≤ 1 && (c.toNat ≤ 95 || c.toNat == 127)
  | .dcpy _ h s d => shadowOk h d && !(s == .remote && d == .remote)
  | .dunf _ _ s d => s != .remote && d == .scratch
  | .dfil _ h s d => shadowOk h d && s == .global
  | .dgth _ h s d => shadowOk h d && s != .remote
  | .dpubInit k _ | .dpub k _ => k != .arrive
  | .dsta .. => true
  | .qpat c f | .qldy c f => rowsOk c f.toNat 256
  | .qdom .. | .qstp .. | .qsav | .qrst | .qrdv .. | .qsta .. => true
  | .rsw .. | .ram .. | .mgrp .. | .rsta .. => true
  | .rld _ _ w s => !(w && s)
  | .rfl a all => !all || a == 0
  | .mlr o t tp _ => (!tp || (o == .sum && t != .i32)) && !(o == .agree && t == .i32)
  | .rfq d => d != 0 && d != 31
  | .cadd .. | .cwt .. | .aarm .. | .awt .. | .splt .. => true
  | .caddRemote _ _ _ peer => peer.toNat < 65536
  | .crd _ d => d != 0
  | .phs rel acq _ => rel || acq
  | .bar _ sc => sc != .system
  | .fen m => m != 0 && m.toNat < 64
  | .dgsOn | .dgsOff | .dgsFold .. => true
  | .dgsRd g => g != 0 && g != 31
  | .upcf | .updm .. | .upmo .. | .upst .. => true
  | .srd .. | .swr .. | .tret .. => true
  | .tlbi _ _ _ _ sc => sc != .system
  | .shot _ _ size _ all sc => (sc == .package || sc == .system) && (!all || size == 0)
  | .csav .. | .crst .. | .stop .. | .slp .. | .sflt .. => true
  | .pendingWriteComplete t s _ | .waitSatisfied t s | .takeTrap t s _ | .overrun t s | .extentPlacement t s
  | .releaseComplete t s _ | .stopFlagSet t s _ | .stopWindowExpiry t s
  | .systemRegisterPropagate t s _ _ => strandOk t s
  | .strandSelect t | .streamCommandStart t | .streamCommandComplete t _ | .arrival t _ _ | .dunfRow t _ _
  | .publishSwap t _ | .wldBeat t _ | .strmBeat t _ | .strmRowsFinal t _ | .drnBeat t _ | .drnOutputFinal t _
  | .aclrBeat t _ | .quiltBeat t _ | .quiltStepCycle t _ | .quiltCommandComplete t | .fabricQueueArrival t
  | .workUnitComplete t | .tileSaveComplete t | .hangWatchdog t | .sequencerOverrun t => tileOk t
  | .pageWalkComplete c _ | .kilnCommandStart c | .kilnCommandComplete c | .spltDrain c | .spltComplete c
  | .clusterRegionSave c | .clusterStopComplete c => c < 256
  | .counterAdd d _ _ _ | .rickAgeDeparture d _ | .shootdownArrival d _ | .governorEpoch d | .patrolScrub d _
  | .coreDieTemperature d _ => d < 8
  | .holderCountUpdate h _ r _ => h < 8 && r < 65536 && r % 16 < 8
  | .launchTake q | .admission q | .launchStart q | .workUnitStart q | .launchEnd q | .launchResume q
  | .superstepBoundary q | .idleSuperstepEnd q => q < 16
  | .idleSuperstep q b => q < 16 && 1 ≤ b && b ≤ 64
  | .clockChange f => 800 ≤ f && f ≤ 1100 && f % 50 == 0
  | .powerLimit f b => 800 ≤ f && f ≤ 1100 && f % 50 == 0 && b ≤ 64
  | .flitCrcFailure p _ => p < 6
  | .mgrpComplete o _ _ => strandOk o.tile o.strand
  | .remoteLoadRequest r => strandOk r.org.tile r.org.strand
  | .barrierComplete _ | .ringSlotArrival .. | .cordPerform _ | .mlrJoin _ | .mlrJoinDeadline _ | .mlrComplete _
  | .tlbiComplete _ | .shotComplete _ | .thermalEmergency | .selfTestStart _ | .selfTestVerdict .. | .packageReset
  | .functionReady _ | .bootStage .. | .getVersion | .getCapabilities | .negotiateAlgorithms | .getDigests
  | .getCertificate _ | .challenge _ | .getMeasurements _ | .hdmRead .. | .hdmWrite .. | .counterAddPort ..
  | .popPortRead .. | .staggerWrite _ | .staggerMessage .. | .mgmtRegisterWrite .. | .mgmtWindowRead .. => true
  | .counterReadSlot k | .watchEntryWrite k _ _ _ => k < 16

end Sys2Proof
end

