-- ==== Sys2Proof/Decode.lean ====
section
/-! DEFINITION. The decoder, total on any words and refusing by name, and after it the encoder, both written from the
layouts of 02_bundles (Tables WRD-1 to WRD-8) and the encoding tables of the chapters. -/
namespace Sys2Proof

/-- Why a word is no instruction (R40, Table WRD-11). -/
inductive DecodeErr where
  | noWord | reservedClass | reservedOp | reservedBits | lWord | limit | bundle
  deriving DecidableEq, Repr

/-- The n bits of a word that start at bit lo. -/
def fld (w : Word) (lo n : Nat) : BitVec n := w.extractLsb' lo n
/-- One bit of a word. -/
def flag (w : Word) (i : Nat) : Bool := w.getLsbD i
/-- The class code of a word (R20). -/
def classOf (w : Word) : Nat := (fld w 27 4).toNat
/-- Whether a word is an L word (R28). -/
def isL (w : Word) : Bool := classOf w == 13

/-- Element type of a T code (Table VEC-1). -/
def vtypeOf (b : BitVec 3) : VType :=
  match b.toNat with
  | 0 => .i4 | 1 => .i8 | 2 => .i16 | 3 => .i32 | 4 => .bf16 | 5 => .f32 | 6 => .l4 | _ => .l8
/-- T code of an element type. -/
def typeCode : VType → Nat
  | .i4 => 0 | .i8 => 1 | .i16 => 2 | .i32 => 3 | .bf16 => 4 | .f32 => 5 | .l4 => 6 | .l8 => 7
/-- Condition of a code 0 to 5; 6 and 7 are illegal (R144, R177). -/
def condOf : Nat → Option Cond
  | 0 => some .eq | 1 => some .ne | 2 => some .lt | 3 => some .ge | 4 => some .ltn | 5 => some .gen | _ => none
/-- Code of a condition. -/
def condCode : Cond → Nat
  | .eq => 0 | .ne => 1 | .lt => 2 | .ge => 3 | .ltn => 4 | .gen => 5
/-- PLOG function of a code (R145). -/
def pfnOf : Nat → PFn
  | 0 => .and | 1 => .or | 2 => .xor | _ => .andn
/-- Code of a PLOG function. -/
def pfnCode : PFn → Nat
  | .and => 0 | .or => 1 | .xor => 2 | .andn => 3
/-- Staging set of an engine code; 5 to 7 are illegal (R38). -/
def engOf : Nat → Option Eng
  | 0 => some .array | 1 => some .stream | 2 => some .quilt | 3 => some .fabric | 4 => some .kiln | _ => none
/-- Engine code of a staging set. -/
def engCode : Eng → Nat
  | .array => 0 | .stream => 1 | .quilt => 2 | .fabric => 3 | .kiln => 4
/-- GETI selector of a number; above 10 is illegal (R147). -/
def getiOf : Nat → Option GetiSel
  | 0 => some .strand | 1 => some .tile | 2 => some .cluster | 3 => some .die | 4 => some .package | 5 => some .wuid
  | 6 => some .wucount | 7 => some .cycle | 8 => some .superstep | 9 => some .launch | 10 => some .panel | _ => none
/-- Number of a GETI selector. -/
def getiCode : GetiSel → Nat
  | .strand => 0 | .tile => 1 | .cluster => 2 | .die => 3 | .package => 4 | .wuid => 5 | .wucount => 6 | .cycle => 7
  | .superstep => 8 | .launch => 9 | .panel => 10
/-- Space of an M code; 3 is illegal. -/
def mspaceOf : Nat → Option MSpace
  | 0 => some .global | 1 => some .scratch | 2 => some .store | _ => none
/-- Code of an M space. -/
def mspaceCode : MSpace → Nat
  | .global => 0 | .scratch => 1 | .store => 2
/-- Space of a D code (Table STR-2). -/
def dspaceOf : Nat → DSpace
  | 0 => .global | 1 => .store | 2 => .scratch | _ => .remote
/-- Code of a D space. -/
def dspaceCode : DSpace → Nat
  | .global => 0 | .store => 1 | .scratch => 2 | .remote => 3
/-- Completion kind of a code; 3 is illegal (R119). -/
def cmplOf : Nat → Option Cmpl
  | 0 => some .none | 1 => some .count | 2 => some .arrive | _ => none
/-- Code of a completion kind. -/
def cmplCode : Cmpl → Nat
  | .none => 0 | .count => 1 | .arrive => 2
/-- Rounding mode of a code. -/
def rndOf : Nat → Rnd
  | 0 => .rne | 1 => .rtz | 2 => .rdn | _ => .rup
/-- Code of a rounding mode. -/
def rndCode : Rnd → Nat
  | .rne => 0 | .rtz => 1 | .rdn => 2 | .rup => 3
/-- DRN format of a code; 3 is illegal (R205). -/
def drnOf : Nat → Option DrnFmt
  | 0 => some .f32 | 1 => some .bf16 | 2 => some .log | _ => none
/-- Code of a DRN format. -/
def drnCode : DrnFmt → Nat
  | .f32 => 0 | .bf16 => 1 | .log => 2
/-- RAM operation of a code; 8 and above are illegal (Table FAB-8). -/
def ramOf : Nat → Option RamOp
  | 0 => some .add | 1 => some .min | 2 => some .max | 3 => some .minn | 4 => some .maxn | 5 => some .and | 6 => some .or
  | 7 => some .xor | _ => none
/-- Code of a RAM operation. -/
def ramCode : RamOp → Nat
  | .add => 0 | .min => 1 | .max => 2 | .minn => 3 | .maxn => 4 | .and => 5 | .or => 6 | .xor => 7
/-- MLR operation of a code (R253). -/
def mlrOpOf : Nat → Option MlrOp
  | 0 => some .sum | 1 => some .max | 2 => some .min | 3 => some .agree | _ => none
/-- Code of an MLR operation. -/
def mlrOpCode : MlrOp → Nat
  | .sum => 0 | .max => 1 | .min => 2 | .agree => 3
/-- MLR type of a code (R253). -/
def mlrTypeOf : Nat → Option MlrType
  | 0 => some .bf16 | 1 => some .f32 | 2 => some .l8 | 3 => some .i32 | _ => none
/-- Code of an MLR type. -/
def mlrTypeCode : MlrType → Nat
  | .bf16 => 0 | .f32 => 1 | .l8 => 2 | .i32 => 3
/-- Scope of a code (Table CON-1). -/
def scopeOf : Nat → Scope
  | 0 => .cluster | 1 => .die | 2 => .package | _ => .system
/-- Code of a scope. -/
def scopeCode : Scope → Nat
  | .cluster => 0 | .die => 1 | .package => 2 | .system => 3
/-- STOP target of a code; 3 is illegal (R326). -/
def stopOf : Nat → Option StopKind
  | 0 => some .strand | 1 => some .tile | 2 => some .launch | _ => none
/-- Code of a STOP target. -/
def stopCode : StopKind → Nat
  | .strand => 0 | .tile => 1 | .launch => 2
/-- Queue of an SFLT code (R329). -/
def recQueueOf : Nat → RecQueue
  | 0 => .memory | 1 => .migration | 2 => .remote | _ => .health
/-- Code of an SFLT queue. -/
def recQueueCode : RecQueue → Nat
  | .memory => 0 | .migration => 1 | .remote => 2 | .health => 3
/-- System register of a selector; one not in Table TRP-7 is illegal (R323). -/
def sysRegOf : Nat → Option SysReg
  | 0x000 => some .schedmode | 0x001 => some .efrv | 0x002 => some .efra
  | 0x003 => some .loop0se | 0x004 => some .loop0ct | 0x005 => some .loop1se | 0x006 => some .loop1ct
  | 0x008 => some .trapst | 0x009 => some .trappc | 0x00A => some .trapvec | 0x00B => some .traprec
  | 0x00C => some .stopflag | 0x00D => some .savearea | 0x010 => some .waypart | 0x020 => some .ptroot
  | 0x021 => some .migthr | 0x022 => some .agelimit | 0x023 => some .rfctr | 0x024 => some .mlrjoin
  | 0x025 => some .ctrarea | 0x026 => some .memgov | 0x027 => some .savepool
  | 0x030 => some .bundlelimit | 0x031 => some .stopwin | 0x050 => some .readymap
  | n => if 0x040 ≤ n ∧ n ≤ 0x04F then some (.qcfg (BitVec.ofNat 4 n)) else none
/-- Selector of a system register. -/
def sysRegCode : SysReg → Nat
  | .schedmode => 0x000 | .efrv => 0x001 | .efra => 0x002
  | .loop0se => 0x003 | .loop0ct => 0x004 | .loop1se => 0x005 | .loop1ct => 0x006
  | .trapst => 0x008 | .trappc => 0x009 | .trapvec => 0x00A | .traprec => 0x00B | .stopflag => 0x00C
  | .savearea => 0x00D | .waypart => 0x010 | .ptroot => 0x020 | .migthr => 0x021 | .agelimit => 0x022
  | .rfctr => 0x023 | .mlrjoin => 0x024 | .ctrarea => 0x025 | .memgov => 0x026 | .savepool => 0x027
  | .bundlelimit => 0x030 | .stopwin => 0x031 | .qcfg q => 0x040 + q.toNat | .readymap => 0x050

/-! ### The decoder -/

/-- Go on only where a reserved field is zero (R27, R40). -/
def reserved {n : Nat} (b : BitVec n) (k : Unit → Except DecodeErr Instr) : Except DecodeErr Instr :=
  if b.toNat = 0 then k () else .error .reservedBits

/-- An instruction that takes no L word (R28). -/
def done (ext : List LWord) (i : Instr) : Except DecodeErr Instr :=
  match ext with
  | [] => .ok i
  | _ :: _ => .error .lWord

/-- A field that names nothing raises the illegal-instruction trap (R40). -/
def named {α : Type} (o : Option α) (k : α → Except DecodeErr Instr) : Except DecodeErr Instr :=
  match o with
  | some x => k x
  | none => .error .limit

/-- S R-form and I-form of one operation (R140). -/
def alu (w : Word) (ext : List LWord) (r : Reg → Reg → Reg → Reg3 → Instr)
    (i : Reg → Reg → BitVec 10 → List LWord → Instr) : Except DecodeErr Instr :=
  if flag w 10 then .ok (i (fld w 16 5) (fld w 11 5) (fld w 0 10) ext)
  else reserved (fld w 0 2) fun _ => done ext (r (fld w 16 5) (fld w 11 5) (fld w 5 5) (fld w 2 3))

/-- The R-form of an operation without an I-form (R140). -/
def aluR (w : Word) (ext : List LWord) (r : Reg → Reg → Reg → Reg3 → Instr) : Except DecodeErr Instr :=
  reserved (fld w 10 1) fun _ => reserved (fld w 0 2) fun _ =>
    done ext (r (fld w 16 5) (fld w 11 5) (fld w 5 5) (fld w 2 3))

/-- CLZ and POPC: gb is zero (R140). -/
def alu1 (w : Word) (ext : List LWord) (r : Reg → Reg → Reg3 → Instr) : Except DecodeErr Instr :=
  reserved (fld w 5 6) fun _ => reserved (fld w 0 2) fun _ => done ext (r (fld w 16 5) (fld w 11 5) (fld w 2 3))

/-- CMP with its two second operands (R144). -/
def decodeCmp (w : Word) (ext : List LWord) : Except DecodeErr Instr :=
  named (condOf (fld w 14 3).toNat) fun k =>
    if flag w 8 then .ok (.cmpImm (fld w 18 3) k (flag w 17) (fld w 9 5) (fld w 0 8) ext)
    else reserved (fld w 0 3) fun _ => done ext (.cmp (fld w 18 3) k (flag w 17) (fld w 9 5) (fld w 3 5))

/-- Class S (Table COR-2). -/
def decodeS (w : Word) (ext : List LWord) : Except DecodeErr Instr :=
  match (fld w 21 6).toNat with
  | 0 => reserved (fld w 0 27) fun _ => done ext .nop
  | 1 => alu w ext .add .addImm
  | 2 => alu w ext .sub .subImm
  | 3 => alu w ext .mul .mulImm
  | 4 => alu w ext .mulh .mulhImm
  | 5 => alu w ext .mulhn .mulhnImm
  | 6 => alu w ext .div .divImm
  | 7 => alu w ext .divn .divnImm
  | 8 => alu w ext .rem .remImm
  | 9 => alu w ext .remn .remnImm
  | 10 => alu w ext .addw .addwImm
  | 11 => alu w ext .subw .subwImm
  | 12 => alu w ext .mulw .mulwImm
  | 13 => alu w ext .and .andImm
  | 14 => alu w ext .or .orImm
  | 15 => alu w ext .xor .xorImm
  | 16 => alu w ext .andn .andnImm
  | 17 => alu w ext .shl .shlImm
  | 18 => alu w ext .shr .shrImm
  | 19 => alu w ext .shra .shraImm
  | 20 => alu w ext .shlw .shlwImm
  | 21 => alu w ext .shrw .shrwImm
  | 22 => alu w ext .shraw .shrawImm
  | 23 => alu w ext .min .minImm
  | 24 => alu w ext .max .maxImm
  | 25 => alu w ext .minn .minnImm
  | 26 => alu w ext .maxn .maxnImm
  | 0x1B => alu1 w ext .clz
  | 0x1C => alu1 w ext .popc
  | 0x1D => alu w ext .bfx .bfxImm
  | 0x1E => alu w ext .bfi .bfiImm
  | 0x1F => aluR w ext .sel
  | 0x20 => decodeCmp w ext
  | 0x21 => reserved (fld w 0 9) fun _ =>
      done ext (.plog (fld w 18 3) (fld w 15 3) (fld w 12 3) (pfnOf (fld w 10 2).toNat) (flag w 9))
  | 0x22 => reserved (fld w 0 9) fun _ => named (engOf (fld w 18 3).toNat) fun e =>
      done ext (.stg e (fld w 14 4) (fld w 9 5))
  | 0x23 => reserved (fld w 0 9) fun _ => named (engOf (fld w 13 3).toNat) fun e =>
      done ext (.rstg (fld w 16 5) e (fld w 9 4))
  | 0x24 => reserved (fld w 10 6) fun _ => named (getiOf (fld w 0 10).toNat) fun s =>
      done ext (.geti (fld w 16 5) s)
  | _ => .error .reservedOp

/-- A load or store (Table COR-6). -/
def mem (w : Word) (ext : List LWord) (k : Reg → Reg → MSpace → BitVec 10 → List LWord → Instr) :
    Except DecodeErr Instr :=
  named (mspaceOf (fld w 10 2).toNat) fun s => .ok (k (fld w 17 5) (fld w 12 5) s (fld w 0 10) ext)

/-- A line hint (Table MEM-7). -/
def hint (w : Word) (ext : List LWord) (k : Reg → BitVec 10 → List LWord → Instr) : Except DecodeErr Instr :=
  reserved (fld w 17 5) fun _ => reserved (fld w 10 2) fun _ => .ok (k (fld w 12 5) (fld w 0 10) ext)

/-- Class M (Table COR-7). -/
def decodeM (w : Word) (ext : List LWord) : Except DecodeErr Instr :=
  match (fld w 22 5).toNat with
  | 0 => mem w ext .ldb
  | 1 => mem w ext .ldbn
  | 2 => mem w ext .ldh
  | 3 => mem w ext .ldhn
  | 4 => mem w ext .ldw
  | 5 => mem w ext .ldwn
  | 6 => mem w ext .ldd
  | 8 => mem w ext .stb
  | 9 => mem w ext .sth
  | 10 => mem w ext .stw
  | 11 => mem w ext .std
  | 16 => hint w ext .pref
  | 17 => hint w ext .disc
  | 18 => hint w ext .luse
  | _ => .error .reservedOp

/-- Class B (Table COR-8). -/
def decodeB (w : Word) (ext : List LWord) : Except DecodeErr Instr :=
  match (fld w 22 5).toNat with
  | 0 => done ext (.br (fld w 19 3) (flag w 18) (fld w 0 18))
  | 1 => done ext (.jmp (fld w 0 22))
  | 2 => done ext (.call (fld w 0 22))
  | 3 => reserved (fld w 0 17) fun _ => done ext (.jr (fld w 17 5))
  | 4 => done ext (.lset (flag w 21) (fld w 16 5) (fld w 0 16))
  | 5 => done ext (.lseti (flag w 21) (fld w 9 12) (fld w 0 9))
  | 6 => reserved (fld w 0 21) fun _ => done ext (.lexit (flag w 21))
  | 7 => reserved (fld w 8 14) fun _ => done ext (.dly (fld w 0 8))
  | 8 => done ext (.node (fld w 0 22))
  | 9 => done ext (.sels (fld w 17 5) (fld w 0 17))
  | 10 => reserved (fld w 0 22) fun _ => done ext .yield
  | 11 => reserved (fld w 0 22) fun _ => done ext .halt
  | 12 => reserved (fld w 16 6) fun _ => done ext (.trap (fld w 0 16))
  | 13 => reserved (fld w 0 21) fun _ => done ext (if flag w 21 then .gangEnter else .gangExit)
  | _ => .error .reservedOp

/-- A three-operand vector form (Table VEC-2). -/
def vec3 (w : Word) (ext : List LWord) (k : VType → Reg → Reg → Reg → Reg3 → Instr) : Except DecodeErr Instr :=
  done ext (k (vtypeOf (fld w 18 3)) (fld w 13 5) (fld w 8 5) (fld w 3 5) (fld w 0 3))

/-- A one-source vector form: [7:3] is zero (R170). -/
def vec1 (w : Word) (ext : List LWord) (k : VType → Reg → Reg → Reg3 → Instr) : Except DecodeErr Instr :=
  reserved (fld w 3 5) fun _ => done ext (k (vtypeOf (fld w 18 3)) (fld w 13 5) (fld w 8 5) (fld w 0 3))

/-- Class V (Tables VEC-2 to VEC-6). -/
def decodeV (w : Word) (ext : List LWord) : Except DecodeErr Instr :=
  match (fld w 21 6).toNat with
  | 0 => vec3 w ext .vadd
  | 1 => vec3 w ext .vsub
  | 2 => vec3 w ext .vadds
  | 3 => vec3 w ext .vsubs
  | 4 => vec3 w ext .vmul
  | 5 => vec3 w ext .vmulh
  | 6 => vec3 w ext .vmad
  | 7 => vec3 w ext .vmin
  | 8 => vec3 w ext .vmax
  | 9 => vec3 w ext .vminn
  | 10 => vec3 w ext .vmaxn
  | 11 => vec1 w ext .vabs
  | 12 => vec3 w ext .vand
  | 13 => vec3 w ext .vor
  | 14 => vec3 w ext .vxor
  | 15 => vec3 w ext .vshl
  | 16 => vec3 w ext .vshr
  | 17 => vec3 w ext .vshra
  | 18 => vec3 w ext .vaddw
  | 19 => vec3 w ext .vmulw
  | 20 => vec3 w ext .vmulq
  | 21 => vec3 w ext .vmadq
  | 22 => vec3 w ext .vfadd
  | 23 => vec3 w ext .vfsub
  | 24 => vec3 w ext .vfmul
  | 25 => vec3 w ext .vfma
  | 26 => vec3 w ext .vfmin
  | 27 => vec3 w ext .vfmax
  | 28 => vec1 w ext .vfabs
  | 29 => vec1 w ext .vfneg
  | 30 => vec1 w ext .vfrcp
  | 31 => vec1 w ext .vfrsq
  | 32 => vec1 w ext .vfexp2
  | 33 => vec1 w ext .vflog2
  | 34 => vec3 w ext .vlmul
  | 35 => vec1 w ext .vlrcp
  | 36 => reserved (fld w 0 2) fun _ =>
      match condOf (fld w 12 3).toNat with
      | some k => done ext (.vcmp (vtypeOf (fld w 18 3)) (fld w 15 3) k (fld w 7 5) (fld w 2 5))
      | none => .error .limit
  | 37 => vec3 w ext .vsel
  | 38 => vec1 w ext .vreds
  | 39 => vec1 w ext .vredx
  | 40 => vec1 w ext .vredn
  | _ => .error .reservedOp

/-- VMOVM (R187): [19:18] and [12:3] are zero. -/
def decodeVmovm (w : Word) (ext : List LWord) : Except DecodeErr Instr :=
  reserved (fld w 18 2) fun _ => reserved (fld w 3 10) fun _ =>
    done ext (.vmovm (flag w 20) (fld w 13 5) (fld w 0 3))

/-- VQNT and VDQNT (R189, R190): [1:0] is zero. -/
def quant (w : Word) (ext : List LWord) (k : VType → Reg → Reg → Reg → Bool → Instr) : Except DecodeErr Instr :=
  reserved (fld w 0 2) fun _ =>
    done ext (k (vtypeOf (fld w 18 3)) (fld w 13 5) (fld w 8 5) (fld w 3 5) (flag w 2))

/-- Class X (Table VEC-8). -/
def decodeX (w : Word) (ext : List LWord) : Except DecodeErr Instr :=
  match (fld w 21 6).toNat with
  | 0 => .ok (.vld (vtypeOf (fld w 18 3)) (fld w 13 5) (fld w 8 5) (fld w 3 5) (fld w 0 3) ext)
  | 1 => .ok (.vst (vtypeOf (fld w 18 3)) (fld w 13 5) (fld w 8 5) (fld w 3 5) (fld w 0 3) ext)
  | 2 => vec3 w ext .vgth
  | 3 => vec3 w ext .vsct
  | 4 => vec1 w ext .vbc
  | 5 => .ok (.vget (vtypeOf (fld w 18 3)) (fld w 13 5) (fld w 8 5) (fld w 0 8) ext)
  | 6 => .ok (.vput (vtypeOf (fld w 18 3)) (fld w 13 5) (fld w 8 5) (fld w 0 8) ext)
  | 7 => vec3 w ext .vprm
  | 8 => reserved (fld w 0 15) fun _ => done ext (.vtrp (vtypeOf (fld w 18 3)) (fld w 15 3))
  | 9 => done ext (.vcvt (vtypeOf (fld w 18 3)) (fld w 13 5) (fld w 8 5) (vtypeOf (fld w 5 3))
      (rndOf (fld w 3 2).toNat) (fld w 0 3))
  | 10 => quant w ext .vqnt
  | 11 => quant w ext .vdqnt
  | 12 => reserved (fld w 18 3) fun _ => done ext (.vrnd (fld w 13 5) (fld w 8 5) (fld w 3 5) (fld w 0 3))
  | 13 => vec1 w ext .viota
  | 14 => vec3 w ext .vext
  | 15 => vec3 w ext .vcmpr
  | 16 => decodeVmovm w ext
  | _ => .error .reservedOp

/-- Class A (Table ARR-4). -/
def decodeA (w : Word) (ext : List LWord) : Except DecodeErr Instr :=
  match (fld w 23 4).toNat with
  | 0 => reserved (fld w 0 11) fun _ => done ext (.afmt (flag w 22) (fld w 20 2) (flag w 19) (flag w 18) (fld w 16 2)
      (flag w 15) (fld w 13 2) (fld w 11 2))
  | 1 => reserved (fld w 7 4) fun _ => done ext (.wld (fld w 11 12) (fld w 0 7))
  | 2 => reserved (fld w 0 23) fun _ => done ext .aswp
  | 3 => reserved (fld w 8 3) fun _ => done ext (.strm (fld w 11 12) (fld w 0 8))
  | 4 => named (drnOf (fld w 8 2).toNat) fun f => done ext (.drn (fld w 11 12) (flag w 10) f (fld w 0 8))
  | 5 => reserved (fld w 8 3) fun _ => done ext (.aclr (fld w 11 12) (fld w 0 8))
  | 6 => reserved (fld w 1 22) fun _ => done ext (.agng (flag w 0))
  | 7 => reserved (fld w 1 22) fun _ => done ext (.asta (flag w 0))
  | _ => .error .reservedOp

/-- Class K (Table ARR-6). -/
def decodeK (w : Word) (ext : List LWord) : Except DecodeErr Instr :=
  match (fld w 24 3).toNat with
  | 0 => .ok (.ksa (fld w 19 5) (fld w 0 19) ext)
  | 1 => .ok (.ksw (fld w 19 5) (fld w 12 7) (fld w 0 12) ext)
  | 2 => .ok (.kso (fld w 19 5) (fld w 0 19) ext)
  | 3 => reserved (fld w 0 24) fun _ => done ext .kclr
  | _ => .error .reservedOp

/-- A D word with spaces (Table STR-6). -/
def dword (w : Word) (ext : List LWord) (k : Cmpl → Bool → DSpace → DSpace → Instr) : Except DecodeErr Instr :=
  reserved (fld w 0 16) fun _ => named (cmplOf (fld w 21 2).toNat) fun c =>
    done ext (k c (flag w 20) (dspaceOf (fld w 18 2).toNat) (dspaceOf (fld w 16 2).toNat))

/-- Class D (Table STR-6). -/
def decodeD (w : Word) (ext : List LWord) : Except DecodeErr Instr :=
  match (fld w 23 4).toNat with
  | 0 => dword w ext .dcpy
  | 1 => dword w ext .dunf
  | 2 => reserved (fld w 0 17) fun _ => named (cmplOf (fld w 21 2).toNat) fun c =>
      done ext (if flag w 17 then .dpubInit c (fld w 18 3) else .dpub c (fld w 18 3))
  | 3 => dword w ext .dfil
  | 4 => dword w ext .dgth
  | 5 => reserved (fld w 1 22) fun _ => done ext (.dsta (flag w 0))
  | _ => .error .reservedOp

/-- Class Q (Table QLT-5). -/
def decodeQ (w : Word) (ext : List LWord) : Except DecodeErr Instr :=
  match (fld w 23 4).toNat with
  | 0 => reserved (fld w 8 3) fun _ => done ext (.qpat (fld w 11 12) (fld w 0 8))
  | 1 => reserved (fld w 8 3) fun _ => done ext (.qldy (fld w 11 12) (fld w 0 8))
  | 2 => reserved (fld w 11 12) fun _ => reserved (fld w 0 9) fun _ => done ext (.qdom (fld w 9 2))
  | 3 => reserved (fld w 4 5) fun _ => done ext (.qstp (fld w 11 12) (fld w 9 2) (fld w 0 4))
  | 4 => reserved (fld w 0 11) fun _ => if (fld w 11 12).toNat = 259 then done ext .qsav else .error .limit
  | 5 => reserved (fld w 0 11) fun _ => if (fld w 11 12).toNat = 259 then done ext .qrst else .error .limit
  | 6 => reserved (fld w 11 12) fun _ => reserved (fld w 0 5) fun _ => done ext (.qrdv (flag w 10) (fld w 5 5))
  | 7 => reserved (fld w 1 22) fun _ => done ext (.qsta (flag w 0))
  | _ => .error .reservedOp

/-- MLR (R253): CPL is 0 or 1. -/
def decodeMlr (w : Word) (ext : List LWord) : Except DecodeErr Instr :=
  reserved (fld w 12 10) fun _ => reserved (fld w 3 1) fun _ => reserved (fld w 0 2) fun _ =>
    named (mlrOpOf (fld w 8 4).toNat) fun o => named (mlrTypeOf (fld w 5 3).toNat) fun t =>
      done ext (.mlr o t (flag w 4) (flag w 2))

/-- Class F (Table FAB-6). -/
def decodeF (w : Word) (ext : List LWord) : Except DecodeErr Instr :=
  match (fld w 22 5).toNat with
  | 0 => reserved (fld w 0 11) fun _ => done ext (.rsw (fld w 17 5) (fld w 12 5) (flag w 11))
  | 1 => reserved (fld w 0 7) fun _ => named (ramOf (fld w 8 4).toNat) fun o =>
      done ext (.ram (fld w 17 5) (fld w 12 5) o (flag w 7))
  | 2 => reserved (fld w 0 10) fun _ => done ext (.rld (fld w 17 5) (fld w 12 5) (flag w 11) (flag w 10))
  | 3 => reserved (fld w 12 5) fun _ => reserved (fld w 0 11) fun _ => done ext (.rfl (fld w 17 5) (flag w 11))
  | 4 => reserved (fld w 4 18) fun _ => done ext (.mgrp (fld w 0 4))
  | 5 => decodeMlr w ext
  | 6 => reserved (fld w 0 17) fun _ => done ext (.rfq (fld w 17 5))
  | 7 => reserved (fld w 1 16) fun _ => done ext (.rsta (fld w 17 5) (flag w 0))
  | _ => .error .reservedOp

/-- CADD, local or remote: the remote form takes exactly one L word, the peer (R28, R29). -/
def decodeCadd (w : Word) (ext : List LWord) : Except DecodeErr Instr :=
  reserved (fld w 0 10) fun _ =>
    if flag w 11 then
      match ext with
      | [p] => .ok (.caddRemote (fld w 17 5) (fld w 12 5) (flag w 10) p)
      | _ => .error .lWord
    else done ext (.cadd (fld w 17 5) (fld w 12 5) (flag w 10))

/-- DGS functions (R281). -/
def decodeDgs (w : Word) (ext : List LWord) : Except DecodeErr Instr :=
  reserved (fld w 2 10) fun _ =>
    match (fld w 0 2).toNat with
    | 0 => reserved (fld w 12 10) fun _ => done ext .dgsOn
    | 1 => reserved (fld w 12 10) fun _ => done ext .dgsOff
    | 2 => reserved (fld w 12 5) fun _ => done ext (.dgsRd (fld w 17 5))
    | _ => done ext (.dgsFold (fld w 17 5) (fld w 12 5))

/-- Class Y (Table CON-6). -/
def decodeY (w : Word) (ext : List LWord) : Except DecodeErr Instr :=
  match (fld w 22 5).toNat with
  | 0 => decodeCadd w ext
  | 1 => reserved (fld w 11 1) fun _ => reserved (fld w 0 10) fun _ =>
      done ext (.cwt (fld w 17 5) (fld w 12 5) (flag w 10))
  | 2 => reserved (fld w 0 12) fun _ => done ext (.crd (fld w 17 5) (fld w 12 5))
  | 3 => reserved (fld w 0 12) fun _ => done ext (.aarm (fld w 17 5) (fld w 12 5))
  | 4 => reserved (fld w 11 1) fun _ => reserved (fld w 0 10) fun _ =>
      done ext (.awt (fld w 17 5) (fld w 12 5) (flag w 10))
  | 5 => reserved (fld w 10 12) fun _ => reserved (fld w 2 6) fun _ =>
      done ext (.phs (flag w 9) (flag w 8) (scopeOf (fld w 0 2).toNat))
  | 6 => reserved (fld w 3 19) fun _ => done ext (.bar (flag w 2) (scopeOf (fld w 0 2).toNat))
  | 7 => reserved (fld w 12 10) fun _ => reserved (fld w 0 4) fun _ => done ext (.fen (fld w 4 8))
  | 8 => reserved (fld w 0 17) fun _ => done ext (.splt (fld w 17 5))
  | 9 => decodeDgs w ext
  | _ => .error .reservedOp

/-- Class N (Table MEM-8): CPL is 0 or 1. -/
def decodeN (w : Word) (ext : List LWord) : Except DecodeErr Instr :=
  match (fld w 23 4).toNat with
  | 0 => reserved (fld w 0 23) fun _ => done ext .upcf
  | 1 => reserved (fld w 4 19) fun _ => reserved (fld w 2 1) fun _ => done ext (.updm (flag w 3) (flag w 1) (flag w 0))
  | 2 => reserved (fld w 3 20) fun _ => reserved (fld w 2 1) fun _ => done ext (.upmo (flag w 1) (flag w 0))
  | 3 => reserved (fld w 1 22) fun _ => done ext (.upst (flag w 0))
  | _ => .error .reservedOp

/-- Class Z (Tables TRP-9 and XLT-8). -/
def decodeZ (w : Word) (ext : List LWord) : Except DecodeErr Instr :=
  match (fld w 22 5).toNat with
  | 0 => reserved (fld w 12 5) fun _ => named (sysRegOf (fld w 0 12).toNat) fun r => done ext (.srd (fld w 17 5) r)
  | 1 => reserved (fld w 12 5) fun _ => named (sysRegOf (fld w 0 12).toNat) fun r => done ext (.swr (fld w 17 5) r)
  | 2 => reserved (fld w 1 21) fun _ => done ext (.tret (flag w 0))
  | 3 => reserved (fld w 4 8) fun _ =>
      done ext (.tlbi (fld w 17 5) (fld w 12 5) (flag w 3) (flag w 2) (scopeOf (fld w 0 2).toNat))
  | 4 => reserved (fld w 9 3) fun _ =>
      done ext (.shot (fld w 17 5) (fld w 12 5) (fld w 4 5) (flag w 3) (flag w 2) (scopeOf (fld w 0 2).toNat))
  | 5 => reserved (fld w 0 17) fun _ => done ext (.csav (fld w 17 5))
  | 6 => reserved (fld w 0 17) fun _ => done ext (.crst (fld w 17 5))
  | 7 => reserved (fld w 3 14) fun _ => named (stopOf (fld w 0 2).toNat) fun k =>
      done ext (.stop (fld w 17 5) (flag w 2) k)
  | 8 => reserved (fld w 5 12) fun _ => done ext (.slp (fld w 17 5) (fld w 0 5))
  | 9 => reserved (fld w 2 10) fun _ => done ext (.sflt (fld w 17 5) (fld w 12 5) (recQueueOf (fld w 0 2).toNat))
  | _ => .error .reservedOp

/-- The fields of one word and its L words, before the limits are checked. -/
def decodeFields (w : Word) (ext : List LWord) : Except DecodeErr Instr :=
  match classOf w with
  | 0 => decodeS w ext
  | 1 => decodeM w ext
  | 2 => decodeB w ext
  | 3 => decodeV w ext
  | 4 => decodeX w ext
  | 5 => decodeA w ext
  | 6 => decodeK w ext
  | 7 => decodeD w ext
  | 8 => decodeQ w ext
  | 9 => decodeF w ext
  | 10 => decodeY w ext
  | 11 => decodeN w ext
  | 12 => decodeZ w ext
  | 13 => .error .lWord
  | _ => .error .reservedClass

/-- The instruction of one word with its L words (R27, R28, R40). -/
def decodeWord (w : Word) (ext : List LWord) : Except DecodeErr Instr :=
  match decodeFields w ext with
  | .ok i => if wellFormed i then .ok i else .error .limit
  | .error e => .error e

/-- The L words that follow a word with chain bit c: their bits, the chain bit of the last word taken, and the words
that are left. -/
def splitL (c : Bool) : List Word → List LWord × Bool × List Word
  | [] => ([], c, [])
  | w :: r =>
    if c && isL w then
      let x := splitL (flag w 31) r
      (fld w 0 27 :: x.1, x.2)
    else ([], c, w :: r)

/-- One instruction from a list of words: the chain bit after it, the instruction, and the words left. -/
def decodeOne : List Word → Except DecodeErr (Bool × Instr × List Word)
  | [] => .error .noWord
  | w :: r =>
    let x := splitL (flag w 31) r
    match decodeWord w x.1 with
    | .ok i => .ok (x.2.1, i, x.2.2)
    | .error e => .error e

/-! ### The encoder -/

/-- Fields side by side, high field first: pairs of a width and a value. -/
def pack (l : List (Nat × Nat)) : Nat := l.foldl (fun acc f => acc * 2 ^ f.1 + f.2) 0

/-- S R-form. -/
def encR (op : Nat) (d a b : Reg) (p : Reg3) : Nat :=
  pack [(4, 0), (6, op), (5, d.toNat), (5, a.toNat), (1, 0), (5, b.toNat), (3, p.toNat), (2, 0)]
/-- S I-form. -/
def encI (op : Nat) (d a : Reg) (i : BitVec 10) : Nat :=
  pack [(4, 0), (6, op), (5, d.toNat), (5, a.toNat), (1, 1), (10, i.toNat)]
/-- M layout. -/
def encM (op : Nat) (g b : Reg) (s : MSpace) (i : BitVec 10) : Nat :=
  pack [(4, 1), (5, op), (5, g.toNat), (5, b.toNat), (2, mspaceCode s), (10, i.toNat)]
/-- V and X layout with five fields. -/
def encV (cls op : Nat) (t : VType) (d a b : Reg) (m : Reg3) : Nat :=
  pack [(4, cls), (6, op), (3, typeCode t), (5, d.toNat), (5, a.toNat), (5, b.toNat), (3, m.toNat)]
/-- D layout with spaces. -/
def encD (op : Nat) (k : Cmpl) (h : Bool) (s d : DSpace) : Nat :=
  pack [(4, 7), (4, op), (2, cmplCode k), (1, h.toNat), (2, dspaceCode s), (2, dspaceCode d), (16, 0)]
/-- F, Y and Z layout: class, op, two registers, flags. -/
def encF (cls op : Nat) (a b : Reg) (flags : Nat) : Nat :=
  pack [(4, cls), (5, op), (5, a.toNat), (5, b.toNat), (12, flags)]
/-- A and Q layout: class, op, beats, flags. -/
def encA (cls op : Nat) (beats : BitVec 12) (flags : Nat) : Nat :=
  pack [(4, cls), (4, op), (12, beats.toNat), (11, flags)]

/-- The low 31 bits of an instruction's word and its L words; an event has no words. -/
def encodeBody : Instr → Option (Nat × List LWord)
  | .nop => some (0, [])
  | .add d a b p => some (encR 1 d a b p, [])
  | .addImm d a i e => some (encI 1 d a i, e)
  | .sub d a b p => some (encR 2 d a b p, [])
  | .subImm d a i e => some (encI 2 d a i, e)
  | .mul d a b p => some (encR 3 d a b p, [])
  | .mulImm d a i e => some (encI 3 d a i, e)
  | .mulh d a b p => some (encR 4 d a b p, [])
  | .mulhImm d a i e => some (encI 4 d a i, e)
  | .mulhn d a b p => some (encR 5 d a b p, [])
  | .mulhnImm d a i e => some (encI 5 d a i, e)
  | .div d a b p => some (encR 6 d a b p, [])
  | .divImm d a i e => some (encI 6 d a i, e)
  | .divn d a b p => some (encR 7 d a b p, [])
  | .divnImm d a i e => some (encI 7 d a i, e)
  | .rem d a b p => some (encR 8 d a b p, [])
  | .remImm d a i e => some (encI 8 d a i, e)
  | .remn d a b p => some (encR 9 d a b p, [])
  | .remnImm d a i e => some (encI 9 d a i, e)
  | .addw d a b p => some (encR 10 d a b p, [])
  | .addwImm d a i e => some (encI 10 d a i, e)
  | .subw d a b p => some (encR 11 d a b p, [])
  | .subwImm d a i e => some (encI 11 d a i, e)
  | .mulw d a b p => some (encR 12 d a b p, [])
  | .mulwImm d a i e => some (encI 12 d a i, e)
  | .and d a b p => some (encR 13 d a b p, [])
  | .andImm d a i e => some (encI 13 d a i, e)
  | .or d a b p => some (encR 14 d a b p, [])
  | .orImm d a i e => some (encI 14 d a i, e)
  | .xor d a b p => some (encR 15 d a b p, [])
  | .xorImm d a i e => some (encI 15 d a i, e)
  | .andn d a b p => some (encR 16 d a b p, [])
  | .andnImm d a i e => some (encI 16 d a i, e)
  | .shl d a b p => some (encR 17 d a b p, [])
  | .shlImm d a i e => some (encI 17 d a i, e)
  | .shr d a b p => some (encR 18 d a b p, [])
  | .shrImm d a i e => some (encI 18 d a i, e)
  | .shra d a b p => some (encR 19 d a b p, [])
  | .shraImm d a i e => some (encI 19 d a i, e)
  | .shlw d a b p => some (encR 20 d a b p, [])
  | .shlwImm d a i e => some (encI 20 d a i, e)
  | .shrw d a b p => some (encR 21 d a b p, [])
  | .shrwImm d a i e => some (encI 21 d a i, e)
  | .shraw d a b p => some (encR 22 d a b p, [])
  | .shrawImm d a i e => some (encI 22 d a i, e)
  | .min d a b p => some (encR 23 d a b p, [])
  | .minImm d a i e => some (encI 23 d a i, e)
  | .max d a b p => some (encR 24 d a b p, [])
  | .maxImm d a i e => some (encI 24 d a i, e)
  | .minn d a b p => some (encR 25 d a b p, [])
  | .minnImm d a i e => some (encI 25 d a i, e)
  | .maxn d a b p => some (encR 26 d a b p, [])
  | .maxnImm d a i e => some (encI 26 d a i, e)
  | .clz d a p => some (encR 0x1B d a 0 p, [])
  | .popc d a p => some (encR 0x1C d a 0 p, [])
  | .bfx d a b p => some (encR 0x1D d a b p, [])
  | .bfxImm d a i e => some (encI 0x1D d a i, e)
  | .bfi d a b p => some (encR 0x1E d a b p, [])
  | .bfiImm d a i e => some (encI 0x1E d a i, e)
  | .sel d a b p => some (encR 0x1F d a b p, [])
  | .cmp p k w a b => some (pack [(4, 0), (6, 0x20), (3, p.toNat), (1, w.toNat), (3, condCode k), (5, a.toNat), (1, 0),
      (5, b.toNat), (3, 0)], [])
  | .cmpImm p k w a i e => some (pack [(4, 0), (6, 0x20), (3, p.toNat), (1, w.toNat), (3, condCode k), (5, a.toNat),
      (1, 1), (8, i.toNat)], e)
  | .plog d a b f n => some (pack [(4, 0), (6, 0x21), (3, d.toNat), (3, a.toNat), (3, b.toNat), (2, pfnCode f),
      (1, n.toNat), (9, 0)], [])
  | .stg e x a => some (pack [(4, 0), (6, 0x22), (3, engCode e), (4, x.toNat), (5, a.toNat), (9, 0)], [])
  | .rstg d e x => some (pack [(4, 0), (6, 0x23), (5, d.toNat), (3, engCode e), (4, x.toNat), (9, 0)], [])
  | .geti d s => some (pack [(4, 0), (6, 0x24), (5, d.toNat), (6, 0), (10, getiCode s)], [])
  | .ldb g b s i e => some (encM 0 g b s i, e)
  | .ldbn g b s i e => some (encM 1 g b s i, e)
  | .ldh g b s i e => some (encM 2 g b s i, e)
  | .ldhn g b s i e => some (encM 3 g b s i, e)
  | .ldw g b s i e => some (encM 4 g b s i, e)
  | .ldwn g b s i e => some (encM 5 g b s i, e)
  | .ldd g b s i e => some (encM 6 g b s i, e)
  | .stb g b s i e => some (encM 8 g b s i, e)
  | .sth g b s i e => some (encM 9 g b s i, e)
  | .stw g b s i e => some (encM 10 g b s i, e)
  | .std g b s i e => some (encM 11 g b s i, e)
  | .pref b i e => some (encM 16 0 b .global i, e)
  | .disc b i e => some (encM 17 0 b .global i, e)
  | .luse b i e => some (encM 18 0 b .global i, e)
  | .br p n d => some (pack [(4, 2), (5, 0), (3, p.toNat), (1, n.toNat), (18, d.toNat)], [])
  | .jmp d => some (pack [(4, 2), (5, 1), (22, d.toNat)], [])
  | .call d => some (pack [(4, 2), (5, 2), (22, d.toNat)], [])
  | .jr a => some (pack [(4, 2), (5, 3), (5, a.toNat), (17, 0)], [])
  | .lset l g e => some (pack [(4, 2), (5, 4), (1, l.toNat), (5, g.toNat), (16, e.toNat)], [])
  | .lseti l n e => some (pack [(4, 2), (5, 5), (1, l.toNat), (12, n.toNat), (9, e.toNat)], [])
  | .lexit l => some (pack [(4, 2), (5, 6), (1, l.toNat), (21, 0)], [])
  | .dly n => some (pack [(4, 2), (5, 7), (14, 0), (8, n.toNat)], [])
  | .node n => some (pack [(4, 2), (5, 8), (22, n.toNat)], [])
  | .sels g t => some (pack [(4, 2), (5, 9), (5, g.toNat), (17, t.toNat)], [])
  | .yield => some (pack [(4, 2), (5, 10), (22, 0)], [])
  | .halt => some (pack [(4, 2), (5, 11), (22, 0)], [])
  | .trap k => some (pack [(4, 2), (5, 12), (6, 0), (16, k.toNat)], [])
  | .gangEnter => some (pack [(4, 2), (5, 13), (1, 1), (21, 0)], [])
  | .gangExit => some (pack [(4, 2), (5, 13), (1, 0), (21, 0)], [])
  | .vadd t d a b m => some (encV 3 0 t d a b m, [])
  | .vsub t d a b m => some (encV 3 1 t d a b m, [])
  | .vadds t d a b m => some (encV 3 2 t d a b m, [])
  | .vsubs t d a b m => some (encV 3 3 t d a b m, [])
  | .vmul t d a b m => some (encV 3 4 t d a b m, [])
  | .vmulh t d a b m => some (encV 3 5 t d a b m, [])
  | .vmad t d a b m => some (encV 3 6 t d a b m, [])
  | .vmin t d a b m => some (encV 3 7 t d a b m, [])
  | .vmax t d a b m => some (encV 3 8 t d a b m, [])
  | .vminn t d a b m => some (encV 3 9 t d a b m, [])
  | .vmaxn t d a b m => some (encV 3 10 t d a b m, [])
  | .vabs t d a m => some (encV 3 11 t d a 0 m, [])
  | .vand t d a b m => some (encV 3 12 t d a b m, [])
  | .vor t d a b m => some (encV 3 13 t d a b m, [])
  | .vxor t d a b m => some (encV 3 14 t d a b m, [])
  | .vshl t d a b m => some (encV 3 15 t d a b m, [])
  | .vshr t d a b m => some (encV 3 16 t d a b m, [])
  | .vshra t d a b m => some (encV 3 17 t d a b m, [])
  | .vaddw t d a b m => some (encV 3 18 t d a b m, [])
  | .vmulw t d a b m => some (encV 3 19 t d a b m, [])
  | .vmulq t d a b m => some (encV 3 20 t d a b m, [])
  | .vmadq t d a b m => some (encV 3 21 t d a b m, [])
  | .vfadd t d a b m => some (encV 3 22 t d a b m, [])
  | .vfsub t d a b m => some (encV 3 23 t d a b m, [])
  | .vfmul t d a b m => some (encV 3 24 t d a b m, [])
  | .vfma t d a b m => some (encV 3 25 t d a b m, [])
  | .vfmin t d a b m => some (encV 3 26 t d a b m, [])
  | .vfmax t d a b m => some (encV 3 27 t d a b m, [])
  | .vfabs t d a m => some (encV 3 28 t d a 0 m, [])
  | .vfneg t d a m => some (encV 3 29 t d a 0 m, [])
  | .vfrcp t d a m => some (encV 3 30 t d a 0 m, [])
  | .vfrsq t d a m => some (encV 3 31 t d a 0 m, [])
  | .vfexp2 t d a m => some (encV 3 32 t d a 0 m, [])
  | .vflog2 t d a m => some (encV 3 33 t d a 0 m, [])
  | .vlmul t d a b m => some (encV 3 34 t d a b m, [])
  | .vlrcp t d a m => some (encV 3 35 t d a 0 m, [])
  | .vcmp t d k a b => some (pack [(4, 3), (6, 36), (3, typeCode t), (3, d.toNat), (3, condCode k), (5, a.toNat), (5, b.toNat), (2, 0)], [])
  | .vsel t d a b m => some (encV 3 37 t d a b m, [])
  | .vreds t d a m => some (encV 3 38 t d a 0 m, [])
  | .vredx t d a m => some (encV 3 39 t d a 0 m, [])
  | .vredn t d a m => some (encV 3 40 t d a 0 m, [])
  | .vld t v b s m e => some (encV 4 0 t v b s m, e)
  | .vst t v b s m e => some (encV 4 1 t v b s m, e)
  | .vgth t v b x m => some (encV 4 2 t v b x m, [])
  | .vsct t v b x m => some (encV 4 3 t v b x m, [])
  | .vbc t d a m => some (encV 4 4 t d a 0 m, [])
  | .vget t d a l e => some (pack [(4, 4), (6, 5), (3, typeCode t), (5, d.toNat), (5, a.toNat), (8, l.toNat)], e)
  | .vput t d a l e => some (pack [(4, 4), (6, 6), (3, typeCode t), (5, d.toNat), (5, a.toNat), (8, l.toNat)], e)
  | .vprm t d a b m => some (encV 4 7 t d a b m, [])
  | .vtrp t g => some (pack [(4, 4), (6, 8), (3, typeCode t), (3, g.toNat), (15, 0)], [])
  | .vcvt s d a t r m => some (pack [(4, 4), (6, 9), (3, typeCode s), (5, d.toNat), (5, a.toNat), (3, typeCode t),
      (2, rndCode r), (3, m.toNat)], [])
  | .vqnt t d a s f => some (pack [(4, 4), (6, 10), (3, typeCode t), (5, d.toNat), (5, a.toNat), (5, s.toNat),
      (1, f.toNat), (2, 0)], [])
  | .vdqnt t d a s f => some (pack [(4, 4), (6, 11), (3, typeCode t), (5, d.toNat), (5, a.toNat), (5, s.toNat),
      (1, f.toNat), (2, 0)], [])
  | .vrnd d k b m => some (encV 4 12 .i4 d k b m, [])
  | .viota t d a m => some (encV 4 13 t d a 0 m, [])
  | .vext t d a b m => some (encV 4 14 t d a b m, [])
  | .vcmpr t d a b m => some (encV 4 15 t d a b m, [])
  | .vmovm r v m => some (pack [(4, 4), (6, 16), (1, r.toNat), (2, 0), (5, v.toNat), (10, 0), (3, m.toNat)], [])
  | .afmt aw af as_ ww wf ws ns sp => some (pack [(4, 5), (4, 0), (1, aw.toNat), (2, af.toNat), (1, as_.toNat),
      (1, ww.toNat), (2, wf.toNat), (1, ws.toNat), (2, ns.toNat), (2, sp.toNat), (11, 0)], [])
  | .wld b f => some (encA 5 1 b f.toNat, [])
  | .aswp => some (encA 5 2 0 0, [])
  | .strm b f => some (encA 5 3 b f.toNat, [])
  | .drn b z o f => some (pack [(4, 5), (4, 4), (12, b.toNat), (1, z.toNat), (2, drnCode o), (8, f.toNat)], [])
  | .aclr b f => some (encA 5 5 b f.toNat, [])
  | .agng c => some (encA 5 6 0 c.toNat, [])
  | .asta c => some (encA 5 7 0 c.toNat, [])
  | .ksa a i e => some (pack [(4, 6), (3, 0), (5, a.toNat), (19, i.toNat)], e)
  | .ksw a c i e => some (pack [(4, 6), (3, 1), (5, a.toNat), (7, c.toNat), (12, i.toNat)], e)
  | .kso a i e => some (pack [(4, 6), (3, 2), (5, a.toNat), (19, i.toNat)], e)
  | .kclr => some (pack [(4, 6), (3, 3), (24, 0)], [])
  | .dcpy k h s d => some (encD 0 k h s d, [])
  | .dunf k h s d => some (encD 1 k h s d, [])
  | .dpubInit k p => some (pack [(4, 7), (4, 2), (2, cmplCode k), (3, p.toNat), (1, 1), (17, 0)], [])
  | .dpub k p => some (pack [(4, 7), (4, 2), (2, cmplCode k), (3, p.toNat), (1, 0), (17, 0)], [])
  | .dfil k h s d => some (encD 3 k h s d, [])
  | .dgth k h s d => some (encD 4 k h s d, [])
  | .dsta c => some (pack [(4, 7), (4, 5), (22, 0), (1, c.toNat)], [])
  | .qpat c f => some (encA 8 0 c f.toNat, [])
  | .qldy c f => some (encA 8 1 c f.toNat, [])
  | .qdom d => some (pack [(4, 8), (4, 2), (12, 0), (2, d.toNat), (9, 0)], [])
  | .qstp s d m => some (pack [(4, 8), (4, 3), (12, s.toNat), (2, d.toNat), (5, 0), (4, m.toNat)], [])
  | .qsav => some (encA 8 4 259 0, [])
  | .qrst => some (encA 8 5 259 0, [])
  | .qrdv k d => some (pack [(4, 8), (4, 6), (12, 0), (1, k.toNat), (5, d.toNat), (5, 0)], [])
  | .qsta c => some (encA 8 7 0 c.toNat, [])
  | .rsw a b w => some (encF 9 0 a b (w.toNat * 2048), [])
  | .ram a b o w => some (encF 9 1 a b (ramCode o * 256 + w.toNat * 128), [])
  | .rld d a w s => some (encF 9 2 d a (w.toNat * 2048 + s.toNat * 1024), [])
  | .rfl a all => some (encF 9 3 a 0 (all.toNat * 2048), [])
  | .mgrp s => some (encF 9 4 0 0 s.toNat, [])
  | .mlr o t tp c => some (encF 9 5 0 0 (mlrOpCode o * 256 + mlrTypeCode t * 32 + tp.toNat * 16 + c.toNat * 4), [])
  | .rfq d => some (encF 9 6 d 0 0, [])
  | .rsta d c => some (encF 9 7 d 0 c.toNat, [])
  | .cadd a b r => some (encF 10 0 a b (r.toNat * 1024), [])
  | .caddRemote a b r p => some (encF 10 0 a b (2048 + r.toNat * 1024), [p])
  | .cwt a b q => some (encF 10 1 a b (q.toNat * 1024), [])
  | .crd a d => some (encF 10 2 a d 0, [])
  | .aarm a b => some (encF 10 3 a b 0, [])
  | .awt a b q => some (encF 10 4 a b (q.toNat * 1024), [])
  | .phs r q s => some (encF 10 5 0 0 (r.toNat * 512 + q.toNat * 256 + scopeCode s), [])
  | .bar x s => some (encF 10 6 0 0 (x.toNat * 4 + scopeCode s), [])
  | .fen m => some (encF 10 7 0 0 (m.toNat * 16), [])
  | .splt a => some (encF 10 8 a 0 0, [])
  | .dgsOn => some (encF 10 9 0 0 0, [])
  | .dgsOff => some (encF 10 9 0 0 1, [])
  | .dgsRd g => some (encF 10 9 g 0 2, [])
  | .dgsFold a b => some (encF 10 9 a b 3, [])
  | .upcf => some (pack [(4, 11), (4, 0), (23, 0)], [])
  | .updm m c f => some (pack [(4, 11), (4, 1), (19, 0), (1, m.toNat), (1, 0), (1, c.toNat), (1, f.toNat)], [])
  | .upmo c f => some (pack [(4, 11), (4, 2), (20, 0), (1, 0), (1, c.toNat), (1, f.toNat)], [])
  | .upst c => some (pack [(4, 11), (4, 3), (22, 0), (1, c.toNat)], [])
  | .srd g r => some (encF 12 0 g 0 (sysRegCode r), [])
  | .swr g r => some (encF 12 1 g 0 (sysRegCode r), [])
  | .tret l => some (encF 12 2 0 0 l.toNat, [])
  | .tlbi a b n l s => some (encF 12 3 a b (n.toNat * 8 + l.toNat * 4 + scopeCode s), [])
  | .shot a b z n l s => some (encF 12 4 a b (z.toNat * 16 + n.toNat * 8 + l.toNat * 4 + scopeCode s), [])
  | .csav g => some (encF 12 5 g 0 0, [])
  | .crst g => some (encF 12 6 g 0 0, [])
  | .stop a x k => some (encF 12 7 a 0 (x.toNat * 4 + stopCode k), [])
  | .slp g m => some (encF 12 8 g 0 m.toNat, [])
  | .sflt g b q => some (encF 12 9 g b (recQueueCode q), [])
  | .pendingWriteComplete .. | .strandSelect .. | .waitSatisfied .. | .takeTrap .. | .overrun .. |
  .extentPlacement .. | .pageWalkComplete .. | .releaseComplete .. | .counterAdd .. | .barrierComplete .. |
  .streamCommandStart .. | .streamCommandComplete .. | .arrival .. | .dunfRow .. | .publishSwap .. |
  .kilnCommandStart .. | .kilnCommandComplete .. | .spltDrain .. | .spltComplete .. | .wldBeat .. |
  .strmBeat .. | .strmRowsFinal .. | .drnBeat .. | .drnOutputFinal .. | .aclrBeat .. | .quiltBeat .. |
  .quiltStepCycle .. | .quiltCommandComplete .. | .fabricQueueArrival .. | .rickAgeDeparture .. |
  .ringSlotArrival .. | .cordPerform .. | .remoteLoadRequest .. | .flitCrcFailure .. | .mgrpComplete .. |
  .mlrJoin .. | .mlrJoinDeadline .. | .mlrComplete .. | .tlbiComplete .. | .shootdownArrival .. |
  .holderCountUpdate .. | .shotComplete .. | .governorEpoch .. | .patrolScrub .. | .launchTake .. |
  .admission .. | .launchStart .. | .workUnitStart .. | .workUnitComplete .. | .launchEnd .. |
  .launchResume .. | .superstepBoundary .. | .idleSuperstep .. | .idleSuperstepEnd .. | .clockChange .. |
  .powerLimit .. | .thermalEmergency | .stopFlagSet .. | .stopWindowExpiry .. | .tileSaveComplete .. |
  .clusterRegionSave .. | .clusterStopComplete .. | .hangWatchdog .. | .sequencerOverrun .. |
  .selfTestStart .. | .selfTestVerdict .. | .systemRegisterPropagate .. | .packageReset | .functionReady .. |
  .bootStage .. | .getVersion | .getCapabilities | .negotiateAlgorithms | .getDigests | .getCertificate .. |
  .challenge .. | .getMeasurements .. | .hdmRead .. | .hdmWrite .. | .counterAddPort .. | .counterReadSlot ..
  | .watchEntryWrite .. | .popPortRead .. | .staggerWrite .. | .staggerMessage .. | .mgmtRegisterWrite .. |
  .coreDieTemperature .. | .mgmtWindowRead .. => none

/-- A word of 31 body bits and a chain bit. -/
def headWord (c : Bool) (body : Nat) : Word := BitVec.ofNat 32 (c.toNat * 2 ^ 31 + body)

/-- The L words after an instruction; c is the chain bit of the last. -/
def lWords (c : Bool) : List LWord → List Word
  | [] => []
  | x :: r => headWord (c || !r.isEmpty) (13 * 2 ^ 27 + x.toNat) :: lWords c r

/-- The words of an instruction whose last word has chain bit c (R20, R28); none for an event. -/
def encode (c : Bool) (i : Instr) : Option (List Word) :=
  match encodeBody i with
  | none => none
  | some (body, ext) => some (headWord (c || !ext.isEmpty) body :: lWords c ext)

/-! ### The words of an opcode-table row -/

/-- The words laid out for a table row whose bits are w: the row's word, and, for the remote CADD, whose entry requires
exactly one L word (R28), that L word with every operand bit zero and the chain bits set accordingly (log 12). -/
def rowWords (w : Nat) : List Word :=
  let x : Word := BitVec.ofNat 32 w
  if classOf x == 10 && (fld x 22 5).toNat == 0 && flag x 11 then [x ||| 0x80000000#32, 0x68000000#32] else [x]

/-- The four bytes of a word as the segment stores them, the low byte first (R1, R21). -/
def wordBytes (w : Word) : List Byte := [fld w 0 8, fld w 8 8, fld w 16 8, fld w 24 8]

/-- The words of a code segment's bytes (R21). -/
def bytesWords : List Byte → List Word
  | a :: b :: c :: d :: r => (d ++ c ++ b ++ a) :: bytesWords r
  | _ => []

/-- The instruction that the decoder reads from a row of the opcode table whose bits are w. -/
def decodeTableWord (nbits w : Nat) : Option Instr :=
  if nbits ≤ 32 then
    match decodeOne (bytesWords ((rowWords w).flatMap wordBytes)) with
    | .ok (_, i, _) => some i
    | .error _ => none
  else none

end Sys2Proof
end

