-- ==== Sys2Proof/Machine/Deps.lean ====
section
/-! DEFINITION. Which registers a word names: those it reads, guards and masks among them, and its destinations (02_bundles
R23, R31, R32; the staging that engine words read). -/
namespace Sys2Proof.Machine

/-- The registers of a VTRP group (R185). -/
def vtrpRegs (g : BitVec 3) : List Dest := (List.range 8).map fun r => .v (BitVec.ofNat 5 (8 * g.toNat + r))

/-- The loop register that an SWR names. -/
def loopOf : SysReg → List Dest
  | .loop0se | .loop0ct => [.loop false]
  | .loop1se | .loop1ct => [.loop true]
  | _ => []

/-- Destinations (R23). -/
def destsOf : Instr → List Dest
  | .add d _ _ _ | .addImm d _ _ _ | .sub d _ _ _ | .subImm d _ _ _ | .mul d _ _ _ | .mulImm d _ _ _ | .mulh d _ _ _
  | .mulhImm d _ _ _ | .mulhn d _ _ _ | .mulhnImm d _ _ _ | .div d _ _ _ | .divImm d _ _ _ | .divn d _ _ _
  | .divnImm d _ _ _ | .rem d _ _ _ | .remImm d _ _ _ | .remn d _ _ _ | .remnImm d _ _ _ | .addw d _ _ _
  | .addwImm d _ _ _ | .subw d _ _ _ | .subwImm d _ _ _ | .mulw d _ _ _ | .mulwImm d _ _ _ | .and d _ _ _
  | .andImm d _ _ _ | .or d _ _ _ | .orImm d _ _ _ | .xor d _ _ _ | .xorImm d _ _ _ | .andn d _ _ _
  | .andnImm d _ _ _ | .shl d _ _ _ | .shlImm d _ _ _ | .shr d _ _ _ | .shrImm d _ _ _ | .shra d _ _ _
  | .shraImm d _ _ _ | .shlw d _ _ _ | .shlwImm d _ _ _ | .shrw d _ _ _ | .shrwImm d _ _ _ | .shraw d _ _ _
  | .shrawImm d _ _ _ | .min d _ _ _ | .minImm d _ _ _ | .max d _ _ _ | .maxImm d _ _ _ | .minn d _ _ _
  | .minnImm d _ _ _ | .maxn d _ _ _ | .maxnImm d _ _ _ | .clz d _ _ | .popc d _ _ | .bfx d _ _ _ | .bfxImm d _ _ _
  | .bfi d _ _ _ | .bfiImm d _ _ _ | .sel d _ _ _ | .rstg d _ _ | .geti d _ | .vget _ d _ _ _ | .rld d _ _ _
  | .rsta d _ | .crd _ d => [.g d]
  | .cmp p _ _ _ _ | .cmpImm p _ _ _ _ _ => [.p p]
  | .plog d _ _ _ _ => [.p d]
  | .stg e x _ => [.stg e x]
  | .ldb g _ _ _ _ | .ldbn g _ _ _ _ | .ldh g _ _ _ _ | .ldhn g _ _ _ _ | .ldw g _ _ _ _ | .ldwn g _ _ _ _
  | .ldd g _ _ _ _ | .srd g _ | .sflt g _ _ => [.g g]
  | .call _ => [.g 31]
  | .lset l _ _ | .lseti l _ _ | .lexit l => [.loop l]
  | .vadd _ d _ _ _ | .vsub _ d _ _ _ | .vadds _ d _ _ _ | .vsubs _ d _ _ _ | .vmul _ d _ _ _ | .vmulh _ d _ _ _
  | .vmad _ d _ _ _ | .vmin _ d _ _ _ | .vmax _ d _ _ _ | .vminn _ d _ _ _ | .vmaxn _ d _ _ _ | .vabs _ d _ _
  | .vand _ d _ _ _ | .vor _ d _ _ _ | .vxor _ d _ _ _ | .vshl _ d _ _ _ | .vshr _ d _ _ _ | .vshra _ d _ _ _
  | .vfadd _ d _ _ _ | .vfsub _ d _ _ _ | .vfmul _ d _ _ _ | .vfma _ d _ _ _ | .vfmin _ d _ _ _ | .vfmax _ d _ _ _
  | .vfabs _ d _ _ | .vfneg _ d _ _ | .vfrcp _ d _ _ | .vfrsq _ d _ _ | .vfexp2 _ d _ _ | .vflog2 _ d _ _
  | .vlmul _ d _ _ _ | .vlrcp _ d _ _ | .vsel _ d _ _ _ | .vreds _ d _ _ | .vredx _ d _ _ | .vredn _ d _ _
  | .vbc _ d _ _ | .vput _ d _ _ _ | .vprm _ d _ _ _ | .vcvt _ d _ _ _ _ | .vdqnt _ d _ _ _ | .vrnd d _ _ _
  | .viota _ d _ _ | .vext _ d _ _ _ | .vcmpr _ d _ _ _ | .qrdv _ d => [.v d]
  | .vaddw _ d _ _ _ | .vmulw _ d _ _ _ => [.v d, .v (d + 1)]
  | .vmulq _ d _ _ _ | .vmadq _ d _ _ _ => [.v d, .v (d + 1), .v (d + 2), .v (d + 3)]
  | .vcmp _ d _ _ _ => [.m d]
  | .vld _ v _ _ _ _ | .vgth _ v _ _ _ => [.v v]
  | .vtrp _ g => vtrpRegs g
  | .vqnt _ d _ s _ => [.v d, .v s]
  | .vmovm toMask v m => if toMask then [.m m] else [.v v]
  | .asta _ => [.stg .array 0]
  | .dsta _ => [.stg .stream 0]
  | .qsta _ => [.stg .quilt 0]
  | .rfq d => [.g d, .g (d + 1)]
  | .dgsRd g => [.g g, .g (g + 1)]
  | .upst _ => [.stg .kiln 0]
  | .swr _ reg => loopOf reg
  | .nop | .stb .. | .sth .. | .stw .. | .std .. | .pref .. | .disc .. | .luse .. | .br .. | .jmp .. | .jr ..
  | .dly .. | .node .. | .sels .. | .yield | .halt | .trap .. | .gangEnter | .gangExit | .vst .. | .vsct ..
  | .afmt .. | .wld .. | .aswp | .strm .. | .drn .. | .aclr .. | .agng .. | .ksa .. | .ksw .. | .kso .. | .kclr
  | .dcpy .. | .dunf .. | .dpubInit .. | .dpub .. | .dfil .. | .dgth .. | .qpat .. | .qldy .. | .qdom .. | .qstp ..
  | .qsav | .qrst | .rsw .. | .ram .. | .rfl .. | .mgrp .. | .mlr .. | .cadd .. | .caddRemote .. | .cwt .. | .aarm ..
  | .awt .. | .phs .. | .bar .. | .fen .. | .splt .. | .dgsOn | .dgsOff | .dgsFold .. | .upcf | .updm .. | .upmo ..
  | .tret .. | .tlbi .. | .shot .. | .csav .. | .crst .. | .stop .. | .slp .. | .pendingWriteComplete ..
  | .strandSelect .. | .waitSatisfied .. | .takeTrap .. | .overrun .. | .extentPlacement .. | .pageWalkComplete ..
  | .releaseComplete .. | .counterAdd .. | .barrierComplete .. | .streamCommandStart .. | .streamCommandComplete ..
  | .arrival .. | .dunfRow .. | .publishSwap .. | .kilnCommandStart .. | .kilnCommandComplete .. | .spltDrain ..
  | .spltComplete .. | .wldBeat .. | .strmBeat .. | .strmRowsFinal .. | .drnBeat .. | .drnOutputFinal ..
  | .aclrBeat .. | .quiltBeat .. | .quiltStepCycle .. | .quiltCommandComplete .. | .fabricQueueArrival ..
  | .rickAgeDeparture .. | .ringSlotArrival .. | .cordPerform .. | .remoteLoadRequest .. | .flitCrcFailure ..
  | .mgrpComplete .. | .mlrJoin .. | .mlrJoinDeadline .. | .mlrComplete .. | .tlbiComplete .. | .shootdownArrival ..
  | .holderCountUpdate .. | .shotComplete .. | .governorEpoch .. | .patrolScrub .. | .launchTake .. | .admission ..
  | .launchStart .. | .workUnitStart .. | .workUnitComplete .. | .launchEnd .. | .launchResume ..
  | .superstepBoundary .. | .idleSuperstep .. | .idleSuperstepEnd .. | .clockChange .. | .powerLimit ..
  | .thermalEmergency | .stopFlagSet .. | .stopWindowExpiry .. | .tileSaveComplete .. | .clusterRegionSave ..
  | .clusterStopComplete .. | .hangWatchdog .. | .sequencerOverrun .. | .selfTestStart .. | .selfTestVerdict ..
  | .systemRegisterPropagate .. | .packageReset | .functionReady .. | .bootStage .. | .getVersion | .getCapabilities
  | .negotiateAlgorithms | .getDigests | .getCertificate .. | .challenge .. | .getMeasurements .. | .hdmRead ..
  | .hdmWrite .. | .counterAddPort .. | .counterReadSlot .. | .watchEntryWrite .. | .popPortRead ..
  | .staggerWrite .. | .staggerMessage .. | .mgmtRegisterWrite .. | .coreDieTemperature .. | .mgmtWindowRead .. => []

/-- Every register that a strand region of Table TRP-4 holds. -/
def regionRegs : List Dest :=
  (List.range 32).flatMap (fun r => [Dest.g (BitVec.ofNat 5 r), .v (BitVec.ofNat 5 r)]) ++
  (List.range 8).flatMap (fun r => [Dest.p (BitVec.ofNat 3 r), .m (BitVec.ofNat 3 r)]) ++
  (List.range 16).map (fun i => Dest.stg .stream (BitVec.ofNat 4 i)) ++
  [Eng.quilt, .fabric, .kiln].flatMap (fun e => (List.range 8).map fun i => Dest.stg e (BitVec.ofNat 4 i)) ++
  [.loop false, .loop true]

/-- Registers read. CSAV reads, and CRST replaces, every register of the strand's region (R327). -/
def readsOf : Instr → List Dest
  | .add _ a b p | .sub _ a b p | .mul _ a b p | .mulh _ a b p | .mulhn _ a b p | .div _ a b p | .divn _ a b p
  | .rem _ a b p | .remn _ a b p | .addw _ a b p | .subw _ a b p | .mulw _ a b p | .and _ a b p | .or _ a b p
  | .xor _ a b p | .andn _ a b p | .shl _ a b p | .shr _ a b p | .shra _ a b p | .shlw _ a b p | .shrw _ a b p
  | .shraw _ a b p | .min _ a b p | .max _ a b p | .minn _ a b p | .maxn _ a b p | .bfx _ a b p | .sel _ a b p =>
    [.g a, .g b, .p p]
  | .addImm _ a _ _ | .subImm _ a _ _ | .mulImm _ a _ _ | .mulhImm _ a _ _ | .mulhnImm _ a _ _ | .divImm _ a _ _
  | .divnImm _ a _ _ | .remImm _ a _ _ | .remnImm _ a _ _ | .addwImm _ a _ _ | .subwImm _ a _ _ | .mulwImm _ a _ _
  | .andImm _ a _ _ | .orImm _ a _ _ | .xorImm _ a _ _ | .andnImm _ a _ _ | .shlImm _ a _ _ | .shrImm _ a _ _
  | .shraImm _ a _ _ | .shlwImm _ a _ _ | .shrwImm _ a _ _ | .shrawImm _ a _ _ | .minImm _ a _ _ | .maxImm _ a _ _
  | .minnImm _ a _ _ | .maxnImm _ a _ _ | .bfxImm _ a _ _ | .cmpImm _ _ _ a _ _ | .stg _ _ a | .jr a | .ksa a _ _
  | .ksw a _ _ _ | .kso a _ _ | .rld _ a _ _ | .rfl a _ | .crd a _ | .splt a | .stop a _ _ => [.g a]
  | .clz _ a p | .popc _ a p => [.g a, .p p]
  | .bfi d a b p => [.g a, .g b, .p p, .g d]
  | .bfiImm d a _ _ => [.g a, .g d]
  | .cmp _ _ _ a b | .rsw a b _ | .ram a b _ _ | .cadd a b _ | .caddRemote a b _ _ | .cwt a b _ | .aarm a b
  | .awt a b _ | .dgsFold a b | .tlbi a b _ _ _ | .shot a b _ _ _ _ => [.g a, .g b]
  | .plog _ a b _ _ => [.p a, .p b]
  | .rstg _ e x => [.stg e x]
  | .ldb _ b _ _ _ | .ldbn _ b _ _ _ | .ldh _ b _ _ _ | .ldhn _ b _ _ _ | .ldw _ b _ _ _ | .ldwn _ b _ _ _
  | .ldd _ b _ _ _ | .pref b _ _ | .disc b _ _ | .luse b _ _ | .sflt _ b _ => [.g b]
  | .stb g b _ _ _ | .sth g b _ _ _ | .stw g b _ _ _ | .std g b _ _ _ => [.g g, .g b]
  | .br p _ _ => [.p p]
  | .csav _ | .crst _ => regionRegs
  | .lset _ g _ | .sels g _ | .swr g _ | .slp g _ => [.g g]
  | .vadd _ _ a b m | .vsub _ _ a b m | .vadds _ _ a b m | .vsubs _ _ a b m | .vmul _ _ a b m | .vmulh _ _ a b m
  | .vmin _ _ a b m | .vmax _ _ a b m | .vminn _ _ a b m | .vmaxn _ _ a b m | .vand _ _ a b m | .vor _ _ a b m
  | .vxor _ _ a b m | .vshl _ _ a b m | .vshr _ _ a b m | .vshra _ _ a b m | .vaddw _ _ a b m | .vmulw _ _ a b m
  | .vmulq _ _ a b m | .vfadd _ _ a b m | .vfsub _ _ a b m | .vfmul _ _ a b m | .vfmin _ _ a b m | .vfmax _ _ a b m
  | .vlmul _ _ a b m | .vsel _ _ a b m | .vprm _ _ a b m | .vext _ _ a b m | .vcmpr _ _ a b m => [.v a, .v b, .m m]
  | .vmad _ d a b m | .vfma _ d a b m => [.v a, .v b, .v d, .m m]
  | .vabs _ _ a m | .vfabs _ _ a m | .vfneg _ _ a m | .vfrcp _ _ a m | .vfrsq _ _ a m | .vfexp2 _ _ a m
  | .vflog2 _ _ a m | .vlrcp _ _ a m | .vreds _ _ a m | .vredx _ _ a m | .vredn _ _ a m | .vcvt _ _ a _ _ m =>
    [.v a, .m m]
  | .vmadq _ d a b m => [.v a, .v b, .m m, .v d, .v (d + 1), .v (d + 2), .v (d + 3)]
  | .vcmp _ _ _ a b => [.v a, .v b]
  | .vld _ _ b s m _ => [.g b, .g s, .m m]
  | .vst _ v b s m _ => [.v v, .g b, .g s, .m m]
  | .vgth _ _ b x m => [.g b, .v x, .m m]
  | .vsct _ v b x m => [.v v, .g b, .v x, .m m]
  | .vbc _ _ a m | .viota _ _ a m => [.g a, .m m]
  | .vget _ _ a _ _ | .vqnt _ _ a _ _ => [.v a]
  | .vput _ d a _ _ => [.g a, .v d]
  | .vtrp _ g => vtrpRegs g
  | .vdqnt _ _ a s _ => [.v a, .v s]
  | .vrnd _ k b m => [.g k, .g b, .m m]
  | .vmovm toMask v m => if toMask then [.v v] else [.m m]
  | .wld _ _ => [.stg .array 1, .stg .array 2]
  | .strm _ _ => [.stg .array 3, .stg .array 5]
  | .drn _ _ _ _ => [.stg .array 4]
  | .dcpy _ _ _ _ =>
    [.stg .stream 0, .stg .stream 1, .stg .stream 2, .stg .stream 3, .stg .stream 4, .stg .stream 5, .stg .stream 6]
  | .dunf _ _ _ _ => [.stg .stream 0, .stg .stream 1, .stg .stream 2, .stg .stream 3, .stg .stream 4, .stg .stream 5]
  | .dpubInit _ _ => [.stg .stream 0, .stg .stream 1, .stg .stream 3, .stg .stream 4, .stg .stream 5]
  | .dpub _ _ => [.stg .stream 4, .stg .stream 5]
  | .dfil _ _ _ _ =>
    [.stg .stream 1, .stg .stream 2, .stg .stream 3, .stg .stream 4, .stg .stream 5, .stg .stream 6, .stg .stream 7]
  | .dgth _ _ _ _ =>
    [.stg .stream 0, .stg .stream 1, .stg .stream 2, .stg .stream 3, .stg .stream 4, .stg .stream 5, .stg .stream 6, .stg .stream 7]
  | .qpat _ _ | .qldy _ _ | .qsav | .qrst => [.stg .quilt 1]
  | .qdom _ => [.stg .quilt 3, .stg .quilt 4]
  | .mgrp _ => [.stg .fabric 0]
  | .mlr _ _ _ _ => [.stg .fabric 0, .stg .fabric 1, .stg .fabric 2, .stg .fabric 3, .stg .fabric 4, .stg .fabric 5]
  | .upcf => [.stg .kiln 0, .stg .kiln 1, .stg .kiln 2]
  | .updm _ _ _ => [.stg .kiln 0, .stg .kiln 3, .stg .kiln 4, .stg .kiln 5, .stg .kiln 6, .stg .kiln 7]
  | .upmo _ _ => [.stg .kiln 3, .stg .kiln 4, .stg .kiln 5, .stg .kiln 6, .stg .kiln 7]
  | .nop | .geti .. | .jmp .. | .call .. | .lseti .. | .lexit .. | .dly .. | .node .. | .yield | .halt | .trap ..
  | .gangEnter | .gangExit | .afmt .. | .aswp | .aclr .. | .agng .. | .asta .. | .kclr | .dsta .. | .qstp ..
  | .qrdv .. | .qsta .. | .rfq .. | .rsta .. | .phs .. | .bar .. | .fen .. | .dgsOn | .dgsOff | .dgsRd .. | .upst ..
  | .srd .. | .tret .. | .pendingWriteComplete .. | .strandSelect .. | .waitSatisfied .. | .takeTrap .. | .overrun ..
  | .extentPlacement .. | .pageWalkComplete .. | .releaseComplete .. | .counterAdd .. | .barrierComplete ..
  | .streamCommandStart .. | .streamCommandComplete .. | .arrival .. | .dunfRow .. | .publishSwap ..
  | .kilnCommandStart .. | .kilnCommandComplete .. | .spltDrain .. | .spltComplete .. | .wldBeat .. | .strmBeat ..
  | .strmRowsFinal .. | .drnBeat .. | .drnOutputFinal .. | .aclrBeat .. | .quiltBeat .. | .quiltStepCycle ..
  | .quiltCommandComplete .. | .fabricQueueArrival .. | .rickAgeDeparture .. | .ringSlotArrival .. | .cordPerform ..
  | .remoteLoadRequest .. | .flitCrcFailure .. | .mgrpComplete .. | .mlrJoin .. | .mlrJoinDeadline ..
  | .mlrComplete .. | .tlbiComplete .. | .shootdownArrival .. | .holderCountUpdate .. | .shotComplete ..
  | .governorEpoch .. | .patrolScrub .. | .launchTake .. | .admission .. | .launchStart .. | .workUnitStart ..
  | .workUnitComplete .. | .launchEnd .. | .launchResume .. | .superstepBoundary .. | .idleSuperstep ..
  | .idleSuperstepEnd .. | .clockChange .. | .powerLimit .. | .thermalEmergency | .stopFlagSet ..
  | .stopWindowExpiry .. | .tileSaveComplete .. | .clusterRegionSave .. | .clusterStopComplete .. | .hangWatchdog ..
  | .sequencerOverrun .. | .selfTestStart .. | .selfTestVerdict .. | .systemRegisterPropagate .. | .packageReset
  | .functionReady .. | .bootStage .. | .getVersion | .getCapabilities | .negotiateAlgorithms | .getDigests
  | .getCertificate .. | .challenge .. | .getMeasurements .. | .hdmRead .. | .hdmWrite .. | .counterAddPort ..
  | .counterReadSlot .. | .watchEntryWrite .. | .popPortRead .. | .staggerWrite .. | .staggerMessage ..
  | .mgmtRegisterWrite .. | .coreDieTemperature .. | .mgmtWindowRead .. => []

end Sys2Proof.Machine
end

