-- ==== Sys2Proof/Machine/Bundle.lean ====
section
/-! DEFINITION. Bundles (02_bundles R22, R23, R26, R40): where one begins, how its words decode, when it is legal. -/
namespace Sys2Proof.Machine

/-- The words of a bundle as they decode, with their classes, and how many words of the code it takes; `fuel` is the most
words it may have. -/
def decodeBundle : Nat → List Word → Except DecodeErr (List (Nat × Instr) × Nat)
  | 0, _ => .error .bundle
  | _ + 1, [] => .error .noWord
  | n + 1, w :: ws =>
    match decodeOne (w :: ws) with
    | .error e => .error e
    | .ok (chain, i, rest) =>
      let used := ws.length + 1 - rest.length
      if chain then
        match decodeBundle n rest with
        | .error e => .error e
        | .ok (l, k) => .ok ((classOf w, i) :: l, k + used)
      else .ok ([(classOf w, i)], used)

/-- Most words of a class in a bundle (R23): two S words, one of any other class. -/
def classesOk (l : List (Nat × Instr)) : Bool :=
  (List.range 13).all fun c => (l.filter fun w => w.1 == c).length ≤ (if c = 0 then 2 else 1)

/-- Destinations that count for R23: writes to g0 and p0 are exempt. -/
def counted (i : Instr) : List Dest := (destsOf i).filter fun d => d != .g 0 && d != .p 0

/-- No two words name one destination (R23). -/
def destsApart : List Instr → Bool
  | [] => true
  | i :: l => l.all (fun j => !(counted i).any (counted j).contains) && destsApart l

/-- Words first to last lie in at most two packets (R22, R23). -/
def packetsOk (first len : Nat) : Bool := (first + len - 1) / 3 ≤ first / 3 + 1

/-- The bundle that starts at a word of a code segment, if it is legal (R23). -/
def bundleAt (code : List Word) (first : Nat) : Except DecodeErr (List (Nat × Instr) × Nat) :=
  match decodeBundle 6 ((code.drop first).take 6) with
  | .error e => .error e
  | .ok (l, k) =>
    if packetsOk first k && classesOk l && destsApart (l.map (·.2)) then .ok (l, k) else .error .bundle

/-- Whether a word is the first of a bundle (R23, R26). -/
def isFirst (code : List Word) (i : Nat) : Bool := i = 0 || !(code.getD (i - 1) 0).getLsbD 31

end Sys2Proof.Machine
end

