-- ==== Sys2Proof/Machine/Image.lean ====
section
/-! DEFINITION. Rimor images (13_scheduling R290 to R293, R299): reading one through a launch's page table, its header, node
table, schedule tables and reservation, and the paths of its code. -/
namespace Sys2Proof.Machine

/-! ### Reading -/

/-- The walk of an address through the root that a launch record names (R99). -/
def State.rootWalk (s : State) (l : LaunchRec) (va : Nat) : Found :=
  if va ≥ 2 ^ 52 then .error (7, 3) else s.walkFrom l.ctx va l.peer l.frame.toNat 4

/-- Bytes of virtual memory through a launch's root; `fuel` counts 64 KiB pages. The bytes of a page of another package are
as this package finds them (log 1). -/
def State.rootRead (s : State) (l : LaunchRec) (va n : Nat) : Nat → Option (List Byte)
  | 0 => if n = 0 then some [] else none
  | fuel + 1 =>
    if n = 0 then some []
    else
      let k := min n (65536 - va % 65536)
      match s.rootWalk l va with
      | .error _ => none
      | .ok e =>
        if s.absent e.peer then none
        else
          let off := e.offset va
          let bs := if s.ownPackage e.peer then s.memRead (stnOf e.peer) off k
            else (List.range k).map fun i => Config.otherByte s.fresh e.peer (off + i)
          (s.rootRead l (va + k) (n - k) fuel).map (bs ++ ·)

/-- n bytes from an address, as an array. -/
def State.rootBytes (s : State) (l : LaunchRec) (va n : Nat) : Option (Array Byte) :=
  (s.rootRead l va n (n / 65536 + 2)).map (·.toArray)

/-! ### Tables -/

/-- The header's fields that the loader uses (Table SCH-6). -/
structure Header where
  imglen  : Nat
  textoff : Nat
  words   : Nat
  noden   : Nat
  nodeoff : Nat
  scroff  : Nat
  scrlen  : Nat
  handler : Word
  resoff  : Nat
  resn    : Nat
  deriving DecidableEq, Repr

/-- Sections in order of their offsets overlap nowhere. -/
def apart : List (Nat × Nat) → Bool
  | [] => true
  | a :: l => l.all (fun b => a.1 + a.2 ≤ b.1 || b.1 + b.2 ≤ a.1) && apart l

/-- A well-formed header (R291, R340). The header is one of the parts that may not overlap. -/
def headerOf (b : Array Byte) (image : Nat) : Option Header :=
  let f := atN b
  let h : Header := ⟨f 16 8, f 24 8, f 32 4, f 36 4, f 40 8, f 48 8, f 56 4, BitVec.ofNat 32 (f 60 4), f 88 8, f 96 4⟩
  let secs := [(0, 256), (h.textoff, 4 * h.words), (h.nodeoff, 48 * h.noden), (h.scroff, h.scrlen), (f 64 8, f 72 8),
    (h.resoff, 16 * h.resn)].filter fun x => x.2 != 0
  if f 0 4 = 0x4B494D52 ∧ f 4 4 = 1 ∧ f 8 8 = image ∧ image % 65536 = 0 ∧ h.imglen ≠ 0 ∧ h.imglen % 65536 = 0 ∧
      f 100 156 = 0 ∧ h.textoff % 4 = 0 ∧ h.words ≠ 0 ∧ 1 ≤ h.noden ∧ h.noden ≤ 65536 ∧ h.nodeoff % 16 = 0 ∧
      h.scrlen ≤ 0x1FFF00 ∧ h.resoff % 16 = 0 ∧ h.resn ≤ 4096 ∧ f 80 8 = 0 ∧
      secs.all (fun x => x.1 + x.2 ≤ h.imglen) ∧ apart secs then some h else none

/-- A node-table entry (Table SCH-7). -/
def nodeEntryAt (b : Array Byte) (o : Nat) : Option NodeEntry :=
  let n := atN b (o + 8) 4
  if n ≤ 8 ∧ atN b o 4 < 2 ^ 22 ∧ (List.range 8).all (fun i => i < n || atN b (o + 16 + 4 * i) 4 == 0) then
    some ⟨atN b o 4, atN b (o + 4) 4, atN b (o + 12) 4, (List.range n).map fun i => atN b (o + 16 + 4 * i) 4⟩
  else none

/-- Entries stand in increasing order and name different nodes (R292). -/
def nodesRise : List NodeEntry → Bool
  | [] => true
  | a :: l => l.all (fun b => a.entry < b.entry && a.node != b.node) && nodesRise l

/-- Extents of nodes: the first word, and the length of each (R292). -/
def extents (words : Nat) : List NodeEntry → List (Nat × Nat)
  | [] => []
  | [a] => [(a.entry, words - a.entry)]
  | a :: b :: l => (a.entry, b.entry - a.entry) :: extents words (b :: l)

/-- The extents of an image, the first from word 0 (R292). -/
def Image.extents (g : Image) : List (Nat × Nat) :=
  match Machine.extents g.code.length g.nodes with
  | [] => []
  | e :: l => (0, e.1 + e.2) :: l

/-- The extent that holds a word. -/
def Image.extentOf (g : Image) (w : Nat) : Option (Nat × Nat) := g.extents.find? fun e => e.1 ≤ w && w < e.1 + e.2

/-- Whether an image is large (R292). -/
def Image.large (g : Image) : Bool := g.code.length > 32768

/-- The extent that holds the handler. -/
def Image.handlerExtent (g : Image) : Option (Nat × Nat) :=
  if g.handler = 0xFFFFFFFF then none else g.extentOf g.handler.toNat

/-- The size rules of a large image (R292). -/
def Image.sizesOk (g : Image) : Bool :=
  !g.large ||
    let l := sortBy (fun a b => b.2 ≤ a.2) g.extents
    let four := l.take 4
    let extra := match g.handlerExtent with | none => 0 | some e => if four.contains e then 0 else e.2
    l.all (fun e => e.2 ≤ 32768) && (four.map (·.2)).sum + extra ≤ 32768

/-- A well-formed schedule table (R299, Table SCH-5). -/
def Image.tableOk (g : Image) (t : Nat) : Bool :=
  let n := (g.word t).toNat
  t % 3 == 0 && 1 ≤ n && n ≤ 8 && t + 5 * n < g.code.length &&
    (List.range n).all fun e =>
      let x := g.schedEntry t e
      let tiles := (g.word (t + 5 * e + 3)).toNat
      x.1.toNat < g.code.length && isFirst g.code x.1.toNat && 1 ≤ x.2.1 && 1 ≤ tiles && tiles ≤ 2048 &&
        (e == 0 || (g.schedEntry t (e - 1)).2.2 < x.2.2)

/-- The most tiles that a schedule of a table uses. -/
def Image.tableTiles (g : Image) (t : Nat) : Nat :=
  ((List.range (g.schedCount t)).map fun e => (g.word (t + 5 * e + 3)).toNat % 4096).foldl max 0

/-! ### Paths (R290) -/

/-- A bundle on a path: what follows it, whether it is a stop point, the END words of the loops it sets with their STARTs,
and the schedule tables it names. -/
structure Flow where
  succ   : List Nat
  stops  : Bool
  loops  : List (Nat × Nat)
  tables : List Nat
  deriving DecidableEq, Repr

/-- A displacement from the first word of a bundle (R21); one that leaves the code names no word. -/
def dispTo {n : Nat} (first len : Nat) (d : BitVec n) : Nat := let x := (first : Int) + d.toInt; if x < 0 then len else x.toNat

/-- Length of the bundle at a word, by its chain bits. -/
def chainLen (code : List Word) (w : Nat) : Nat := (((code.drop w).take 6).takeWhile fun x => x.getLsbD 31).length + 1

/-- What one word adds to a path. -/
def stepWord (g : Image) (first len : Nat) (i : Instr) : Flow :=
  let n := g.code.length
  match i with
  | .br _ _ d => ⟨[dispTo first n d, first + len], false, [], []⟩
  | .jmp d => ⟨[dispTo first n d], false, [], []⟩
  | .call d => ⟨[dispTo first n d], false, [], []⟩
  | .jr _ => ⟨[], true, [], []⟩
  | .node _ => ⟨[first + len], true, [], []⟩
  | .halt => ⟨[], true, [], []⟩
  | .tret _ => ⟨[], false, [], []⟩
  | .lset _ _ e => ⟨[first + len, first + e.toNat + chainLen g.code (first + e.toNat)], false, [(first + e.toNat, first + len)], []⟩
  | .lseti _ _ e => ⟨[first + len, first + e.toNat + chainLen g.code (first + e.toNat)], false, [(first + e.toNat, first + len)], []⟩
  | .sels _ t =>
    let a := dispTo first n t
    ⟨(List.range (g.schedCount a)).map fun e => (g.schedEntry a e).1.toNat, false, [], [a]⟩
  | _ => ⟨[first + len], false, [], []⟩

/-- Whether a word decides what follows its bundle. -/
def leads : Instr → Bool
  | .br .. | .jmp _ | .call _ | .jr _ | .halt | .tret _ | .lset .. | .lseti .. | .sels .. => true
  | _ => false

/-- What the bundle at a word adds to a path; one that is no bundle traps, and its path ends. -/
def Image.step (g : Image) (w : Nat) : Flow :=
  match bundleAt g.code w with
  | .error _ => ⟨[], false, [], []⟩
  | .ok (l, len) =>
    let is := l.map (·.2)
    let xs := (is.filter leads).map (stepWord g w len)
    ⟨(if xs.isEmpty then [w + len] else xs.flatMap (·.succ)), is.any (fun i => (stepWord g w len i).stops), xs.flatMap (·.loops),
      xs.flatMap (·.tables)⟩

/-- Words after a CALL, where its JR returns. -/
def Image.returns (g : Image) (w : Nat) : List Nat :=
  match bundleAt g.code w with
  | .error _ => []
  | .ok (l, len) => if l.any fun x => match x.2 with | .call _ => true | _ => false then [w + len] else []

/-- The bundles that paths from the given words reach, each with its step; `fuel` bounds the words looked at. -/
def Image.explore (g : Image) : Nat → List Nat → Array (Option Flow) → Array (Option Flow)
  | 0, _, a => a
  | _, [], a => a
  | n + 1, w :: todo, a =>
    match a[w]? with
    | some none =>
      let x := g.step w
      g.explore n (x.succ ++ x.loops.map (·.1) ++ g.returns w ++ todo) (a.set! w (some x))
    | _ => g.explore n todo a

/-- Where paths start: nodes, the handler, and the entry of the launch. -/
def Image.roots (g : Image) (entry : Nat) : List Nat :=
  entry :: g.nodes.map (·.entry) ++ (if g.handler = 0xFFFFFFFF then [] else [g.handler.toNat])

/-- The loops that bundles on paths set: END and START. -/
def loopsOf (p : Array (Option Flow)) : List (Nat × Nat) := p.toList.flatMap fun x => match x with | none => [] | some y => y.loops

/-- The schedule tables that an image names (R290): those of its nodes and of SELS on its paths. -/
def Image.tablesOf (g : Image) (p : Array (Option Flow)) : List Nat :=
  g.nodes.map (·.sched) ++ p.toList.flatMap fun x => match x with | none => [] | some y => y.tables

/-- Bundles that no path has reached, from word w on: code that only a JR enters. `ts` are the tables known so far. -/
def Image.sweep (g : Image) (ts : List Nat) (p : Array (Option Flow)) : Nat → Nat → List Nat
  | 0, _ => []
  | n + 1, w =>
    if g.code.length ≤ w then []
    else if ts.any fun t => t ≤ w && w ≤ t + 5 * g.schedCount t then g.sweep ts p n (w + 1)
    else match bundleAt g.code w with
      | .error _ => g.sweep ts p n (w + 1)
      | .ok (_, len) => if (p.getD w none).isSome then g.sweep ts p n (w + len) else w :: g.sweep ts p n (w + len)

/-- Every bundle of an image (R290): those that static paths reach, then those that stand outside the schedule tables and that
only a JR enters (log 41). -/
def Image.paths (g : Image) (entry : Nat) : Array (Option Flow) :=
  let n := g.code.length
  let fuel := 40 * (n + 1) + g.nodes.length + 2
  let p := g.explore fuel (g.roots entry) (Array.replicate n none)
  let ts := g.tablesOf p
  let named := (g.sweep ts p (n + 1) 0).flatMap fun w => (g.step w).tables
  g.explore fuel (g.sweep (ts ++ named.filter g.tableOk) p (n + 1) 0) p

/-- One round of the lengths of the paths without a stop point from each bundle: `l` lists the bundles that are none, last
first, with what follows them. -/
def lengthRound (l : List (Nat × List Nat)) (a : Array Nat) : Array Nat :=
  l.foldl (fun a x => a.set! x.1 (1 + (x.2.map fun w => a.getD w 0).foldl max 0)) a

/-- Whether no path is longer than the limit: rounds until nothing changes or a path is too long. -/
def lengthsOk (l : List (Nat × List Nat)) (limit : Nat) : Nat → Array Nat → Bool
  | 0, _ => false
  | n + 1, a =>
    let b := lengthRound l a
    if b.any (· > limit) then false else if b = a then true else lengthsOk l limit n b

/-- No path of more than `limit` bundles passes no stop point (R290). -/
def pathsOk (p : Array (Option Flow)) (limit : Nat) : Bool :=
  let loops := loopsOf p
  let l := (p.toList.zipIdx).filterMap fun x => match x.1 with
    | none => none
    | some y => if y.stops || loops.any (·.1 == x.2) then none else some (x.2, y.succ)
  lengthsOk l.reverse limit (limit + 2) (Array.replicate p.size 0)

/-! ### The image -/

/-- A node's entry is the first word of a bundle with its NODE, and its table stands (R290). -/
def Image.entryOk (g : Image) (e : NodeEntry) : Bool :=
  e.entry < g.code.length && isFirst g.code e.entry && g.tableOk e.sched &&
    e.preds.all (fun p => g.nodes.any (·.node == p)) &&
    match bundleAt g.code e.entry with
    | .error _ => false
    | .ok (l, _) => l.any fun x => match x.2 with | .node n => n.toNat == e.node | _ => false

/-- A well-formed image (R290 to R293). -/
def Image.ok (g : Image) (entry limit : Nat) : Bool :=
  let p := g.paths entry
  nodesRise g.nodes && g.nodes.all g.entryOk && g.sizesOk &&
    (g.handler == 0xFFFFFFFF || (g.handler.toNat < g.code.length && isFirst g.code g.handler.toNat)) &&
    (g.tablesOf p).all g.tableOk && pathsOk p limit

/-- All values of a list of options. -/
def allSome {α : Type} : List (Option α) → Option (List α)
  | [] => some []
  | none :: _ => none
  | some x :: l => (allSome l).map (x :: ·)

/-- A reservation-table entry (Table SCH-8). -/
def rangeAt (b : Array Byte) (o : Nat) : Option (Nat × Nat) :=
  let v := atN b o 8
  let n := atN b (o + 8) 8
  if v % 65536 = 0 ∧ n % 65536 = 0 ∧ n ≠ 0 then some (v, n) else none

/-- The image of a launch, if it is readable and well formed (R289, R291 to R293). -/
def State.readImage (s : State) (l : LaunchRec) : Option Image :=
  let va := l.image.toNat
  (s.rootBytes l va 256).bind fun hb =>
  (headerOf hb va).bind fun h =>
  (s.rootBytes l (va + h.textoff) (4 * h.words)).bind fun tb =>
  (s.rootBytes l (va + h.nodeoff) (48 * h.noden)).bind fun nb =>
  (s.rootBytes l (va + h.resoff) (16 * h.resn)).bind fun rb =>
  (s.rootRead l (va + h.scroff) h.scrlen (h.scrlen / 65536 + 2)).bind fun scratch =>
  (allSome ((List.range h.noden).map fun i => nodeEntryAt nb (48 * i))).bind fun nodes =>
  (allSome ((List.range h.resn).map fun i => rangeAt rb (16 * i))).bind fun ranges =>
  let g : Image := ⟨(List.range h.words).map (fun i => BitVec.ofNat 32 (atN tb (4 * i) 4)), nodes, h.handler, scratch,
    (va, h.imglen) :: ranges⟩
  if g.ok l.entry.toNat s.bundlelimit then some g else none

/-! ### The reservation (R293) -/

/-- The leaves that map a range, added to those found; none when a walk faults or more than 3,072 are needed. -/
def State.pinRange (s : State) (l : LaunchRec) (va hi : Nat) (acc : List TlbEntry) : Nat → Option (List TlbEntry)
  | 0 => none
  | fuel + 1 =>
    if hi ≤ va then some acc
    else match s.rootWalk l va with
      | .error _ => none
      | .ok e =>
        let acc := if acc.any fun x => x.page == e.page && x.pages == e.pages then acc else { e with pinned := true } :: acc
        if acc.length > 3072 then none else s.pinRange l ((e.page + e.pages) * 65536) hi acc fuel

/-- The loader has read an image (R79): what the stacks' code found on the way. -/
def State.noteImage (s : State) (l : LaunchRec) (g : Image) : State :=
  match g.ranges with
  | [] => s
  | r :: _ => s.each ((s.pinRange l r.1 (r.1 + r.2) [] 3074).getD []) fun s e =>
    let lo := max r.1 (e.page * 65536)
    let hi := min (r.1 + r.2) ((e.page + e.pages) * 65536)
    if s.ownPackage e.peer then s.noteRead (stnOf e.peer) (e.offset lo) (hi - lo) else s

/-- The pinned translations of a launch (R105, R293). -/
def State.pins (s : State) (l : LaunchRec) (ranges : List (Nat × Nat)) : Option (List TlbEntry) :=
  ranges.foldl (fun a r => a.bind fun acc => s.pinRange l r.1 (r.1 + r.2) acc 3074) (some [])

end Sys2Proof.Machine
end

