-- ==== Sys2Proof/Machine/Shoot.lean ====
section
/-! DEFINITION. TLBI and SHOT (05_translation R106 to R111), their completions, shoot-downs on a die, and the counts of
copies at the homes of frames (R101). -/
namespace Sys2Proof.Machine

/-- Pages of 64 KiB that a command covers: the first and their number; none for all of a context (R106). -/
def cmdPages (c : TransCmd) : Option (Nat × Nat) :=
  if c.all then none else some (c.va.toNat / 65536, if c.shot then 2 ^ c.size else 1)

/-- Whether a command covers some of the pages from `page` on (R107, R108). -/
def cmdHits (c : TransCmd) (ctx : BitVec 12) (page pages : Nat) : Bool :=
  ctx == c.ctx && match cmdPages c with
    | none => true
    | some r => page < r.1 + r.2 && r.1 < page + pages

/-- The checks of TLBI and SHOT (R106): privilege, the address, room in the tile's translation queue. -/
def transCheck (a : Reg) (size : Option Nat) (all : Bool) (s : State) : Check :=
  let va := s.me.readG a
  let aligned := match size with | none => true | some n => va.toNat % 2 ^ (16 + n) == 0
  (privileged s).and fun _ =>
    (need (all || (va.toNat < 2 ^ 52 && aligned)) (.trap .invalidateRange (some va) (some (7 + 16 * 3)))).and fun _ =>
      need (s.myTile.tq < 4) (.block .transQueue)

/-- A command of the translation queue: its record, and the state with it outstanding. -/
def State.transCommand (s : State) (a b : Reg) (shot : Bool) (size : Nat) (cnt all : Bool) (scope : Scope) : TransCmd × State :=
  let va := s.me.readG a
  let w := s.me.readG b
  let ctx := w.extractLsb' 0 12
  let gate := s.me.relNext
  let (o, s) := s.command 8 false
  let xgen := if shot then s.xgenOf s.myDie ctx + 1 else 0
  (⟨s.shotNext, shot, scope, va, size, all, ctx, cnt, w.extractLsb' 16 24, xgen, gate, o, false⟩,
    { s with shotNext := s.shotNext + 1 }.onMyTile fun x => { x with tq := x.tq + 1 })

/-- The bound of TLBI (R107). -/
def tlbiBound : Scope → Nat | .cluster => 64 | .die => 512 | .package | .system => 2048

/-- TLBI (R107). -/
def execTlbi (a b : Reg) (cnt all : Bool) (scope : Scope) : State → Result :=
  guarded (transCheck a none all) fun s =>
    let (c, s) := s.transCommand a b false 0 cnt all scope
    s.soon (tlbiBound scope) slotTrans (.tlbiComplete c)

/-- The largest age limit that is set on a die of the package (R109); with no launch on any, that of a set at reset. -/
def State.largestAge (s : State) : Nat :=
  ((s.dies.flatMap fun d => d.2.sets.map (·.2.age)).max?).getD CtxSet.reset.age

/-- The bound of SHOT (R109): the largest age limit of a die in scope, and, over the torus, twice the way to the farthest
package. -/
def State.shotBound (s : State) (scope : Scope) : Nat :=
  let far := if scope = .system then 2 * (256 + 256 * (s.extent.1 / 2 + s.extent.2.1 / 2 + s.extent.2.2 / 2)) else 0
  s.largestAge + far + 4096

/-- The compute dies of a package. -/
def dieIds : List Nat := List.range 8

/-- SHOT (R108): the generation of its context rises on the issuing die, and the shoot-down leaves for every die in scope. -/
def execShot (a b : Reg) (size : BitVec 5) (cnt all : Bool) (scope : Scope) : State → Result :=
  guarded (transCheck a (some size.toNat) all) fun s =>
    let d := s.myDie
    let (c, s) := s.transCommand a b true size.toNat cnt all scope
    let s := s.onDie d fun x => { x with xgen := SMap.put x.xgen c.ctx.toNat c.xgen }
    let s := s.each dieIds fun s e => s.soon (s.transit d (s.peerOf e)) slotRing (.shootdownArrival e c)
    let s := if scope = .system then s.emit (.shoot c) else s
    s.soon (s.shotBound scope) slotTrans (.shotComplete c)

/-- The pages that a walk is for: those of the leaf that it found, or those below the entry at which it faulted. -/
def Walk.span (w : Walk) : Nat × Nat :=
  match w.res with
  | some e => (e.page, e.pages)
  | none => let n := [1, 32, 16384, 8388608].getD w.flt.2 1; (w.page / n * n, n)

/-- A walk begins again in its own context, and reads the tables anew (R107). -/
def State.rewalk (s : State) (c : Nat) (w : Walk) : State :=
  let v := s.walkOf c w.page
  let b := s.missBound c w.page
  ((s.readTables c w.page).onCluster c fun x => { x with walks := x.walks.map fun y =>
    if y == w then { v with ctx := w.ctx, res := v.res.map fun e => { e with ctx := w.ctx } } else y }).soon b 2 (.pageWalkComplete c w.page)

/-- A cluster and its tiles drop the translations that a command covers, and walkers the pointers; a walk among them starts again
(R107, R108). -/
def State.dropEntries (s : State) (c : Nat) (cmd : TransCmd) : State :=
  let keep (e : TlbEntry) : Bool := !cmdHits cmd e.ctx e.page e.pages
  let again := (s.cluster c).walks.filter fun w => cmdHits cmd w.ctx w.span.1 w.span.2
  let s := s.onCluster c fun x => { x with
    tlb := x.tlb.filter keep, walkers := x.walkers.map fun p => p.filter fun p => !cmdHits cmd p.ctx (32 * p.region) 32 }
  let s := s.each ((tilesOf c).filter fun t => !(s.tile t).tlb.all keep) fun s t => s.onTile t fun x => { x with tlb := x.tlb.filter keep }
  let s := s.unsched fun e => match e with
    | .pageWalkComplete c' p => c' == c && again.any (·.page == p)
    | _ => false
  s.each again fun s w => s.rewalk c w

/-- The clusters within a command's scope in this package. -/
def cmdClusters (c : TransCmd) : List Nat :=
  match c.scope with
  | .cluster => [clusterOf c.org.tile]
  | .die => (List.range 32).map (32 * dieOf c.org.tile + ·)
  | .package | .system => List.range 256

/-- A TLBI or SHOT completes: its place in the queue is free, and its counter is added to, behind the releases that its strand
issued before (R107, R108); their entries state no report of a refused add (R270). -/
def State.transDone (s : State) (c : TransCmd) : State :=
  let t := c.org.tile
  let s := s.onTile t fun x => { x with tq := x.tq - 1 }
  let s := s.wakeWhere t (· == .transQueue)
  let s := if c.cnt then (s.ctrAdd (dieOf t) c.ctr.toNat 1).getD s else s
  s.finish c.org 8 c.org.seq

/-- Whether the completion add of a command must wait for an earlier release. -/
def State.transGated (s : State) (c : TransCmd) : Bool := c.cnt && (s.strand c.org.tile c.org.strand).gated c.gate

/-- TLBI_COMPLETE (R107): the entries go; the completion add waits for the releases before it. -/
def execTlbiComplete (c : TransCmd) (s : State) : Result :=
  let s := if c.dropped then s else s.each (cmdClusters c) fun s k => s.dropEntries k c
  .next (if s.transGated c then s.sched (s.cc + 1) slotTrans (.tlbiComplete { c with dropped := true }) else s.transDone c)

/-- Whether a shoot-down covers an owned word of a strand in a cluster. -/
def cmdHitsWord (c : TransCmd) (ctx : BitVec 12) (w : Owned) : Bool := !w.store && cmdHits c ctx (4 * w.word / 65536) 1

/-- An owned word whose translation is revoked (R109): it is translated anew and stays owned, if the new entry is a MODE 00 page
that may be written; one that may be written through the fabric is performed at its old home; else it has faulted, which is a
late-core trap of the strand (log 38). -/
def State.reaim (s : State) (t k : Nat) (w : Owned) : State :=
  let c := clusterOf t
  let va := 4 * w.word
  let x := s.strand t k
  let o : Origin := ⟨t, k, x.bundleSeq, x.pc, (x.node.map (·.index)).getD 0, (x.node.map (·.entry)).getD 0⟩
  let without (s : State) : State := s.onStrand t k fun x => { x with owned := x.owned.erase w }
  let faults (cause level : Nat) : State :=
    (without s).addFault t k s.cc (infoOf o .translate 0 (BitVec.ofNat 32 (cause + 16 * level)) (BitVec.ofNat 64 va))
  match s.engXlate c va with
  | .error f => faults f.1 f.2
  | .ok e =>
    if e.ro then faults 2 e.level
    else if e.mode = 0 then s.onStrand t k fun x => { x with owned := x.owned.map fun y =>
      if y == w then { w with die := stnOf e.peer, off := e.offset va } else y }
    else without (s.publish c [w])

/-- The owned words of a die's strands that a shoot-down covers. -/
def State.revokeWords (s : State) (d : Nat) (c : TransCmd) : State :=
  let hit (t : Nat) (w : Owned) : Bool := cmdHitsWord c (s.cluster (clusterOf t)).ptCtx w
  s.each (s.strandsWith fun t _ x => dieOf t == d && x.owned.any (hit t)) fun s p =>
    s.each ((s.strand p.1 p.2).owned.filter (hit p.1)) fun s w => s.reaim p.1 p.2 w

/-- A shoot-down arrives at a die (R108): the generation, the TLB entries and walks, the read-only copies with their
holder counts, the owned words, and the ricks that hold older entries of the context. -/
def State.shootHere (s : State) (d : Nat) (c : TransCmd) : State :=
  let s := s.onDie d fun x => { x with xgen := SMap.put x.xgen c.ctx.toNat c.xgen }
  let s := s.each ((List.range 32).map (32 * d + ·)) fun s k => s.dropEntries k c
  let s := (s.dropCopies d fun y => cmdHits c y.ctx y.page 1).revokeWords d c
  s.departWhere d fun r => r.entries.any fun p => p.ctx == c.ctx && p.xgen != c.xgen

/-- SHOOTDOWN_ARRIVAL (R108). -/
def execShootdownArrival (d : Nat) (c : TransCmd) (s : State) : Result := .next (s.shootHere d c)

/-- A home counts a holder of a frame, or forgets one (R101). -/
def State.countHolder (s : State) (home frame reader : Nat) (add : Bool) : State :=
  let old := SMap.get [] (s.die home).holders frame
  let l := if add then (if old.contains reader then old else reader :: old) else old.filter (· != reader)
  s.onDie home fun x => { x with holders := if l.isEmpty then SMap.del x.holders frame else SMap.put x.holders frame l }

/-- HOLDER_COUNT_UPDATE (R101). -/
def execHolderCountUpdate (home frame reader : Nat) (add : Bool) (s : State) : Result :=
  .next (s.countHolder home frame reader add)

/-- Take every step of a kind from the agenda and perform it. -/
def State.sweep (s : State) (f : Event → Option (State → State)) : State :=
  let l := s.agenda.filterMap fun e => f e.2
  (s.unsched fun e => (f e).isSome).each l fun s g => g s

/-- Everything that a SHOT waits for comes about (R108, R109): its shoot-downs arrive, what was translated before is
performed, and the holder counts reach their homes. -/
def State.shotDrain (s : State) (c : TransCmd) : State :=
  let s := s.sweep fun e => match e with
    | .shootdownArrival d x => if x == c then some fun s => s.shootHere d x else none
    | _ => none
  let s := s.sweep fun e => match e with
    | .rickAgeDeparture d r => if (s.die d).ricks.any (fun q => q.id == r && q.entries.any fun p => p.ctx == c.ctx && p.xgen != c.xgen)
        then some fun s => s.depart d r else none
    | _ => none
  let s := s.each (s.strandsWith fun t _ x => x.rels.any fun r => !r.written && r.words.any (cmdHitsWord c (s.cluster (clusterOf t)).ptCtx))
    fun s p => s.ownFirst p.1 p.2
  let s := s.landPackets (fun _ => true) fun _ => false
  let s := s.sweep fun e => match e with
    | .remoteLoadRequest r => some fun s => s.loadHere r false
    | _ => none
  s.sweep fun e => match e with
    | .holderCountUpdate h f r a => some fun s => s.countHolder h f r a
    | _ => none

/-- SHOT_COMPLETE (R108, R109). -/
def execShotComplete (c : TransCmd) (s : State) : Result :=
  .next (if s.transGated c then s.sched (s.cc + 1) slotTrans (.shotComplete c) else (s.shotDrain c).transDone c)

end Sys2Proof.Machine
end

