-- ==== Sys2Proof/Machine/Loader.lean ====
section
/-! DEFINITION. The loader (13_scheduling R283 to R296, R304, R305; 14_traps R314 to R316, R319 to R321): taking launches,
admission, starts, work units, pre-emption and resumes, ends. -/
namespace Sys2Proof.Machine

/-! ### Records -/

/-- A field of a record as a natural. -/
def fieldAt (x lo n : Nat) : Nat := x / 2 ^ lo % 2 ^ n

/-- The fields of a launch record (Table SCH-2). -/
def launchRecOf (x : Nat) : LaunchRec where
  args := Vector.ofFn fun i => BitVec.ofNat 64 (fieldAt x (512 + 64 * i) 64)
  fabshare := fieldAt x 480 16
  commcc := fieldAt x 448 32
  ctrn := fieldAt x 408 24
  ctrlo := fieldAt x 384 24
  rfen := fieldAt x 361 1 == 1
  rfcid := fieldAt x 337 24
  age := fieldAt x 320 17
  estn := fieldAt x 312 4
  ecid := fieldAt x 288 24
  cstn := fieldAt x 280 4
  ccid := fieldAt x 256 24
  rm := BitVec.ofNat 2 (fieldAt x 244 2)
  l8f := BitVec.ofNat 2 (fieldAt x 242 2)
  l4f := BitVec.ofNat 2 (fieldAt x 240 2)
  strap := fieldAt x 239 1 == 1
  fuse := fieldAt x 238 1 == 1
  strands := BitVec.ofNat 4 (fieldAt x 234 4)
  clcount := fieldAt x 225 9
  clbase := fieldAt x 216 9
  wucount := fieldAt x 192 17
  launchid := BitVec.ofNat 32 (fieldAt x 160 32)
  entry := BitVec.ofNat 32 (fieldAt x 128 32)
  peer := BitVec.ofNat 16 (fieldAt x 112 16)
  frame := BitVec.ofNat 20 (fieldAt x 92 20)
  ctx := BitVec.ofNat 12 (fieldAt x 80 12)
  image := BitVec.ofNat 64 (fieldAt x 0 52)

/-- The dies that hold a reserved cluster. -/
def LaunchRec.dies (r : LaunchRec) : List Nat :=
  (List.range 8).filter fun d => r.clbase < 32 * (d + 1) && 32 * d < r.clbase + r.clcount

/-- The conditions on a record (R286). -/
def State.recordOk (s : State) (r : LaunchRec) : Bool :=
  let inside (id die : Nat) : Bool := r.ctrlo ≤ id && id < r.ctrlo + r.ctrn && r.dies.contains die
  r.wucount ≤ 65536 && r.clcount != 0 && r.clbase + r.clcount ≤ 256 && r.strands != 0 && r.l4f != 3 && r.l8f != 3 &&
    (r.age == 0 || (256 ≤ r.age && r.age ≤ 65536)) && stnOf r.peer < 8 && s.ownPackage r.peer &&
    (r.ctrn == 0 || r.dies.all fun d => s.ctrOk d (r.ctrlo + r.ctrn - 1)) && !inside r.ccid r.cstn && !inside r.ecid r.estn

/-- A launch that has just been taken, with what its digest slot asks (Table TRP-6). -/
def Launch.taken (k : Nat) (r : LaunchRec) (slot : Nat) : Launch where
  k := k
  desc := r
  img := .empty
  phase := .taken
  unit := 0
  supers := 0
  idle := 0
  idleRun := 0
  heldTo := none
  digest := 0
  first := 0
  runs := 0
  det := fieldAt slot 384 1 == 1
  reexec := fieldAt slot 385 1 == 1
  recorded := BitVec.ofNat 128 slot
  broken := false
  unbound := false
  preempted := false
  endCode := none
  edge := none
  keptT := []
  keptC := []
  fresh := 0

/-! ### Queues (R283, R284, R288) -/

/-- Queue a comes before queue b (R283, R288). -/
def ahead (a b : Nat) : Bool := b / 4 < a / 4 || (a / 4 == b / 4 && a < b)

/-- What the loader looks at again when a launch ends, stops or frees its share (R289, R305): a re-execution that waits,
stopped launches, then queue heads. -/
def State.retry (s : State) : State :=
  let order := sortBy (fun a b => ahead a.1 b.1) s.launches
  let s := s.each (order.filter fun l => l.2.phase == .admitted && l.2.runs == 1) fun s l => s.sched s.cc 13 (.launchStart l.1)
  let s := s.each (order.filter fun l => l.2.phase == .stopped) fun s l => s.sched s.cc 13 (.launchResume l.1)
  s.each (order.filter fun l => l.2.phase == .taken) fun s l => s.sched s.cc 13 (.admission l.1)

/-- The loader adds 1 to a counter, behind the adds of this cc that the order of R270 names; an add that is refused is dropped
(R286). -/
def State.loaderAdd (s : State) (d id : Nat) : State :=
  if d < 8 then s.sched (s.cc + if s.late then 1 else 0) slotLoader (.counterAdd d id 1 .silent) else s

/-- The final code of a launch, then its adds: the error counter first, for any code but OK (R287, R296). -/
def State.report (s : State) (q : Nat) (l : Launch) (code : Nat) : State :=
  let s := s.lstat q l.k l.idle code
  let s := if code = 2 then s else s.loaderAdd l.desc.estn l.desc.ecid
  s.loaderAdd l.desc.cstn l.desc.ccid

/-- A step that the loader still holds for a queue's launch. -/
def ofQueue (q : Nat) : Event → Bool
  | .superstepBoundary p | .idleSuperstepEnd p | .idleSuperstep p _ | .workUnitStart p | .launchStart p | .admission p
  | .launchResume p => p == q
  | _ => false

/-- Tests of units that no launch uses any longer begin (R318). -/
def State.testFree (s : State) : State :=
  let now := s.tests.filter fun u => !s.launches.any fun l => (l.2.phase == .running || l.2.phase == .between) && l.2.uses u
  let s' : State := { s with tests := s.tests.filter fun u => !now.contains u }
  s'.each now fun s u => s.sched s.cc 14 (.selfTestStart u)

/-- A launch leaves: its steps and context sets are gone (R243), its queue goes on (R288). -/
def State.closeLaunch (s : State) (q : Nat) (l : Launch) (code : Nat) : State :=
  let s := (s.unsched (ofQueue q)).report q l code
  let s : State := { s with launches := SMap.del s.launches q }
  let s := s.each l.desc.dies fun s d => s.onDie d fun x => { x with sets := SMap.del x.sets q }
  ((s.testFree.sched s.cc 13 (.launchTake q)).retry).pokeClock

/-- LAUNCH_TAKE (R284, R286): the next launch of a queue that has none, once the submission counter is above its number. -/
def execLaunchTake (q : Nat) (s : State) : Result :=
  let c := s.queueCfg q
  let k := SMap.get 0 s.qtaken q
  let d := c.stn.toNat
  .next (if !s.ready.getLsbD 3 || !c.en || (s.launch q).isSome || !s.ctrOk d c.scid.toNat ||
      (s.ctrGet d c.scid.toNat).toNat ≤ k then s
  else
    let base := c.frame.toNat * 65536
    let at_ := base + 128 * (k % 256)
    let slot := base + 34816 + 64 * (k % 256)
    let r := launchRecOf (leNat (s.memRead d at_ 128))
    let l := Launch.taken k r (leNat (s.memRead d slot 64))
    let s := (s.noteRead d at_ 128).noteRead d slot 64
    let s : State := { s with qtaken := SMap.put s.qtaken q (k + 1) }
    if !s.recordOk r then (s.report q l 3).sched s.cc 13 (.launchTake q)
    else if r.wucount = 0 then (s.report q l 2).sched s.cc 13 (.launchTake q)
    else
      let s' : State := { s with launches := SMap.put s.launches q l }
      (s'.lstat q k 0 0).sched s.cc 13 (.admission q))

/-! ### Admission (R288, R289) -/

/-- Whether a queue that comes first still has a step of its own in this cc (R288). -/
def State.aheadPending (s : State) (q : Nat) : Bool :=
  s.agenda.any fun e => e.1 ≤ keyOf s.cc 13 && match e.2 with
    | .admission p | .launchTake p => ahead p q
    | _ => false

/-- Tiles of a launch that serve (R319). -/
def State.liveTiles (s : State) (l : Launch) : List Nat := l.tiles.filter fun t => !(s.tile t).retired

/-- A cluster that holds a retired tile (R319). -/
def State.degraded (s : State) (c : Nat) : Bool := (tilesOf c).any fun t => (s.tile t).retired

/-- The resources of a head, as far as they reject it (R289). -/
def State.resourcesOk (s : State) (l : Launch) : Bool :=
  (l.img.tablesOf (l.img.paths l.desc.entry.toNat)).all (fun t => l.img.tableTiles t ≤ (s.liveTiles l).length) &&
    (s.pins l.desc l.img.ranges).isSome && l.desc.dies.all (fun d => (s.die d).poolEn) &&
    !(l.det && l.clusters.any s.degraded)

/-- Launches that hold clusters of a launch. -/
def State.holders (s : State) (q : Nat) (l : Launch) : List (Nat × Launch) :=
  s.launches.filter fun r => r.1 != q && (r.2.phase == .admitted || r.2.active) && l.clusters.any r.2.clusters.contains

/-- Share of the ring and links that running launches hold (R289). -/
def State.shares (s : State) : Nat := ((s.launches.filter fun r => r.2.phase == .admitted || r.2.active).map (·.2.desc.fabshare)).sum

/-- A launch is pre-empted (R305): the stop flag of every strand is set. Whether the loader asks for a deep stop (R341) or leaves a
window (R350) is its own choice, and free (log 40). -/
def State.preempt (s : State) (q : Nat) (l : Launch) : State :=
  if l.preempted then s
  else
    let deep := (Config.freeW s.fresh).getLsbD 0
    let s := s.spend.onLaunch q fun x => { x with preempted := true, phase := .stopping }
    (s.each l.tiles fun s t => s.each (s.tile t).live fun s k => s.requestStop t k (deep || (s.strand t k).trap.deep)).sched s.cc 13
      (.launchResume q)

/-- ADMISSION (R288 to R290, R305): a head is rejected, waits, pre-empts and waits, or is admitted. -/
def execAdmission (q : Nat) (s : State) : Result :=
  .next (match s.launch q with
  | none => s
  | some l =>
    if l.phase != .taken || s.serial then s
    else if s.aheadPending q then s.sched s.cc 13 (.admission q)
    else
      match (if l.img.code.isEmpty then s.readImage l.desc else some l.img) with
      | none => s.closeLaunch q l 4
      | some g =>
        let s := if l.img.code.isEmpty then s.noteImage l.desc g else s
        let l := { l with img := g }
        let s := s.onLaunch q fun _ => l
        if !s.resourcesOk l then s.closeLaunch q l 5
        else if l.desc.fabshare + s.shares > 65536 then s
        else
          let h := s.holders q l
          if h.any fun r => q / 4 ≤ r.1 / 4 then s
          else if !h.isEmpty then s.each h fun s r => if r.2.phase == .admitted then s else s.preempt r.1 r.2
          else (s.onLaunch q fun x => { x with phase := .admitted }).sched s.cc 13 (.launchStart q))

/-! ### Starting (R294) -/

/-- Reserved counters of a die become zero (R271). -/
def State.zeroCounters (s : State) (d lo n : Nat) : State :=
  let a := s.ctrOff d (max lo 65536)
  let b := s.ctrOff d (max (lo + n) 65536)
  s.onDie d fun x => { x.renew (fun l => a ≤ l && l + 128 ≤ b) with
    counters := x.counters.filter fun c => !(lo ≤ c.1 && c.1 < lo + n), mem := x.mem.clear a b }

/-- A cluster's TLB and walkers at the start of a launch there: they hold its pinned translations and nothing of another launch
(R104, R105). -/
def Cluster.pin (x : Cluster) (pins : List TlbEntry) : Cluster := { x with tlb := pins, walks := [], walkers := [] }

/-- A cluster at launch start (R86, R294); the kiln configuration is undefined (R92), and no kiln flag of an earlier launch
stands (R344; log 30). -/
def State.startCluster (s : State) (q : Nat) (l : Launch) (pins : List TlbEntry) (c : Nat) : State :=
  let u := 8 * s.launchKey q
  (s.onLaunch q fun l => { l with fresh := l.fresh + 1 }).onCluster c fun x => { x.pin pins with
    cw := 16, tw := 16, busy := false, seq := 0, store := [], split := none, splits := 0, lastSplitGen := none
    kcfg := ⟨Config.freeW u, Config.freeW (u + 1), Config.freeW (u + 2), Config.freeW (u + 3), (Config.freeW (u + 4)).setWidth 16⟩
    kq := [], krun := none, kDone := 0, kSkip := 0, kFlags := .zero, kNew := (0, .zero), fused := l.desc.fuse
    ptPeer := l.desc.peer, ptFrame := l.desc.frame, ptCtx := l.desc.ctx
    launch := some q, panel := none, gangs := [], stream := [], saved := false, saving := false }

/-- The scratchpad that holds a scratch image, zero elsewhere (R340). -/
def scratchOf (l : List Byte) : Memory := (l.zipIdx).filterMap fun b => if b.1 = 0 then none else some (b.2, b.1)

/-- SAVEAREA of a tile (R315). -/
def State.areaOf (s : State) (t : Nat) : DWord :=
  let d := dieOf t
  s.peerOf d ++ BitVec.ofNat 20 ((s.die d).poolFrame + 1321 * (clusterOf t % 32) + 37 * posOf t) ++ (0 : BitVec 28)

/-- A tile at launch start (R294): its scratchpad is the image's, its shadow pairs and counts are clear. -/
def State.startTile (s : State) (q : Nat) (scratch : Memory) (t : Nat) : State :=
  let area := s.areaOf t
  s.onTile t fun x => { x with
    launch := some q, unitOn := false, running := none, act := none, scratch := scratch, pairs := [], saveArea := area
    arrDone := 0, qDone := 0, sDone := 0, saving := .no, saveAt := none, saved := false, deepRun := none, hang := 0, tlb := [] }

/-- LAUNCH_START (R294, R287): a re-execution waits until nothing else runs, and runs at 0.80 GHz (R321). -/
def execLaunchStart (q : Nat) (s : State) : Result :=
  .next (match s.launch q with
  | none => s
  | some l =>
    if l.phase != .admitted || (l.runs == 1 && s.launches.any fun r => r.1 != q && (r.2.active || r.2.phase == .admitted)) then s
    else
      let s := if l.runs = 1 then s.setMhz 800 else s
      let pins := (s.pins l.desc l.img.ranges).getD []
      let set : CtxSet := ⟨if l.desc.age = 0 then 2048 else l.desc.age, l.desc.rfen, l.desc.rfcid, []⟩
      let s := s.each l.desc.dies fun s d =>
        (s.onDie d fun x => { x with sets := SMap.put x.sets q set }).zeroCounters d l.desc.ctrlo l.desc.ctrn
      let s := s.each l.clusters fun s c => s.startCluster q l pins c
      let scratch := scratchOf l.img.scratch
      let s := s.each l.tiles fun s t => s.startTile q scratch t
      let s := s.onLaunch q fun x => { x with
        phase := .running, runs := x.runs + 1, unit := 0, digest := 0, supers := 0, edge := some s.cc, unbound := false }
      (s.lstat q l.k l.idle 1).sched s.cc 13 (.workUnitStart q))

/-! ### Work units (R295, R134) -/

/-- A strand at the start of a work unit (R134, R310). -/
def Launch.strandAt (l : Launch) (k cc : Nat) : Strand :=
  let x := Strand.reset k
  if !l.desc.strands.getLsbD k then x
  else { x with
    started := true
    pc := l.desc.entry
    g := Vector.ofFn fun i => if 1 ≤ i.val ∧ i.val ≤ 8 then l.desc.args[(i.val - 1) % 8]'(Nat.mod_lt _ (by decide)) else 0
    schedTrap := l.desc.strap
    fmtV := ⟨l.desc.l4f, l.desc.l8f, l.desc.rm⟩
    trap := { x.trap with en := l.img.handler != 0xFFFFFFFF, entry := if l.img.handler = 0xFFFFFFFF then 0 else l.img.handler }
    nextCc := cc }

/-- The lowest-numbered strand that a launch starts. -/
def Launch.lowest (l : Launch) : Nat := (strandIds.find? fun k => l.desc.strands.getLsbD k).getD 0

/-- The status of a tile's engines. -/
def Tile.status (x : Tile) : EngStatus :=
  ⟨x.arrDone, x.qDone, x.qCause, x.sDone, x.sFaults, x.sCause, x.fFaults, x.fOvf, x.fCause⟩

/-- A tile at the start of a work unit (R134, R193, R213, R68): array and Quilt as they state, the lowest strand running. -/
def Tile.startUnit (x : Tile) (l : Launch) (cc : Nat) : Tile :=
  { x with
    unitOn := true, running := some l.lowest, last := l.lowest, act := some cc
    strands := strandIds.map fun k => (k, l.strandAt k cc)
    a := Vector.replicate 8 0, fmtA := .reset, fmtALog := [], flagsA := .zero, bankA := .zero, bankS := .zero, acc := []
    actL := .zero, colL := [], outL := .zero, chain := false, wFree := 0, sFree := 0, dFree := 0, arr := [], partner := []
    qcells := [], qdoms := [], qFree := 0, qcmd := none, sq := [], sp := [], fq := [], fqWalk := none, yq := [], tq := 0
    saving := .no, saveAt := none, saved := false, deepRun := none, hang := 0, marks := x.status }

/-- WORK_UNIT_START (R295): a unit starts on every tile that serves, at a superstep boundary. -/
def execWorkUnitStart (q : Nat) (s : State) : Result :=
  .next (match s.launch q with
  | none => s
  | some l =>
    if !(l.phase == .running || l.phase == .between) || l.tiles.any fun t => (s.tile t).unitOn then s
    else
      let s := s.onLaunch q fun x => { x with phase := .running }
      let s := s.each ((s.liveTiles l).filter fun t => !(s.tile t).isolated) fun s t => s.onTile t fun x => x.startUnit l s.cc
      s.boundary q)

/-- The next unit, or the end of the launch (R295, R296). -/
def State.nextUnit (s : State) (q : Nat) (l : Launch) : State :=
  if l.unit < l.desc.wucount then (s.onLaunch q fun x => { x with phase := .between }).soon 4096 13 (.workUnitStart q)
  else s.endLaunch q 2

/-- WORK_UNIT_COMPLETE (R161, R281): the partials of the tile's strands are added to the launch digest; with the last tile the
unit is over. What is in flight to its registers and scratchpad lands; a load that no register waits for is dropped. -/
def execWorkUnitComplete (t : Nat) (s : State) : Result :=
  let x := s.tile t
  .next (if !x.unitOn || !(strandIds.all fun k => (x.strand k).finished) then s
  else
    let sum := (strandIds.map fun k => (x.strand k).digest).foldl (· + ·) 0
    let s := (s.each strandIds fun s k => s.landWrites t k).unsched fun e => match loadOf e with
      | some r => r.org.tile == t
      | none => false
    let s := s.onTile t fun x => { x with unitOn := false, running := none, act := none }
    match x.launch with
    | none => s
    | some q =>
      let s := s.onLaunch q fun l => { l with digest := l.digest + sum }
      match s.launch q with
      | none => s
      | some l =>
        if l.tiles.any fun u => (s.tile u).unitOn then s
        else
          let s := s.onLaunch q fun l => { l with unit := l.unit + 1 }
          if l.phase == .running then s.nextUnit q { l with unit := l.unit + 1 } else s)

/-! ### Ending (R296, R320, R321) -/

/-- The tile whose engines or strands a step belongs to. -/
def eventTile : Event → Option Nat
  | .pendingWriteComplete t _ _ | .waitSatisfied t _ | .takeTrap t _ _ | .overrun t _ | .extentPlacement t _
  | .releaseComplete t _ _ | .stopFlagSet t _ _ | .stopWindowExpiry t _
  | .strandSelect t | .streamCommandStart t | .streamCommandComplete t _ | .dunfRow t _ _ | .publishSwap t _
  | .wldBeat t _ | .strmBeat t _ | .strmRowsFinal t _ | .drnBeat t _ | .drnOutputFinal t _ | .aclrBeat t _
  | .quiltBeat t _ | .quiltStepCycle t _ | .quiltCommandComplete t | .fabricQueueArrival t | .workUnitComplete t
  | .tileSaveComplete t | .hangWatchdog t | .sequencerOverrun t => some t
  | .systemRegisterPropagate t _ r _ => match r with
    | .migthr | .mlrjoin | .ctrarea | .memgov | .savepool | .bundlelimit | .stopwin | .qcfg _ => none
    | _ => some t
  | .mgrpComplete o _ _ => some o.tile
  | .mlrJoin m => some m.org.tile
  | .ringSlotArrival (.load r) _ _ | .remoteLoadRequest r => some r.org.tile
  | .kilnCommandStart c | .kilnCommandComplete c | .spltDrain c | .spltComplete c | .clusterRegionSave c
  | .clusterStopComplete c | .pageWalkComplete c _ => some (8 * c)
  | _ => none

/-- The tile of a counter add's adder. -/
def adderTile : Adder → Option Nat
  | .silent | .host => none
  | .cadd o | .remoteCadd o _ | .credit o => some o.tile

/-- A counter add that no one waits for any longer. -/
def orphan (ts : List Nat) : Event → Event
  | .counterAdd d id inc a => .counterAdd d id inc (match adderTile a with | none => a | some t => if ts.contains t then .silent else a)
  | e => e

/-- Steps of tiles that no longer run for a launch are dropped; adds on their way still take place (log 21). -/
def State.dropSteps (s : State) (ts : List Nat) : State :=
  let s := s.unsched fun e => match eventTile e with | none => false | some t => ts.contains t
  { s with agenda := s.agenda.map fun e => (e.1, orphan ts e.2) }

/-- Shootdowns of tiles that stop running complete at once (log 21). -/
def State.closeShots (s : State) (ts : List Nat) : State :=
  let mine (c : TransCmd) : Bool := ts.contains c.org.tile
  let l := s.agenda.filterMap fun e => match e.2 with
    | .tlbiComplete c => if mine c then some (execTlbiComplete c) else none
    | .shotComplete c => if mine c then some (execShotComplete c) else none
    | _ => none
  let s := s.unsched fun e => match e with | .tlbiComplete c | .shotComplete c => mine c | _ => false
  s.each l fun s f => match f s with | .next s' => s' | _ => s

/-- A launch that ends early (R309): its strands' writes and entries complete as at a trap, and what its engines have not
completed is abandoned (log 21). -/
def State.abandon (s : State) (q : Nat) (l : Launch) : State :=
  let ts := l.tiles.filter fun t => (s.tile t).launch == some q
  let s := s.each ts fun s t => s.each strandIds fun s k => if (s.strand t k).started then s.flush t k else s
  let s := (s.closeShots ts).dropSteps ts
  { s with bars := s.bars.filter (·.launch != q), mlrs := s.mlrs.filter fun m => !(m.local_ && ts.contains m.org.tile) }

/-- A strand of a launch that is over: it runs no more, and its registers stay as they are (R346). -/
def Strand.rest (x : Strand) : Strand :=
  { x with
    started := false, block := none, wake := false, cleared := none, regionDue := none, hold := none, gang := .no, owned := [], rels := []
    outst := [], faults := [], barFaults := [], board := [], overrun := false, thermal := false, panelTraps := [] }

/-- The clusters of a launch are free (R296); a stopped launch keeps its store and its tiles for its resume. -/
def State.freeClusters (s : State) (q : Nat) (l : Launch) : State :=
  let s := s.each (l.clusters.filter fun c => (s.cluster c).launch == some q) fun s c => s.onCluster c fun x => { x.pin [] with
    cw := 16, tw := 16, busy := false, store := [], split := none, kq := [], krun := none, launch := none, panel := none, stream := []
    saved := false, saving := false }
  s.each (l.tiles.filter fun t => (s.tile t).launch == some q) fun s t => s.onTile t fun x => { x with
    launch := none, unitOn := false, running := none, act := none, strands := x.strands.map fun y => (y.1, y.2.rest), arr := []
    qcmd := none, sq := [], sp := [], fq := [], fqWalk := none, yq := [], tq := 0, saving := .no, saveAt := none, saved := false, tlb := [] }

/-- The health record of a digest that differs (R321). -/
def State.digestRecord (s : State) (l : Launch) : State :=
  let f := s.fresh
  if l.desc.cstn < 8 then
    { s with fresh := f + 8 }.health l.desc.cstn (trapRecord s.cc (256 * l.desc.cstn + (Config.freeW f).toNat % 256) (Config.freeW (f + 1)).toNat 3
      (Config.freeW (f + 2)).toNat (Config.freeW (f + 3)).toNat
      ⟨.digest, 9, (Config.freeW (f + 4)).toNat, Config.freeW (f + 5), l.desc.launchid.setWidth 64, Config.freeW (f + 6),
        (Config.freeW (f + 7)).setWidth 22, (Config.freeD s.fresh).setWidth 32, 0⟩)
  else s

/-- The loader writes its fields of the digest slot (Table TRP-6). -/
def State.digestSlot (s : State) (q : Nat) (l : Launch) : State :=
  let h := s.slotHome q
  let a := h.2 + 34816 + 64 * (l.k % 256)
  (s.memWrite h.1 (a + 16) (leBytes 16 l.first.toNat ++ leBytes 16 l.digest.toNat)).memWrite h.1 (a + 49) [BitVec.ofNat 8 l.runs]

/-- LAUNCH_END (R296, R321): digest, clusters, status, adds; a first mismatch of a launch marked REEXEC runs it again. -/
def execLaunchEnd (q : Nat) (s : State) : Result :=
  .next (match s.launch q with
  | none => s
  | some l =>
    match l.endCode with
    | none => s
    | some code =>
      let s := if code = 2 then s.dropSteps (l.tiles.filter fun t => (s.tile t).launch == some q) else s.abandon q l
      let l := { l with first := if l.runs = 1 then l.digest else l.first }
      let differs := code = 2 && l.recorded != 0 && l.recorded != l.digest
      let s := if differs && l.runs == 1 then s.digestRecord l else s
      if differs && l.reexec && l.runs == 1 then
        ((s.unsched (ofQueue q)).onLaunch q fun _ =>
          { l with phase := .admitted, endCode := none, heldTo := none, edge := none }).testFree.retry
      else
        ((s.freeClusters q l).digestSlot q l).closeLaunch q l
          (if code ≠ 2 then code else if differs then 7 else if l.broken then 8 else 2))

/-! ### Stops and resumes (R305, R314, R316, R326) -/

/-- Tiles of a launch whose areas a resume needs. -/
def State.areaTiles (s : State) (l : Launch) : List Nat := l.tiles.filter fun t => !(s.tile t).retired

/-- A stop of a launch is complete (R316): its clusters are free until it resumes. -/
def State.stopDone (s : State) (q : Nat) (l : Launch) : State :=
  let s := s.dropSteps l.tiles
  ((s.freeClusters q l).onLaunch q fun x => { x with phase := .stopped }).testFree.retry

/-- A stopped launch has its clusters again, as the loader kept them; areas and regions then restore what they hold (R314,
R316). -/
def State.reseat (s : State) (q : Nat) (l : Launch) : State :=
  let pins := (s.pins l.desc l.img.ranges).getD []
  let s := s.each l.clusters fun s c => match SMap.find l.keptC c with
    | none => s
    | some y => s.onCluster c fun x => { { y with maxCw := x.maxCw }.pin pins with
        launch := some q, saved := false, saving := false }
  s.each l.tiles fun s t => match SMap.find l.keptT t with
    | none => s
    | some y => s.onTile t fun x => { y with
        rfq := x.rfq, rfDrop := x.rfDrop, retired := x.retired, isolated := x.isolated, launch := some q, tlb := [] }

/-- After a resume, nodes count again, and barriers look again. -/
def State.goOn (s : State) (q : Nat) : State :=
  match s.launch q with
  | none => s
  | some l =>
    let s := if l.heldTo.isSome then s.pauseNodes l else s.resumeNodes l
    s.each (s.bars.filter (·.launch == q)) fun s b => s.sched s.cc 11 (.barrierComplete b.id)

/-- Resume a stopped launch (R305): without a whole area or region it ends as broken (R314). -/
def State.resumeLaunch (s : State) (q : Nat) (l : Launch) : State :=
  let s := (s.reseat q l).onLaunch q fun x => { x with phase := .running, preempted := false, keptT := [], keptC := [] }
  if !(l.clusters.all s.regionValid && (s.areaTiles l).all s.areaValid) then s.endLaunch q 8
  else
    let s := s.each l.clusters fun s c => s.loadCluster c
    let s := (s.each (s.areaTiles l) fun s t => s.loadTile t).goOn q
    if l.tiles.any fun t => (s.tile t).unitOn then s else s.nextUnit q l

/-- Resume the tiles that STOP words have stopped (R326). -/
def State.resumeTiles (s : State) (q : Nat) (l : Launch) (ts : List Nat) : State :=
  let cs := l.clusters.filter fun c => (s.cluster c).saved
  if !(cs.all s.regionValid && ts.all s.areaValid) then s.endLaunch q 8
  else
    let s := s.each cs fun s c => (s.loadCluster c).onCluster c fun x => { x with saved := false }
    ((s.each ts fun s t => s.loadTile t).onLaunch q fun x => { x with keptT := [], keptC := [] }).goOn q

/-- Whether a head of higher priority waits for clusters of a launch (R305). -/
def State.outranked (s : State) (q : Nat) (l : Launch) : Bool :=
  s.launches.any fun r => r.2.phase == .taken && q / 4 < r.1 / 4 && l.clusters.any r.2.clusters.contains

/-- LAUNCH_RESUME (R305, R314, R316, R326): the loader follows a stop to its end, and resumes what may run again. -/
def execLaunchResume (q : Nat) (s : State) : Result :=
  let again (s : State) : State :=
    if s.agenda.any (·.2 == .launchResume q) then s else s.sched (s.cc + 1) 13 (.launchResume q)
  .next (match s.launch q with
  | none => s
  | some l =>
    if l.phase == .stopping then
      let s := s.each ((s.areaTiles l).filter fun t => !(s.tile t).isolated) fun s t => s.checkStop t
      let s := s.each l.clusters State.beginRegion
      if (l.clusters.all fun c => (s.cluster c).saved || (s.savedTiles c).isEmpty) && l.tiles.all s.tileDrained then s.stopDone q l
      else again s
    else if l.phase == .stopped then
      if s.serial || !(s.holders q l).isEmpty || s.outranked q l then s else s.resumeLaunch q l
    else if l.phase == .running then
      let ts := l.tiles.filter fun t => (s.tile t).saved
      let s := s.each l.clusters State.beginRegion
      if ts.isEmpty then s
      else if (l.tiles.any fun t => (s.tile t).stopOpen) || l.clusters.any (fun c => (s.cluster c).saving) ||
          !ts.all s.tileDrained then again s
      else s.resumeTiles q l ts
    else s)

end Sys2Proof.Machine
end

