-- ==== Sys2Proof/Machine/HostPort.lean ====
section
/-! DEFINITION. The host's side (15_system R330 to R339): reset and the ready map, boot, attestation, the HDM window, the
management window with its ports, power registers. -/
namespace Sys2Proof.Machine

/-! ### Bring-up -/

/-- PACKAGE_RESET (R335): every field but the outside world's. -/
def execPackageReset (s : State) : Result :=
  .next { State.reset with outputs := s.outputs, slack := s.slack, fresh := s.fresh }

/-- Whether every stage of the boot chain has verified (R336). -/
def State.bootDone (s : State) : Bool :=
  s.booted.contains .link && s.booted.contains .loader && (List.range 8).all fun k => s.booted.contains (.die k)

/-- The READYMAP bit of a function and whether the stage it depends on has run (Table SYS-3, R336). -/
def State.readyBit (s : State) : ReadyFn → Nat × Bool
  | .boot => (0, s.bootDone)
  | .mgmt => (1, true)
  | .attest => (2, s.booted.contains .link)
  | .loader => (3, s.booted.contains .loader)
  | .torus .. => (5, s.booted.contains .link)
  | .linkdie i => (6 + i % 2, s.booted.contains .link)
  | .die k => (8 + k % 8, s.booted.contains (.die (k % 8)) && !(s.die (k % 8)).isolated)
  | .stack k => (16 + k % 8, s.booted.contains (.die (k % 8)))

/-- FUNCTION_READY (R335): a function sets its bit; the torus brings the package's coordinates and the extent (R15, R233), the
loader serves its queues from then on. -/
def execFunctionReady (fn : ReadyFn) (s : State) : Result :=
  let b := s.readyBit fn
  .next (if !b.2 then s
  else
    let s : State := { s with ready := s.ready ||| ((1 : DWord) <<< b.1) }
    match fn with
    | .torus x y z ex ey ez =>
      { s with coord := BitVec.ofNat 4 z ++ BitVec.ofNat 4 y ++ BitVec.ofNat 4 x, extent := (min 16 (max 1 ex), min 16 (max 1 ey), min 16 (max 1 ez)) }
    | .loader => s.each (s.qcfg.filter fun q => q.2.en) fun s q => s.sched s.cc 13 (.launchTake q.1)
    | _ => s)

/-- The number of a stage in the measurement log. -/
def stageNumber : BootStage → Nat | .link => 0 | .die k => 1 + k | .loader => 9

/-- The stages that come before a stage (R336). -/
def stagesBefore : BootStage → List Nat
  | .link => []
  | .die _ => [0]
  | .loader => [0, 1, 2, 3, 4, 5, 6, 7, 8]

/-- BOOT_STAGE (R336): in order; measured, and run only if both signatures verify. -/
def execBootStage (stage : BootStage) (edOk mlOk : Bool) (s : State) : Result :=
  let n := stageNumber stage
  .next (if s.measured.any (·.1 == n) || !(stagesBefore stage).all (fun i => s.measured.any (·.1 == i)) then s
  else { s with
    measured := s.measured ++ [(n, (List.range 64).map (Config.attestByte n))]
    booted := if edOk && mlOk then stage :: s.booted else s.booted })

/-! ### Attestation (R337) -/

/-- An answer of the responder, once it is ready; else the request is refused (R335). -/
def State.answer (s : State) (kind : Nat) (bytes : List Byte) : Result :=
  .next (if s.ready.getLsbD 2 then s.spend.emit (.message kind bytes) else s.hostErr)

/-- n bytes that the device's keys and identity decide (log 11). -/
def identityBytes (what n : Nat) : List Byte := (List.range n).map (Config.attestByte what)

/-- The two signatures of an answer: Ed25519, then ML-DSA-65. -/
def State.signatures (s : State) (nonce : Nat) : List Byte :=
  identityBytes (1000 + 4 * (s.fresh + nonce)) 64 ++ identityBytes (1001 + 4 * (s.fresh + nonce)) 3309

/-- GET_VERSION: SPDM 1.3. -/
def execGetVersion (s : State) : Result := s.answer 0 [0x13]
/-- GET_CAPABILITIES; the spec gives no bits of the answer. -/
def execGetCapabilities (s : State) : Result := s.answer 1 (identityBytes 100 4)
/-- NEGOTIATE_ALGORITHMS; the spec names SHA-512, Ed25519 and ML-DSA-65. -/
def execNegotiateAlgorithms (s : State) : Result := s.answer 2 (identityBytes 101 12)
/-- GET_DIGESTS: the SHA-512 digests of the two chains. -/
def execGetDigests (s : State) : Result := s.answer 3 (identityBytes 102 64 ++ identityBytes 103 64)
/-- GET_CERTIFICATE: one of the two chains. -/
def execGetCertificate (chain : Nat) (s : State) : Result := s.answer 4 (identityBytes (104 + chain % 2) 1024)
/-- CHALLENGE: both signatures. -/
def execChallenge (nonce : Nat) (s : State) : Result := s.answer 5 (s.signatures nonce)
/-- GET_MEASUREMENTS: the log of SHA-512 measurements and both signatures. -/
def execGetMeasurements (nonce : Nat) (s : State) : Result := s.answer 6 (s.measured.flatMap (·.2) ++ s.signatures nonce)

/-! ### The HDM window (R331) -/

/-- The die and stack offset of an HDM access, when it lies in the window and the die's stack serves. -/
def State.hdm (s : State) (h n : Nat) : Option (Nat × Nat) :=
  if h + n ≤ 2 ^ 39 ∧ h / 2 ^ 36 = (h + n - 1) / 2 ^ 36 ∧ s.ready.getLsbD (16 + h / 2 ^ 36) then some (h / 2 ^ 36, h % 2 ^ 36) else none

/-- HDM_READ (R331, R335, R79): a refused read returns zero; an uncorrectable line reads as zero with a record. -/
def execHdmRead (h n : Nat) (s : State) : Result :=
  .next (match s.hdm h n with
  | none => (s.emit (.data (List.replicate n 0))).hostErr
  | some (d, off) =>
    (s.emit (.data (s.memRead d off n))).noteRead d off n)

/-- HDM_WRITE (R331, R335, R111): performed at its home; one that a shared frame refuses is counted and recorded. -/
def execHdmWrite (h : Nat) (bytes : List Byte) (s : State) : Result :=
  .next (match s.hdm h bytes.length with
  | none => s.hostErr
  | some (d, off) =>
    if s.shared d off || s.shared d (off + bytes.length - 1) then s.hostErr.memRecord d off 7 0 0
    else s.memWrite d off bytes)

/-! ### Ports of the management window -/

/-- Whether a selector names a counter of a die that is ready (R333, R334). -/
def State.hostCounter (s : State) (d id : Nat) : Bool := d < 8 && s.ready.getLsbD (8 + d) && s.ctrOk d id

/-- COUNTER_ADD_PORT (R333, R270): the add takes place behind those of every other source of its cc. -/
def execCounterAddPort (bytes d id : Nat) (inc : DWord) (s : State) : Result :=
  .next (if bytes ≠ 16 || !s.hostCounter d id then s.hostErr
  else s.sched (if s.late then s.cc + 1 else s.cc) slotHost (.counterAdd d id inc .host))

/-- COUNTER_READ_SLOT (R334). -/
def execCounterReadSlot (slot : Nat) (s : State) : Result :=
  let c := SMap.get (0, 0) s.slots slot
  .next (if s.hostCounter c.1 c.2 then s.emit (.data (leBytes 8 (s.ctrGet c.1 c.2).toNat))
  else (s.emit (.data (List.replicate 8 0))).hostErr)

/-- WATCH_ENTRY_WRITE (R334): an entry whose counter already meets its value raises its vector at once. -/
def execWatchEntryWrite (k d id : Nat) (v : DWord) (s : State) : Result :=
  let set (v : DWord) : State := { s with watches := SMap.put s.watches k (d, id, v) }
  .next (if !s.hostCounter d id then (set 0).hostErr
  else if v ≠ 0 ∧ v.toNat ≤ (s.ctrGet d id).toNat then (set 0).emit (.msix k)
  else set v)

/-- A queue of a die that a pop port names. -/
def Die.queueOf (x : Die) : Nat → RecQ
  | 0 => x.memQ
  | 1 => x.migQ
  | _ => x.healthQ

/-- POP_PORT_READ (R334, R335, R332): a pop leaves the drop count to SFLT; a pop in the cc of an SFLT of the same queue comes
before it, so one that meets a cc in which SFLT has popped takes place in the next. -/
def execPopPortRead (d queue bytes : Nat) (s : State) : Result :=
  let q := (s.die d).queueOf queue
  let r := q.recs.headD []
  .next (if bytes ≠ 64 then s.hostErr
  else if d ≥ 8 || queue = 2 || queue > 3 || !s.ready.getLsbD (8 + d) then (s.emit (.data (List.replicate 64 0))).hostErr
  else if q.popped = s.cc + 1 then s.sched (s.cc + 1) slotHost (.popPortRead d queue bytes)
  else
    let tail (q : RecQ) : RecQ := { q with recs := q.recs.tail }
    (s.emit (.data (r ++ List.replicate (64 - r.length) 0))).onDie d fun x =>
      match queue with
      | 0 => { x with memQ := tail x.memQ }
      | 1 => { x with migQ := tail x.migQ }
      | _ => { x with healthQ := tail x.healthQ })

/-! ### Power (R338, R339) -/

/-- A package takes a stagger message: its slot comes from its own coordinates (R339). -/
def State.staggered (s : State) (en : Bool) (width : Nat) : State :=
  let x := (s.coord.extractLsb' 0 4).toNat
  let y := (s.coord.extractLsb' 4 4).toNat
  let z := (s.coord.extractLsb' 8 4).toNat
  { s with power := { s.power with
      stgEn := en
      stgWidth := if width = 0 ∨ 65535 < width then s.power.stgWidth else BitVec.ofNat 16 width
      stgSlot := if en then BitVec.ofNat 12 (x + s.extent.1 * (y + s.extent.2.1 * z)) else s.power.stgSlot } }

/-- STAGGER_WRITE (R339): the fields, and a message to every package of the torus. -/
def execStaggerWrite (v : DWord) (s : State) : Result :=
  let s' := s.staggered (v.getLsbD 63) (bits v 0 16)
  .next (s'.emit (.stagger (v.getLsbD 63) s'.power.stgWidth.toNat))

/-- STAGGER_MESSAGE (R339). -/
def execStaggerMessage (en : Bool) (width : Nat) (s : State) : Result := .next (s.staggered en width)

/-- A write of DAMPER (Table SYS-4). -/
def Power.damper (p : Power) (v : DWord) : Power :=
  { p with
    floor := if bits v 32 9 ≤ 60 then v.extractLsb' 32 9 else p.floor
    rate := if 50 ≤ bits v 0 9 ∧ bits v 0 9 ≤ 300 then v.extractLsb' 0 9 else p.rate }

/-- DAMPER as a word. -/
def Power.damperWord (p : Power) : DWord := BitVec.ofNat 64 (packLow [(9, p.rate.toNat), (23, 0), (9, p.floor.toNat)])

/-- STAGGER as a word. -/
def Power.staggerWord (p : Power) : DWord :=
  BitVec.ofNat 64 (packLow [(16, p.stgWidth.toNat), (16, 0), (12, p.stgSlot.toNat), (19, 0), (1, p.stgEn.toNat)])

/-! ### Registers of the management window (R332) -/

/-- What an offset of the window holds (Table SYS-1). -/
inductive Place where
  | map | hosterr | damper | stagger
  | pkg (r : SysReg)
  | die (d : Nat) (r : SysReg)
  | addPort
  | slot (k : Nat) (value : Bool)
  | watch (k : Nat) (value : Bool)
  | pop (d q : Nat)
  | none
  deriving DecidableEq, Repr

/-- Registers of package scope (Table TRP-7). -/
def pkgScope : SysReg → Bool
  | .bundlelimit | .stopwin | .qcfg _ | .readymap => true
  | _ => false

/-- Registers of die scope that the host reaches; the two of a launch context it does not (R243). -/
def dieScope : SysReg → Bool
  | .migthr | .mlrjoin | .ctrarea | .memgov | .savepool => true
  | _ => false

/-- The place of an aligned doubleword of the window (Table SYS-1). -/
def placeOf (o : Nat) : Place :=
  if o = 0 then .map
  else if o = 0x10 then .hosterr
  else if o = 0x100 then .damper
  else if o = 0x108 then .stagger
  else if 0x1000 ≤ o ∧ o < 0x10000 then
    match sysRegOf ((o - 0x1000) / 8) with
    | some r => if pkgScope r then .pkg r else .none
    | _ => .none
  else if 0x10000 ≤ o ∧ o < 0x18000 then
    match sysRegOf (o % 0x1000 / 8) with
    | some r => if dieScope r then .die ((o - 0x10000) / 0x1000) r else .none
    | _ => .none
  else if 0x20000 ≤ o ∧ o < 0x20010 then .addPort
  else if 0x21000 ≤ o ∧ o < 0x21100 then .slot ((o - 0x21000) / 16) (o % 16 == 8)
  else if 0x22000 ≤ o ∧ o < 0x22100 then .watch ((o - 0x22000) / 16) (o % 16 == 8)
  else if 0x30000 ≤ o ∧ o < 0x30800 then .pop ((o - 0x30000) / 0x100) (o % 0x100 / 0x40)
  else .none

/-- A selector's die and counter (Table SYS-2). -/
def selector (v : DWord) : Nat × Nat := (bits v 24 4, bits v 0 24)

/-- A write of one doubleword of the window. -/
def State.mgmtWrite (s : State) (o : Nat) (v : DWord) : State :=
  let run (r : Result) : State := match r with | .next s' => s' | _ => s
  match placeOf o with
  | .damper => { s with power := s.power.damper v }
  | .stagger => run (execStaggerWrite v s)
  | .pkg r => s.pkgWrite v r
  | .die d r => if s.ready.getLsbD (8 + d) then s.onDie d fun x => x.writeReg v r else s.hostErr
  | .addPort | .pop .. => s.hostErr
  | .slot k false => { s with slots := SMap.put s.slots k (selector v) }
  | .watch k value =>
    let w := SMap.get (0, 0, 0) s.watches k
    if value then run (execWatchEntryWrite k w.1 w.2.1 v s)
    else run (execWatchEntryWrite k (selector v).1 (selector v).2 w.2.2 s)
  | .map | .hosterr | .slot _ true | .none => s

/-- MGMT_REGISTER_WRITE (R332): aligned, of 8 or 16 bytes; any other access, and any write to a pop port, is ignored and
counted. Of 8 bytes the low doubleword counts. A write of 16 bytes is one write: of the add port (R333), of a whole watch
entry (R334), of one register or of two. -/
def execMgmtRegisterWrite (o bytes : Nat) (v : BitVec 128) (s : State) : Result :=
  let lo : DWord := v.extractLsb' 0 64
  let hi : DWord := v.extractLsb' 64 64
  if (bytes ≠ 8 ∧ bytes ≠ 16) || o % bytes ≠ 0 then .next s.hostErr
  else if bytes = 8 then .next (s.mgmtWrite o lo)
  else match placeOf o with
    | .addPort => execCounterAddPort 16 (selector lo).1 (selector lo).2 hi s
    | .watch k _ => execWatchEntryWrite k (selector lo).1 (selector lo).2 hi s
    | .pop .. => .next s.hostErr
    | _ => .next ((s.mgmtWrite o lo).mgmtWrite (o + 8) hi)

/-- A read of one doubleword of the window: its value, and whether it is refused. -/
def State.mgmtRead (s : State) (o : Nat) : DWord × Bool :=
  match placeOf o with
  | .map => (s.readyMap, false)
  | .hosterr => (s.hosterr, false)
  | .damper => (s.power.damperWord, false)
  | .stagger => (s.power.staggerWord, false)
  | .pkg r => (s.pkgRead r, false)
  | .die d r => if s.ready.getLsbD (8 + d) then ((s.die d).readReg r, false) else (0, true)
  | .slot k true =>
    let c := SMap.get (0, 0) s.slots k
    if s.hostCounter c.1 c.2 then (s.ctrGet c.1 c.2, false) else (0, true)
  | .pop .. => (0, true)
  | .addPort | .slot _ false | .watch .. | .none => (0, false)

/-- MGMT_WINDOW_READ (R332, R335): a malformed or refused read returns zero and is counted; an aligned read of 64 bytes of a
pop port pops (R334). -/
def execMgmtWindowRead (o bytes : Nat) (s : State) : Result :=
  let zero (s : State) : State := (s.emit (.data (List.replicate bytes 0))).hostErr
  let r := (List.range (bytes / 8)).map fun i => s.mgmtRead (o + 8 * i)
  if bytes = 64 ∧ o % 64 = 0 then
    match placeOf o with
    | .pop d q => execPopPortRead d q 64 s
    | _ => .next (zero s)
  else if (bytes ≠ 8 ∧ bytes ≠ 16) || o % bytes ≠ 0 || r.any (·.2) then .next (zero s)
  else .next (s.emit (.data (r.flatMap fun x => leBytes 8 x.1.toNat)))

end Sys2Proof.Machine
end

