-- ==== Sys2Proof/Machine/Refresh.lean ====
section
/-! DEFINITION. The refresh governor, the patrol scrubber and the temperature of a stack (04_stack R76 to R78, R80). When an
epoch ends, what the scrubber meets and how warm a die is are inputs (log 1). -/
namespace Sys2Proof.Machine

/-- W at the end of an epoch with C corrected symbols (R77). -/
def MemGov.next (g : MemGov) (c : Nat) : BitVec 3 :=
  let w := g.wcur.toNat
  let v := if g.hi.toNat ≤ g.lo.toNat then w else if c > g.hi.toNat then w - 1 else if c < g.lo.toNat then w + 1 else w
  if g.hold then g.wcur else BitVec.ofNat 3 (max g.wmin.toNat (min v (max g.wmin.toNat g.wmax.toNat)))

/-- Whether the epoch rule halves W (R77). -/
def MemGov.halves (g : MemGov) (c : Nat) : Bool := !g.hold && g.lo.toNat < g.hi.toNat && c > g.hi.toNat && (g.next c).toNat < g.wcur.toNat

/-- A line with n wrong symbols (R76): up to 10 the code tells, up to 6 it corrects; beyond that the line is as it may be. -/
def State.wrongLine (s : State) (d line n : Nat) : State :=
  if n ≤ 10 then s.onDie d fun x => { x with
    wrong := if n = 0 then SMap.del x.wrong line else SMap.put x.wrong line n
    bad := if 6 < n && !x.bad.contains line then line :: x.bad else x.bad }
  else s.spend.memWrite d line ((List.range 128).map fun i => Config.freeByte (s.fresh * 0x400000 + i))

/-- More symbols of a line, named by its number, go wrong. -/
def State.decayLine (s : State) (d : Nat) (e : Nat × Nat) : State :=
  let line := e.1 % 2 ^ 29 * 128
  if e.2 = 0 then s else s.wrongLine d line (SMap.get 0 (s.die d).wrong line + e.2)

/-- GOVERNOR_EPOCH (R76, R77, R80): which symbols have gone wrong meanwhile is free (log 35); the window follows the epoch's count; when it halves, a record is queued and a row is tested,
which row being the base die's to say (log 11). -/
def execGovernorEpoch (d : Nat) (s : State) : Result :=
  let x := s.die d
  let s' := s.onDie d fun y => { y with
    gov := { y.gov with wcur := cool y.hot (y.gov.next y.corrected) }, corrected := 0, epoch := y.epoch + 1 }
  let line := (Config.freeD s.fresh).toNat % 2 ^ 29 * 128
  let s' := if x.gov.halves x.corrected then
      (s'.spend.memRecord d line 4 ((Config.freeW s.fresh).toNat % 7) 0).startTest ⟨3, d, 0, line⟩
    else s'
  .next (s'.spend.each (Config.decay s'.fresh) fun s e => s.decayLine d e)

/-- PATROL_SCRUB (R76, R78): the next line, with the number of symbols more that are found wrong in it. Up to 6 are corrected and
the line is written back; 7 to 10 are uncorrectable. -/
def execPatrolScrub (d symbols : Nat) (s : State) : Result :=
  let line := (s.die d).scrub
  let n := SMap.get 0 (s.die d).wrong line + symbols
  let s := s.onDie d fun x => { x with scrub := (line + 128) % 2 ^ 36 }
  .next (if (s.die d).bad.contains line then s.uncorrectable d line 2
  else if n ≤ 6 then s.onDie d fun x => { x with corrected := x.corrected + n, wrong := SMap.del x.wrong line }
  else if n ≤ 10 then (s.wrongLine d line n).uncorrectable d line 2
  else s.wrongLine d line n)

/-- CORE_DIE_TEMPERATURE (R77): while hot, W is at most 64 ms. -/
def execCoreDieTemperature (d : Nat) (hot : Bool) (s : State) : Result :=
  .next (s.onDie d fun x => { x with hot := hot, gov := { x.gov with wcur := cool hot x.gov.wcur } })

end Sys2Proof.Machine
end

