-- ==== Sys2Proof/Machine/Select.lean ====
section
/-! DEFINITION. The core between bundles (07_core R136, R138; 13_scheduling R298; 14_traps R309): selection of a strand, the
overrun of a node, the entry into a handler, the placement of an extent. -/
namespace Sys2Proof.Machine

/-! ### Selection -/

/-- The order in which the core tries its strands (R136). -/
def selectOrder (last : Nat) : List Nat := [(last + 1) % 4, (last + 2) % 4, (last + 3) % 4, last % 4]

/-- The core takes a strand, which issues in the next cc (R136); what is left of its block is when it had cleared. -/
def State.give (s : State) (t k : Nat) : State :=
  let free := s.unblocked t k
  (s.onStrand t k fun x => { x with
    block := none, wake := false, yielded := false
    cleared := if x.block.isSome && free then x.cleared.or (some s.cc) else none }).onTile t fun x =>
    { x with running := some k, last := k, act := some (s.cc + 1) }

/-- The next cc at which a core that found no strand ready looks again: that of a strand that only waits for its next bundle's
cc; the next one while a block has to be looked at (R136). Whatever else makes a strand ready stirs its core. -/
def State.nextLook (s : State) (t : Nat) : Option Nat :=
  ((strandIds.filter fun k => let x := s.strand t k
    x.started && !x.halted && x.stopped == .no && x.hold.isNone).filterMap fun k =>
      let x := s.strand t k
      if x.block.any Wait.polled then some (max (s.cc + 1) (x.nextCc - 1))
      else if s.cc + 1 < x.nextCc && (x.block.isNone || x.wake) then some (x.nextCc - 1) else none).min?

/-- STRAND_SELECT (R136, R311): the first ready strand behind the last one runs; a tile that is saved deep selects none but the one
that is on its way to its stop point, and ganged ones, whose panel stops with its lead. With none ready the core waits. -/
def execStrandSelect (t : Nat) (s : State) : Result :=
  let x := s.tile t
  .next (if x.running.isSome then s
  else if !x.unitOn then s.onTile t fun x => { x with act := none }
  else if x.saving == .deep then
    let s := s.each (s.standing t) fun s k => s.stopStrand t k .deep
    match (s.tile t).live.find? fun k => ((s.strand t k).gang == .ganged || x.deepRun == some k) && s.canRun t k with
    | some k => s.give t k
    | none => s.onTile t fun x => { x with act := s.nextLook t }
  else match (selectOrder x.last).find? (s.canRun t) with
    | some k => s.give t k
    | none => s.onTile t fun x => { x with act := s.nextLook t })

/-! ### Traps that do not wait for a bundle -/

/-- What the record of a thermal stop or an overrun gives (Table TRP-1): its number, status and address are stated nowhere
and are free (log 17). -/
def State.bareInfo (s : State) (t k : Nat) (c : Cause) : TrapInfo :=
  let x := s.strand t k
  ⟨c, 9, (Config.freeW s.fresh).toNat, Config.freeW (s.fresh + 1), Config.freeD s.fresh, x.pc, x.nodeAt.1, x.nodeAt.2, x.pc⟩

/-- TAKE_TRAP (R309). -/
def execTakeTrap (t k : Nat) (i : TrapInfo) (s : State) : Result := .next (s.takeTrap t k i)

/-- Whether the node of a strand has just reached its bound (R298). -/
def State.overDue (s : State) (t k : Nat) : Bool :=
  let x := s.strand t k
  let free := match s.launchOf t with | none => true | some l => l.unbound
  !free && x.stopped == .no && !x.halted && x.hold != some .release &&
    match x.node with
    | none => false
    | some n => !n.late && n.pause.isNone && n.since + n.bound ≤ s.cc

/-- A strand's node is over its bound. -/
def Strand.markOver (x : Strand) : Strand := { x with node := x.node.map fun n => { n with late := true } }

/-- OVERRUN (R298): the strand takes the trap in this cc, its block abandoned. One that a SPLT holds takes it when the SPLT
completes (R306); behind a thermal stop it comes next (R307); in a panel the bound is the lead's, and the panel takes the
trap with it (R164). -/
def execOverrun (t k : Nat) (s : State) : Result :=
  .next (if !s.overDue t k then s
  else
    let x := s.strand t k
    let s' := s.onStrand t k Strand.markOver
    if x.gang == .ganged then
      if posOf t = 0 then
        let s := s'.onStrand t k fun x => { x with overrun := true }
        s.onTile t fun x => { x with act := some s.cc }
      else s'
    else if x.hold == some .split || x.thermal then (s'.onStrand t k fun x => { x with overrun := true }).stir t
    else s'.spend.spend.takeTrap t k (s.bareInfo t k .overrun))

/-! ### Large images -/

/-- The extent that a strand runs in: its node's; before its first node, that of the launch's entry (R138). -/
def State.extentNow (s : State) (t k : Nat) : Option (Nat × Nat) :=
  let entry := match (s.strand t k).node, s.launchOf t with
    | some n, _ => n.entry.toNat
    | none, some l => l.desc.entry.toNat
    | none, none => 0
  (s.image t).extentOf entry

/-- Whether a word lies in an extent. -/
def inExtent (e : Option (Nat × Nat)) (w : Nat) : Bool := match e with | none => false | some e => e.1 ≤ w && w < e.1 + e.2

/-- Whether a strand of a large image may fetch a word: in its extent, in the handler's, or the entry of a node (R138). -/
def State.reaches (s : State) (t k w : Nat) : Bool :=
  let g := s.image t
  !g.large || inExtent (s.extentNow t k) w || inExtent g.handlerExtent w || g.nodes.any fun n => n.entry == w

/-- Whether the extent that holds a word is present on a tile (R138). -/
def State.present (s : State) (t k w : Nat) : Bool :=
  let g := s.image t
  !g.large || inExtent g.handlerExtent w || (s.strand t k).extent == some (BitVec.ofNat 32 w) ||
    strandIds.any fun j => (s.strand t j).started && inExtent (s.extentNow t j) w

/-- EXTENT_PLACEMENT (R138): the loader has placed the extent of a node that a strand has come to. -/
def execExtentPlacement (t k : Nat) (s : State) : Result :=
  .next ((s.onStrand t k fun x => { x with extent := some x.pc, nextCc := min x.nextCc s.cc }).onTile t fun x =>
    if x.running == some k then { x with act := some s.cc } else x)

end Sys2Proof.Machine
end

