-- ==== Sys2Proof/Machine/Scalar.lean ====
section
/-! DEFINITION. Class S, the scalar ALU (07_core R140 to R147). -/
namespace Sys2Proof.Machine

/-- w(x): a 32-bit result, sign-extended (R141). -/
def wx (x : Word) : DWord := x.signExtend 64

/-- Quotient and remainder (R142). -/
def divRem (nat : Bool) (a b : DWord) : DWord × DWord :=
  if b = 0 then (BitVec.allOnes 64, a)
  else if nat then (a / b, a % b)
  else if a = BitVec.intMin 64 ∧ b = BitVec.allOnes 64 then (a, 0)
  else (BitVec.ofInt 64 (a.toInt.tdiv b.toInt), BitVec.ofInt 64 (a.toInt.tmod b.toInt))

/-- Position of a bit field, and its length within the register (R143). -/
def fieldPos (b : DWord) : Nat := b.toNat % 64
/-- Length of a bit field. -/
def fieldLen (b : DWord) : Nat := min (fieldPos b + min (b.toNat / 256 % 128) 64) 64 - fieldPos b

/-- BFX: the field, zero-extended (R143). -/
def bitField (a b : DWord) : DWord := BitVec.ofNat 64 (a.toNat / 2 ^ fieldPos b % 2 ^ fieldLen b)

/-- BFI: the old register with its field replaced by the low bits of a (R143). -/
def bitInsert (old a b : DWord) : DWord :=
  let mask : DWord := BitVec.ofNat 64 ((2 ^ fieldLen b - 1) * 2 ^ fieldPos b)
  (old &&& ~~~mask) ||| ((a <<< fieldPos b) &&& mask)

/-- Count of leading zero bits (Table COR-3). -/
def clz64 (a : DWord) : DWord := BitVec.ofNat 64 (if a = 0 then 64 else 63 - a.toNat.log2)

/-- Count of one bits (Table COR-3). -/
def popc64 (a : DWord) : DWord := BitVec.ofNat 64 ((List.range 64).filter fun i => a.getLsbD i).length

/-- The R-form of an S operation (R140): a false guard writes nothing. -/
def aluR (f : DWord → DWord → DWord) (bound : Nat) (d a b : Reg) (p : Reg3) (s : State) : Result :=
  .next (if s.me.readP p then s.write bound (.g d (f (s.me.readG a) (s.me.readG b))) else s)

/-- The I-form of an S operation (R140). -/
def aluI (f : DWord → DWord → DWord) (bound : Nat) (d a : Reg) (i : BitVec 10) (ext : List LWord) (s : State) : Result :=
  .next (s.write bound (.g d (f (s.me.readG a) (imm i ext))))

/-- NOP: no effect (R41). -/
def execNop (s : State) : Result := .next s

/-- What ADD computes (R141). -/
def fnAdd (a b : DWord) : DWord := a + b
/-- ADD (R141). -/
def execAdd (d a b : Reg) (p : Reg3) (s : State) : Result := aluR fnAdd 1 d a b p s
/-- ADD with an immediate (R141). -/
def execAddImm (d a : Reg) (i : BitVec 10) (ext : List LWord) (s : State) : Result := aluI fnAdd 1 d a i ext s

/-- What SUB computes (R141). -/
def fnSub (a b : DWord) : DWord := a - b
/-- SUB (R141). -/
def execSub (d a b : Reg) (p : Reg3) (s : State) : Result := aluR fnSub 1 d a b p s
/-- SUB with an immediate (R141). -/
def execSubImm (d a : Reg) (i : BitVec 10) (ext : List LWord) (s : State) : Result := aluI fnSub 1 d a i ext s

/-- What MUL computes (R141). -/
def fnMul (a b : DWord) : DWord := a * b
/-- MUL (R141). -/
def execMul (d a b : Reg) (p : Reg3) (s : State) : Result := aluR fnMul 3 d a b p s
/-- MUL with an immediate (R141). -/
def execMulImm (d a : Reg) (i : BitVec 10) (ext : List LWord) (s : State) : Result := aluI fnMul 3 d a i ext s

/-- What MULH computes (R141). -/
def fnMulh (a b : DWord) : DWord := (BitVec.ofInt 128 (a.toInt * b.toInt)).extractLsb' 64 64
/-- MULH (R141). -/
def execMulh (d a b : Reg) (p : Reg3) (s : State) : Result := aluR fnMulh 4 d a b p s
/-- MULH with an immediate (R141). -/
def execMulhImm (d a : Reg) (i : BitVec 10) (ext : List LWord) (s : State) : Result := aluI fnMulh 4 d a i ext s

/-- What MULHN computes (R141). -/
def fnMulhn (a b : DWord) : DWord := (BitVec.ofNat 128 (a.toNat * b.toNat)).extractLsb' 64 64
/-- MULHN (R141). -/
def execMulhn (d a b : Reg) (p : Reg3) (s : State) : Result := aluR fnMulhn 4 d a b p s
/-- MULHN with an immediate (R141). -/
def execMulhnImm (d a : Reg) (i : BitVec 10) (ext : List LWord) (s : State) : Result := aluI fnMulhn 4 d a i ext s

/-- What DIV computes (R142). -/
def fnDiv (a b : DWord) : DWord := (divRem false a b).1
/-- DIV (R142). -/
def execDiv (d a b : Reg) (p : Reg3) (s : State) : Result := aluR fnDiv 20 d a b p s
/-- DIV with an immediate (R142). -/
def execDivImm (d a : Reg) (i : BitVec 10) (ext : List LWord) (s : State) : Result := aluI fnDiv 20 d a i ext s

/-- What DIVN computes (R142). -/
def fnDivn (a b : DWord) : DWord := (divRem true a b).1
/-- DIVN (R142). -/
def execDivn (d a b : Reg) (p : Reg3) (s : State) : Result := aluR fnDivn 20 d a b p s
/-- DIVN with an immediate (R142). -/
def execDivnImm (d a : Reg) (i : BitVec 10) (ext : List LWord) (s : State) : Result := aluI fnDivn 20 d a i ext s

/-- What REM computes (R142). -/
def fnRem (a b : DWord) : DWord := (divRem false a b).2
/-- REM (R142). -/
def execRem (d a b : Reg) (p : Reg3) (s : State) : Result := aluR fnRem 20 d a b p s
/-- REM with an immediate (R142). -/
def execRemImm (d a : Reg) (i : BitVec 10) (ext : List LWord) (s : State) : Result := aluI fnRem 20 d a i ext s

/-- What REMN computes (R142). -/
def fnRemn (a b : DWord) : DWord := (divRem true a b).2
/-- REMN (R142). -/
def execRemn (d a b : Reg) (p : Reg3) (s : State) : Result := aluR fnRemn 20 d a b p s
/-- REMN with an immediate (R142). -/
def execRemnImm (d a : Reg) (i : BitVec 10) (ext : List LWord) (s : State) : Result := aluI fnRemn 20 d a i ext s

/-- What ADDW computes (R141). -/
def fnAddw (a b : DWord) : DWord := wx (a.setWidth 32 + b.setWidth 32)
/-- ADDW (R141). -/
def execAddw (d a b : Reg) (p : Reg3) (s : State) : Result := aluR fnAddw 1 d a b p s
/-- ADDW with an immediate (R141). -/
def execAddwImm (d a : Reg) (i : BitVec 10) (ext : List LWord) (s : State) : Result := aluI fnAddw 1 d a i ext s

/-- What SUBW computes (R141). -/
def fnSubw (a b : DWord) : DWord := wx (a.setWidth 32 - b.setWidth 32)
/-- SUBW (R141). -/
def execSubw (d a b : Reg) (p : Reg3) (s : State) : Result := aluR fnSubw 1 d a b p s
/-- SUBW with an immediate (R141). -/
def execSubwImm (d a : Reg) (i : BitVec 10) (ext : List LWord) (s : State) : Result := aluI fnSubw 1 d a i ext s

/-- What MULW computes (R141). -/
def fnMulw (a b : DWord) : DWord := wx (a.setWidth 32 * b.setWidth 32)
/-- MULW (R141). -/
def execMulw (d a b : Reg) (p : Reg3) (s : State) : Result := aluR fnMulw 3 d a b p s
/-- MULW with an immediate (R141). -/
def execMulwImm (d a : Reg) (i : BitVec 10) (ext : List LWord) (s : State) : Result := aluI fnMulw 3 d a i ext s

/-- What AND computes (R141). -/
def fnAnd (a b : DWord) : DWord := a &&& b
/-- AND (R141). -/
def execAnd (d a b : Reg) (p : Reg3) (s : State) : Result := aluR fnAnd 1 d a b p s
/-- AND with an immediate (R141). -/
def execAndImm (d a : Reg) (i : BitVec 10) (ext : List LWord) (s : State) : Result := aluI fnAnd 1 d a i ext s

/-- What OR computes (R141). -/
def fnOr (a b : DWord) : DWord := a ||| b
/-- OR (R141). -/
def execOr (d a b : Reg) (p : Reg3) (s : State) : Result := aluR fnOr 1 d a b p s
/-- OR with an immediate (R141). -/
def execOrImm (d a : Reg) (i : BitVec 10) (ext : List LWord) (s : State) : Result := aluI fnOr 1 d a i ext s

/-- What XOR computes (R141). -/
def fnXor (a b : DWord) : DWord := a ^^^ b
/-- XOR (R141). -/
def execXor (d a b : Reg) (p : Reg3) (s : State) : Result := aluR fnXor 1 d a b p s
/-- XOR with an immediate (R141). -/
def execXorImm (d a : Reg) (i : BitVec 10) (ext : List LWord) (s : State) : Result := aluI fnXor 1 d a i ext s

/-- What ANDN computes (R141). -/
def fnAndn (a b : DWord) : DWord := a &&& ~~~b
/-- ANDN (R141). -/
def execAndn (d a b : Reg) (p : Reg3) (s : State) : Result := aluR fnAndn 1 d a b p s
/-- ANDN with an immediate (R141). -/
def execAndnImm (d a : Reg) (i : BitVec 10) (ext : List LWord) (s : State) : Result := aluI fnAndn 1 d a i ext s

/-- What SHL computes (R141). -/
def fnShl (a b : DWord) : DWord := a <<< (b.toNat % 64)
/-- SHL (R141). -/
def execShl (d a b : Reg) (p : Reg3) (s : State) : Result := aluR fnShl 1 d a b p s
/-- SHL with an immediate (R141). -/
def execShlImm (d a : Reg) (i : BitVec 10) (ext : List LWord) (s : State) : Result := aluI fnShl 1 d a i ext s

/-- What SHR computes (R141). -/
def fnShr (a b : DWord) : DWord := a >>> (b.toNat % 64)
/-- SHR (R141). -/
def execShr (d a b : Reg) (p : Reg3) (s : State) : Result := aluR fnShr 1 d a b p s
/-- SHR with an immediate (R141). -/
def execShrImm (d a : Reg) (i : BitVec 10) (ext : List LWord) (s : State) : Result := aluI fnShr 1 d a i ext s

/-- What SHRA computes (R141). -/
def fnShra (a b : DWord) : DWord := a.sshiftRight (b.toNat % 64)
/-- SHRA (R141). -/
def execShra (d a b : Reg) (p : Reg3) (s : State) : Result := aluR fnShra 1 d a b p s
/-- SHRA with an immediate (R141). -/
def execShraImm (d a : Reg) (i : BitVec 10) (ext : List LWord) (s : State) : Result := aluI fnShra 1 d a i ext s

/-- What SHLW computes (R141). -/
def fnShlw (a b : DWord) : DWord := wx (a.setWidth 32 <<< (b.toNat % 32))
/-- SHLW (R141). -/
def execShlw (d a b : Reg) (p : Reg3) (s : State) : Result := aluR fnShlw 1 d a b p s
/-- SHLW with an immediate (R141). -/
def execShlwImm (d a : Reg) (i : BitVec 10) (ext : List LWord) (s : State) : Result := aluI fnShlw 1 d a i ext s

/-- What SHRW computes (R141). -/
def fnShrw (a b : DWord) : DWord := wx (a.setWidth 32 >>> (b.toNat % 32))
/-- SHRW (R141). -/
def execShrw (d a b : Reg) (p : Reg3) (s : State) : Result := aluR fnShrw 1 d a b p s
/-- SHRW with an immediate (R141). -/
def execShrwImm (d a : Reg) (i : BitVec 10) (ext : List LWord) (s : State) : Result := aluI fnShrw 1 d a i ext s

/-- What SHRAW computes (R141). -/
def fnShraw (a b : DWord) : DWord := wx ((a.setWidth 32).sshiftRight (b.toNat % 32))
/-- SHRAW (R141). -/
def execShraw (d a b : Reg) (p : Reg3) (s : State) : Result := aluR fnShraw 1 d a b p s
/-- SHRAW with an immediate (R141). -/
def execShrawImm (d a : Reg) (i : BitVec 10) (ext : List LWord) (s : State) : Result := aluI fnShraw 1 d a i ext s

/-- What MIN computes (R141). -/
def fnMin (a b : DWord) : DWord := if a.slt b then a else b
/-- MIN (R141). -/
def execMin (d a b : Reg) (p : Reg3) (s : State) : Result := aluR fnMin 1 d a b p s
/-- MIN with an immediate (R141). -/
def execMinImm (d a : Reg) (i : BitVec 10) (ext : List LWord) (s : State) : Result := aluI fnMin 1 d a i ext s

/-- What MAX computes (R141). -/
def fnMax (a b : DWord) : DWord := if a.slt b then b else a
/-- MAX (R141). -/
def execMax (d a b : Reg) (p : Reg3) (s : State) : Result := aluR fnMax 1 d a b p s
/-- MAX with an immediate (R141). -/
def execMaxImm (d a : Reg) (i : BitVec 10) (ext : List LWord) (s : State) : Result := aluI fnMax 1 d a i ext s

/-- What MINN computes (R141). -/
def fnMinn (a b : DWord) : DWord := if a.ult b then a else b
/-- MINN (R141). -/
def execMinn (d a b : Reg) (p : Reg3) (s : State) : Result := aluR fnMinn 1 d a b p s
/-- MINN with an immediate (R141). -/
def execMinnImm (d a : Reg) (i : BitVec 10) (ext : List LWord) (s : State) : Result := aluI fnMinn 1 d a i ext s

/-- What MAXN computes (R141). -/
def fnMaxn (a b : DWord) : DWord := if a.ult b then b else a
/-- MAXN (R141). -/
def execMaxn (d a b : Reg) (p : Reg3) (s : State) : Result := aluR fnMaxn 1 d a b p s
/-- MAXN with an immediate (R141). -/
def execMaxnImm (d a : Reg) (i : BitVec 10) (ext : List LWord) (s : State) : Result := aluI fnMaxn 1 d a i ext s

/-- What BFX computes (R143). -/
def fnBfx (a b : DWord) : DWord := bitField a b
/-- BFX (R143). -/
def execBfx (d a b : Reg) (p : Reg3) (s : State) : Result := aluR fnBfx 1 d a b p s
/-- BFX with an immediate (R143). -/
def execBfxImm (d a : Reg) (i : BitVec 10) (ext : List LWord) (s : State) : Result := aluI fnBfx 1 d a i ext s

/-- CLZ (R141). -/
def execClz (d a : Reg) (p : Reg3) (s : State) : Result := aluR (fun x _ => clz64 x) 1 d a 0 p s
/-- POPC (R141). -/
def execPopc (d a : Reg) (p : Reg3) (s : State) : Result := aluR (fun x _ => popc64 x) 1 d a 0 p s

/-- BFI (R143). -/
def execBfi (d a b : Reg) (p : Reg3) (s : State) : Result := aluR (bitInsert (s.me.readG d)) 1 d a b p s
/-- BFI with an immediate (R143). -/
def execBfiImm (d a : Reg) (i : BitVec 10) (ext : List LWord) (s : State) : Result :=
  aluI (bitInsert (s.me.readG d)) 1 d a i ext s

/-- SEL: the guard field selects (R143). -/
def execSel (d a b : Reg) (p : Reg3) (s : State) : Result :=
  .next (s.write 1 (.g d (if s.me.readP p then s.me.readG a else s.me.readG b)))

/-- A test on words of any width (Table COR-4). -/
def condTest {w : Nat} (k : Cond) (a b : BitVec w) : Bool :=
  match k with
  | .eq => a == b
  | .ne => a != b
  | .lt => a.slt b
  | .ge => b.sle a
  | .ltn => a.ult b
  | .gen => b.ule a

/-- A CMP test, on 64 or on the low 32 bits (Table COR-4). -/
def cmpTest (k : Cond) (w : Bool) (a b : DWord) : Bool :=
  if w then condTest k (a.setWidth 32) (b.setWidth 32) else condTest k a b

/-- CMP (R144). -/
def execCmp (p : Reg3) (k : Cond) (w : Bool) (a b : Reg) (s : State) : Result :=
  .next (s.write 1 (.p p (cmpTest k w (s.me.readG a) (s.me.readG b))))
/-- CMP with an immediate (R144). -/
def execCmpImm (p : Reg3) (k : Cond) (w : Bool) (a : Reg) (i : BitVec 8) (ext : List LWord) (s : State) : Result :=
  .next (s.write 1 (.p p (cmpTest k w (s.me.readG a) (imm i ext))))

/-- The functions of PLOG (R145). -/
def plogFn (f : PFn) (a b : Bool) : Bool :=
  match f with
  | .and => a && b
  | .or => a || b
  | .xor => a != b
  | .andn => a && !b

/-- PLOG (R145). -/
def execPlog (d a b : Reg3) (f : PFn) (n : Bool) (s : State) : Result :=
  .next (s.write 1 (.p d (plogFn f (s.me.readP a) (s.me.readP b) != n)))

/-- STG: a staging register takes ga at the bound (R39, R146). -/
def execStg (e : Eng) (x : BitVec 4) (a : Reg) (s : State) : Result := .next (s.write 1 (.stg e x (s.me.readG a)))
/-- RSTG: a copy of a staging register (R39, R146). -/
def execRstg (d : Reg) (e : Eng) (x : BitVec 4) (s : State) : Result :=
  .next (s.write 1 (.g d (s.myTile.readStg s.bun.strand e x)))

/-- The values of GETI (Table COR-5); those of a launch are zero where none runs. -/
def getiValue (s : State) (k : GetiSel) : Nat :=
  let t := s.bun.tile
  let l := s.launchOf t
  match k with
  | .strand => s.bun.strand
  | .tile => t % 256
  | .cluster => t % 256 / 8
  | .die => dieOf t
  | .package => s.coord.toNat
  | .wuid => match l with | none => 0 | some l => l.unit
  | .wucount => match l with | none => 0 | some l => l.desc.wucount
  | .cycle => s.cc
  | .superstep => match l with | none => 0 | some l => l.supers
  | .launch => match l with | none => 0 | some l => l.desc.launchid.toNat
  | .panel => posOf t + (if s.me.gang == .ganged then 8 else 0)

/-- GETI (R147). -/
def execGeti (d : Reg) (k : GetiSel) (s : State) : Result := .next (s.write 1 (.g d (BitVec.ofNat 64 (getiValue s k))))

end Sys2Proof.Machine
end

