-- ==== Sys2Proof/Machine/Vector.lean ====
section
/-! DEFINITION. Class V, vector arithmetic, comparison and reduction (08_vector R166 to R179). -/
namespace Sys2Proof.Machine

/-! ### Forms -/

/-- A register whose active lanes are replaced by results that raise flags (R167, R170): lanes are below `n`. -/
def flaggedV (w n : Nat) (old : VWord) (m : MWord) (f : Nat → Flagged Nat) : Flagged VWord :=
  let rs : List (Flagged (BitVec w)) := (List.range (4096 / w)).map fun i =>
    if i < n && m.getLsbD i then (let r := f i; (BitVec.ofNat w r.1, r.2)) else (laneAt w old i, .zero)
  (BitVec.ofNat 4096 (ofLanes w (rs.map (·.1))), Flags.all (rs.map (·.2)))

/-- A V op on bits (R170). -/
def vecOp (t : VType) (bound : Nat) (d a b : Reg) (m : Reg3) (f : BitVec t.width → BitVec t.width → BitVec t.width → BitVec t.width)
    (s : State) : Result :=
  let x := s.me
  .next (s.write bound (.v d (maskedV t.width (x.readV d) (x.readM m) fun i =>
    f (laneAt t.width (x.readV a) i) (laneAt t.width (x.readV b) i) (laneAt t.width (x.readV d) i))))

/-- A V op on codes that raises flags (R170, R173 to R176). -/
def vecFp (t : VType) (bound : Nat) (d a b : Reg) (m : Reg3) (f : FmtV → Nat → Nat → Nat → Flagged Nat) (s : State) : Result :=
  let x := s.me
  let lane (r : Reg) (i : Nat) : Nat := (laneAt t.width (x.readV r) i).toNat
  let r := flaggedV t.width t.lanes (x.readV d) (x.readM m) fun i => f x.fmt (lane a i) (lane b i) (lane d i)
  .next ((s.write bound (.v d r.1)).raise r.2)

/-- The rounding mode of EFR.V (Table NUM-9). -/
def FmtV.mode (v : FmtV) : Rnd := if v.rm = 0 then .rne else if v.rm = 1 then .rtz else if v.rm = 2 then .rdn else .rup

/-- A widening op (R172): source lane i goes to lane i / g of register vd + i mod g. -/
def vecWiden (t : VType) (g : Nat) (acc : Bool) (d a b : Reg) (m : Reg3) (f : Int → Int → Int) (s : State) : Result :=
  let x := s.me
  let w := g * t.width
  let lane (r : Reg) (i : Nat) : Int := (laneAt t.width (x.readV r) i).toInt
  let one (r : Nat) : VWord :=
    let old := x.readV (d + BitVec.ofNat 5 r)
    buildV w (4096 / w) fun j =>
      let i := j * g + r
      if (x.readM m).getLsbD i then
        BitVec.ofInt w (f (lane a i) (lane b i) + if acc then (laneAt w old j).toInt else 0)
      else laneAt w old j
  .next ((List.range g).foldl (fun s r => s.write 3 (.v (d + BitVec.ofNat 5 r) (one r))) s)

/-- Saturate an exact result into w signed bits (Table VEC-3). -/
def satW (w : Nat) (x : Int) : BitVec w := BitVec.ofInt w (max (-(2 ^ (w - 1) : Int)) (min (2 ^ (w - 1) - 1) x))

/-- The shift amount of a lane (Table VEC-3). -/
def laneShift {w : Nat} (b : BitVec w) : Nat := b.toNat % w

/-! ### Integer operations -/

/-- VADD (R170, Table VEC-3). -/
def execVadd (t : VType) (d a b : Reg) (m : Reg3) : State → Result :=
  vecOp t 2 d a b m fun a b _ => a + b
/-- VSUB (R170, Table VEC-3). -/
def execVsub (t : VType) (d a b : Reg) (m : Reg3) : State → Result :=
  vecOp t 2 d a b m fun a b _ => a - b
/-- VADDS (R170, Table VEC-3). -/
def execVadds (t : VType) (d a b : Reg) (m : Reg3) : State → Result :=
  vecOp t 2 d a b m fun a b _ => satW t.width (a.toInt + b.toInt)
/-- VSUBS (R170, Table VEC-3). -/
def execVsubs (t : VType) (d a b : Reg) (m : Reg3) : State → Result :=
  vecOp t 2 d a b m fun a b _ => satW t.width (a.toInt - b.toInt)
/-- VMUL (R170, Table VEC-3). -/
def execVmul (t : VType) (d a b : Reg) (m : Reg3) : State → Result :=
  vecOp t 2 d a b m fun a b _ => a * b
/-- VMULH (R170, Table VEC-3). -/
def execVmulh (t : VType) (d a b : Reg) (m : Reg3) : State → Result :=
  vecOp t 2 d a b m fun a b _ => BitVec.ofInt t.width (a.toInt * b.toInt / 2 ^ t.width)
/-- VMAD (R170, Table VEC-3). -/
def execVmad (t : VType) (d a b : Reg) (m : Reg3) : State → Result :=
  vecOp t 2 d a b m fun a b d => d + a * b
/-- VMIN (R170, Table VEC-3). -/
def execVmin (t : VType) (d a b : Reg) (m : Reg3) : State → Result :=
  vecOp t 2 d a b m fun a b _ => if a.slt b then a else b
/-- VMAX (R170, Table VEC-3). -/
def execVmax (t : VType) (d a b : Reg) (m : Reg3) : State → Result :=
  vecOp t 2 d a b m fun a b _ => if a.slt b then b else a
/-- VMINN (R170, Table VEC-3). -/
def execVminn (t : VType) (d a b : Reg) (m : Reg3) : State → Result :=
  vecOp t 2 d a b m fun a b _ => if a.ult b then a else b
/-- VMAXN (R170, Table VEC-3). -/
def execVmaxn (t : VType) (d a b : Reg) (m : Reg3) : State → Result :=
  vecOp t 2 d a b m fun a b _ => if a.ult b then b else a
/-- VABS: the most negative value stays (R171). -/
def execVabs (t : VType) (d a : Reg) (m : Reg3) : State → Result :=
  vecOp t 2 d a 0 m fun a _ _ => if a.msb then -a else a
/-- VAND (R170, R171, Table VEC-3). -/
def execVand (t : VType) (d a b : Reg) (m : Reg3) : State → Result :=
  vecOp t 2 d a b m fun a b _ => a &&& b
/-- VOR (R170, R171, Table VEC-3). -/
def execVor (t : VType) (d a b : Reg) (m : Reg3) : State → Result :=
  vecOp t 2 d a b m fun a b _ => a ||| b
/-- VXOR (R170, R171, Table VEC-3). -/
def execVxor (t : VType) (d a b : Reg) (m : Reg3) : State → Result :=
  vecOp t 2 d a b m fun a b _ => a ^^^ b
/-- VSHL (R170, R171, Table VEC-3). -/
def execVshl (t : VType) (d a b : Reg) (m : Reg3) : State → Result :=
  vecOp t 2 d a b m fun a b _ => a <<< laneShift b
/-- VSHR (R170, R171, Table VEC-3). -/
def execVshr (t : VType) (d a b : Reg) (m : Reg3) : State → Result :=
  vecOp t 2 d a b m fun a b _ => a >>> laneShift b
/-- VSHRA (R170, R171, Table VEC-3). -/
def execVshra (t : VType) (d a b : Reg) (m : Reg3) : State → Result :=
  vecOp t 2 d a b m fun a b _ => a.sshiftRight (laneShift b)

/-! ### Widening operations -/

/-- VADDW (R172). -/
def execVaddw (t : VType) (d a b : Reg) (m : Reg3) : State → Result :=
  vecWiden t 2 false d a b m fun a b => a + b
/-- VMULW (R172). -/
def execVmulw (t : VType) (d a b : Reg) (m : Reg3) : State → Result :=
  vecWiden t 2 false d a b m fun a b => a * b
/-- VMULQ (R172). -/
def execVmulq (t : VType) (d a b : Reg) (m : Reg3) : State → Result :=
  vecWiden t 4 false d a b m fun a b => a * b
/-- VMADQ (R172). -/
def execVmadq (t : VType) (d a b : Reg) (m : Reg3) : State → Result :=
  vecWiden t 4 true d a b m fun a b => a * b

/-! ### Floating-point operations -/

/-- VFADD (R173). -/
def execVfadd (t : VType) (d a b : Reg) (m : Reg3) : State → Result :=
  vecFp t 4 d a b m fun v a b _ => fpAdd (precOf t) v.mode a b
/-- VFSUB (R173). -/
def execVfsub (t : VType) (d a b : Reg) (m : Reg3) : State → Result :=
  vecFp t 4 d a b m fun v a b _ => fpSub (precOf t) v.mode a b
/-- VFMUL (R173). -/
def execVfmul (t : VType) (d a b : Reg) (m : Reg3) : State → Result :=
  vecFp t 4 d a b m fun v a b _ => fpMul (precOf t) v.mode a b
/-- VFMA (R173). -/
def execVfma (t : VType) (d a b : Reg) (m : Reg3) : State → Result :=
  vecFp t 4 d a b m fun v a b d => fpFma (precOf t) v.mode a b d
/-- VFMIN (R174). -/
def execVfmin (t : VType) (d a b : Reg) (m : Reg3) : State → Result :=
  vecFp t 2 d a b m fun _ a b _ => fpPick (precOf t) false a b
/-- VFMAX (R174). -/
def execVfmax (t : VType) (d a b : Reg) (m : Reg3) : State → Result :=
  vecFp t 2 d a b m fun _ a b _ => fpPick (precOf t) true a b
/-- VFABS (R174). -/
def execVfabs (t : VType) (d a : Reg) (m : Reg3) : State → Result :=
  vecFp t 2 d a 0 m fun _ a _ _ => fpAbs (precOf t) a
/-- VFNEG (R174). -/
def execVfneg (t : VType) (d a : Reg) (m : Reg3) : State → Result :=
  vecFp t 2 d a 0 m fun _ a _ _ => fpNeg (precOf t) a
/-- VFRCP (R175). -/
def execVfrcp (t : VType) (d a : Reg) (m : Reg3) : State → Result :=
  vecFp t 8 d a 0 m fun v a _ _ => fpRcp (precOf t) v.mode a
/-- VFRSQ (R175). -/
def execVfrsq (t : VType) (d a : Reg) (m : Reg3) : State → Result :=
  vecFp t 8 d a 0 m fun v a _ _ => fpRsq (precOf t) v.mode a
/-- VFEXP2 (R175). -/
def execVfexp2 (t : VType) (d a : Reg) (m : Reg3) : State → Result :=
  vecFp t 12 d a 0 m fun v a _ _ => fpExp2 (precOf t) v.mode a
/-- VFLOG2 (R175). -/
def execVflog2 (t : VType) (d a : Reg) (m : Reg3) : State → Result :=
  vecFp t 12 d a 0 m fun v a _ _ => fpLog2 (precOf t) v.mode a

/-! ### Log elements -/

/-- VLMUL (R176). -/
def execVlmul (t : VType) (d a b : Reg) (m : Reg3) : State → Result :=
  vecFp t 2 d a b m fun v a b _ => (v.log t).mul a b
/-- VLRCP (R176). -/
def execVlrcp (t : VType) (d a : Reg) (m : Reg3) : State → Result :=
  vecFp t 2 d a 0 m fun v a _ _ => (v.log t).rcp a

/-! ### Compare and select -/

/-- A test by type (R177): signed or natural integers; IEEE order, where a NaN makes every test but ne false and a
signalling one raises NV; log codes by value, where NaR does the same and raises nothing. -/
def laneTest (v : FmtV) (t : VType) (k : Cond) (a b : Nat) : Flagged Bool :=
  if t.isInt then (condTest k (BitVec.ofNat t.width a) (BitVec.ofNat t.width b), .zero)
  else
    let cmp (bad lt eq : Bool) : Bool := match k with
      | .eq => !bad && eq
      | .ne => bad || !eq
      | .lt | .ltn => !bad && lt
      | .ge | .gen => !bad && !lt
    if t.isFp then
      let x := fpRead (precOf t) a
      let y := fpRead (precOf t) b
      (cmp (x.isNaN || y.isNaN) (x.lt y) (x.eq y), fpSig [x, y])
    else
      let f := v.log t
      (cmp (a == f.nar || b == f.nar) (f.ord a < f.ord b) (f.ord a == f.ord b), .zero)

/-- VCMP (R177). -/
def execVcmp (t : VType) (d : Reg3) (k : Cond) (a b : Reg) (s : State) : Result :=
  let x := s.me
  let r := (List.range t.lanes).map fun i =>
    laneTest x.fmt t k (laneAt t.width (x.readV a) i).toNat (laneAt t.width (x.readV b) i).toNat
  .next ((s.write 2 (.m d (BitVec.ofNat 1024 (ofLanes 1 (r.map fun y => if y.1 then 1#1 else 0#1))))).raise
    (Flags.all (r.map (·.2))))

/-- VSEL: the mask selects (R178). -/
def execVsel (t : VType) (d a b : Reg) (m : Reg3) (s : State) : Result :=
  let x := s.me
  .next (s.write 2 (.v d (maskedV t.width (x.readV b) (x.readM m) fun i => laneAt t.width (x.readV a) i)))

/-! ### Reductions -/

/-- One level of the tree (R179): pairs combine, and an absent node passes its partner. -/
def treeLevel {α : Type} (f : α → α → Flagged α) : List (Option α) → Flagged (List (Option α))
  | x :: y :: l =>
    let r := treeLevel f l
    match x, y with
    | none, y => (y :: r.1, r.2)
    | x, none => (x :: r.1, r.2)
    | some x, some y => let c := f x y; (some c.1 :: r.1, c.2.or r.2)
  | l => (l, .zero)

/-- The tree over n levels. -/
def tree {α : Type} (f : α → α → Flagged α) : Nat → List (Option α) → Flagged (List (Option α))
  | 0, l => (l, .zero)
  | n + 1, l => let a := treeLevel f l; let b := tree f n a.1; (b.1, a.2.or b.2)

/-- A reduction (R179, Table VEC-7): integers as i32, floating point in its own format. -/
def reduce (t : VType) (d a : Reg) (m : Reg3) (fi : Word → Word → Word) (fp : FmtV → Nat → Nat → Flagged Nat) (unitI : Int) (unitF : Nat)
    (s : State) : Result :=
  let x := s.me
  let lane (i : Nat) : BitVec t.width := laneAt t.width (x.readV a) i
  let nodes {α : Type} (f : Nat → α) : List (Option α) :=
    (List.range t.lanes).map fun i => if (x.readM m).getLsbD i then some (f i) else none
  let r : Flagged VWord :=
    if t.isFp then
      let y := tree (fp x.fmt) t.lanes.log2 (nodes fun i => (lane i).toNat)
      (BitVec.ofNat 4096 ((y.1.headD none).getD unitF), y.2)
    else
      let y := tree (fun a b => (fi a b, .zero)) t.lanes.log2 (nodes fun i => BitVec.ofInt 32 (lane i).toInt)
      (((y.1.headD none).getD (BitVec.ofInt 32 unitI)).setWidth 4096, .zero)
  .next ((s.write 10 (.v d r.1)).raise r.2)

/-- VREDS (R179). -/
def execVreds (t : VType) (d a : Reg) (m : Reg3) : State → Result :=
  reduce t d a m (· + ·) (fun v => fpAdd (precOf t) v.mode) 0 0
/-- VREDX (R179). -/
def execVredx (t : VType) (d a : Reg) (m : Reg3) : State → Result :=
  reduce t d a m (fun x y => if x.slt y then y else x) (fun _ => fpPick (precOf t) true) (-(2 ^ (t.width - 1) : Int))
    (fpInf (precOf t) true)
/-- VREDN (R179). -/
def execVredn (t : VType) (d a : Reg) (m : Reg3) : State → Result :=
  reduce t d a m (fun x y => if x.slt y then x else y) (fun _ => fpPick (precOf t) false) (2 ^ (t.width - 1) - 1)
    (fpInf (precOf t) false)

end Sys2Proof.Machine
end

