-- ==== Sys2Proof/Machine/VectorMove.lean ====
section
/-! DEFINITION. Class X, vector moves, scratchpad loads and stores, conversion and quantisation (08_vector R180 to R191). -/
namespace Sys2Proof.Machine

/-! ### Addresses of lanes -/

/-- The byte address of a lane under unit stride (R180). -/
def unitAddr (t : VType) (ea : DWord) (i : Nat) : DWord := ea + BitVec.ofNat 64 (i * t.width / 8)
/-- The byte address of a lane under a register stride (R180). -/
def strideAddr (ea st : DWord) (i : Nat) : DWord := ea + BitVec.ofNat 64 i * st

/-- Addresses of a VLD or VST (R180). -/
def laneAddr (t : VType) (b g : Reg) (ext : List LWord) (s : State) : Nat → DWord :=
  let ea := s.me.readG b + offsetExt ext
  if g = 0 then unitAddr t ea else strideAddr ea (s.me.readG g)

/-- Addresses of a VGTH or VSCT (R182). -/
def indexAddr (t : VType) (b x : Reg) (s : State) (i : Nat) : DWord :=
  s.me.readG b + BitVec.ofNat 64 ((laneAt t.width (s.me.readV x) i).toNat * (t.width / 8))

/-- The active lanes of a type. -/
def activeLanes (t : VType) (m : MWord) : List Nat := (List.range t.lanes).filter fun i => m.getLsbD i

/-- The checks of a vector access (R180): the first active lane that fails, by alignment or by range. -/
def vecCheck (t : VType) (m : Reg3) (addr : Nat → DWord) (s : State) : Check :=
  let n := max 1 (t.width / 8)
  match (activeLanes t (s.me.readM m)).find? fun i => !((addr i).toNat % n == 0 && (addr i).toNat + n ≤ scratchSize) with
  | none => .ok
  | some i => scratchCheck (addr i) n n

/-- The code of a lane in scratchpad. -/
def laneRead (t : VType) (x : Tile) (a : DWord) (i : Nat) : Nat :=
  if t.width = 4 then (x.readNat a.toNat 1 / if i % 2 = 0 then 1 else 16) % 16 else x.readNat a.toNat (t.width / 8)

/-- A vector load (R180, R182). -/
def vecLoad (t : VType) (bound : Nat) (v : Reg) (m : Reg3) (addr : Nat → DWord) (s : State) : State :=
  s.write bound (.v v (maskedV t.width (s.me.readV v) (s.me.readM m) fun i =>
    BitVec.ofNat t.width (laneRead t s.myTile (addr i) i)))

/-- Adjoining bytes as one write. -/
def runs : List (Nat × Byte) → List (Nat × List Byte)
  | [] => []
  | (a, b) :: l => match runs l with
    | (c, bs) :: r => if c = a + 1 then (a, b :: bs) :: r else (a, [b]) :: (c, bs) :: r
    | [] => [(a, [b])]

/-- The writes of active lanes of a byte or more, in lane order (R180, R182). -/
def laneWrites (t : VType) (s : State) (v : Reg) (m : Reg3) (addr : Nat → DWord) : List Write :=
  (runs ((activeLanes t (s.me.readM m)).flatMap fun i =>
    (leBytes (t.width / 8) (laneAt t.width (s.me.readV v) i).toNat).zipIdx.map fun b =>
      (s.myTile.phys ((addr i).toNat + b.2), b.1))).map fun r => .mem r.1 r.2

/-- The writes of active 4-bit lanes: an inactive nibble of a byte keeps its value (R180). -/
def nibbleWrites (s : State) (t : VType) (v : Reg) (m : Reg3) (addr : Nat → DWord) : List Write :=
  let lanes := activeLanes t (s.me.readM m)
  let full := lanes.filter fun i => i % 2 = 0 && (s.me.readM m).getLsbD (i + 1)
  let half := lanes.filter fun i => !(if i % 2 = 0 then (s.me.readM m).getLsbD (i + 1) else (s.me.readM m).getLsbD (i - 1))
  ((runs (full.map fun i => (s.myTile.phys (addr i).toNat, laneAt 8 (s.me.readV v) (i / 2)))).map fun r => .mem r.1 r.2) ++
  half.map fun i => .nib (s.myTile.phys (addr i).toNat) (i % 2 = 1) (laneAt 4 (s.me.readV v) i)

/-- A vector store (R180, R181, R182). -/
def vecStore (t : VType) (v : Reg) (m : Reg3) (addr : Nat → DWord) (s : State) : State :=
  s.each (if t.width = 4 then nibbleWrites s t v m addr else laneWrites t s v m addr) fun s w => s.write 1 w

/-- VLD (R180). -/
def execVld (t : VType) (v b g : Reg) (m : Reg3) (ext : List LWord) : State → Result :=
  guarded (fun s => vecCheck t m (laneAddr t b g ext s) s) fun s => vecLoad t 6 v m (laneAddr t b g ext s) s
/-- VST (R180). -/
def execVst (t : VType) (v b g : Reg) (m : Reg3) (ext : List LWord) : State → Result :=
  guarded (fun s => vecCheck t m (laneAddr t b g ext s) s) fun s => vecStore t v m (laneAddr t b g ext s) s
/-- VGTH (R182). -/
def execVgth (t : VType) (v b x : Reg) (m : Reg3) : State → Result :=
  guarded (fun s => vecCheck t m (indexAddr t b x s) s) fun s => vecLoad t 12 v m (indexAddr t b x s) s
/-- VSCT (R182). -/
def execVsct (t : VType) (v b x : Reg) (m : Reg3) : State → Result :=
  guarded (fun s => vecCheck t m (indexAddr t b x s) s) fun s => vecStore t v m (indexAddr t b x s) s

/-! ### Register moves -/

/-- VBC (R183). -/
def execVbc (t : VType) (d a : Reg) (m : Reg3) (s : State) : Result :=
  .next (s.write 2 (.v d (maskedV t.width (s.me.readV d) (s.me.readM m) fun _ => (s.me.readG a).setWidth t.width)))

/-- VGET: integers are sign-extended, other types zero-extended (R183). -/
def execVget (t : VType) (d a : Reg) (l : BitVec 8) (ext : List LWord) (s : State) : Result :=
  let x := laneAt t.width (s.me.readV a) (laneValue l ext)
  .next (s.write 2 (.g d (if t.isInt then x.signExtend 64 else x.setWidth 64)))

/-- VPUT (R183). -/
def execVput (t : VType) (d a : Reg) (l : BitVec 8) (ext : List LWord) (s : State) : Result :=
  .next (s.write 2 (.v d (buildV t.width t.lanes fun i =>
    if i = laneValue l ext then (s.me.readG a).setWidth t.width else laneAt t.width (s.me.readV d) i)))

/-- VPRM (R184). -/
def execVprm (t : VType) (d a b : Reg) (m : Reg3) (s : State) : Result :=
  .next (s.write 4 (.v d (maskedV t.width (s.me.readV d) (s.me.readM m) fun i =>
    laneAt t.width (s.me.readV a) ((laneAt t.width (s.me.readV b) i).toNat % t.lanes))))

/-- VTRP (R185). -/
def execVtrp (t : VType) (g : BitVec 3) (s : State) : Result :=
  let reg (r : Nat) : Reg := BitVec.ofNat 5 (8 * g.toNat + r)
  .next ((List.range 8).foldl (fun s' r => s'.write 8 (.v (reg r) (buildV t.width t.lanes fun i =>
    laneAt t.width (s.me.readV (reg (i % 8))) (i / 8 * 8 + r)))) s)

/-- VIOTA (R186). -/
def execViota (t : VType) (d a : Reg) (m : Reg3) (s : State) : Result :=
  .next (s.write 2 (.v d (maskedV t.width (s.me.readV d) (s.me.readM m) fun i =>
    (s.me.readG a + BitVec.ofNat 64 i).setWidth t.width)))

/-- VEXT (R186). -/
def execVext (t : VType) (d a b : Reg) (m : Reg3) (s : State) : Result :=
  .next (s.write 4 (.v d (maskedV t.width (s.me.readV d) (s.me.readM m) fun i =>
    if i < t.lanes / 2 then laneAt t.width (s.me.readV a) i else laneAt t.width (s.me.readV b) (i - t.lanes / 2))))

/-- VCMPR: the selected lanes of va, then lanes of vb (R186). -/
def execVcmpr (t : VType) (d a b : Reg) (m : Reg3) (s : State) : Result :=
  let kept := (activeLanes t (s.me.readM m)).map (laneAt t.width (s.me.readV a))
  .next (s.write 4 (.v d (BitVec.ofNat 4096 (ofLanes t.width
    (kept ++ ((List.range t.lanes).drop kept.length).map (laneAt t.width (s.me.readV b)))))))

/-- VMOVM (R187). -/
def execVmovm (toMask : Bool) (v : Reg) (m : Reg3) (s : State) : Result :=
  .next (s.write 2 (if toMask then .m m ((s.me.readV v).setWidth 1024) else .v v ((s.me.readM m).setWidth 4096)))

/-! ### Conversion, quantisation, kindling -/

/-- VCVT (R188). -/
def execVcvt (c : VType) (d a : Reg) (t : VType) (r : Rnd) (m : Reg3) (s : State) : Result :=
  let x := s.me
  let v := flaggedV t.width (min c.lanes t.lanes) (x.readV d) (x.readM m) fun i =>
    convLane x.fmt c t r (laneAt c.width (x.readV a) i).toNat
  .next ((s.write 4 (.v d v.1)).raise v.2)

/-- The floating-point side of VQNT and VDQNT. -/
def quantType (bf : Bool) : VType := if bf then .bf16 else .f32

/-- The codes of block b of a floating-point register (R189). -/
def blockCodes (p : VType) (x : VWord) (b : Nat) : List Nat :=
  (List.range 32).map fun j => (laneAt p.width x (32 * b + j)).toNat

/-- VQNT (R189). -/
def execVqnt (t : VType) (d a c : Reg) (bf : Bool) (s : State) : Result :=
  let x := s.me
  let p := quantType bf
  let n := p.lanes
  let f := x.fmt.log t
  let scale := (List.range (n / 32)).map fun b => f.blockExp (precOf p) (blockCodes p (x.readV a) b)
  let v := flaggedV t.width n (x.readV d) (BitVec.allOnes 1024) fun i =>
    f.quantise (precOf p) (scale.getD (i / 32) none) (laneAt p.width (x.readV a) i).toNat
  let sc := buildV 32 128 fun b => if b < n / 32 then f.blockScale (scale.getD b none) else laneAt 32 (x.readV c) b
  .next (((s.write 8 (.v d v.1)).write 8 (.v c sc)).raise v.2)

/-- VDQNT (R190). -/
def execVdqnt (t : VType) (d a c : Reg) (bf : Bool) (s : State) : Result :=
  let x := s.me
  let p := quantType bf
  let v := flaggedV p.width p.lanes (x.readV d) (BitVec.allOnes 1024) fun i =>
    (x.fmt.log t).dequantise (precOf p) (laneAt 32 (x.readV c) (i / 32)) (laneAt t.width (x.readV a) i).toNat
  .next ((s.write 6 (.v d v.1)).raise v.2)

/-- VRND (R191, R72). -/
def execVrnd (d k b : Reg) (m : Reg3) (s : State) : Result :=
  .next (s.write 8 (.v d (maskedV 32 (s.me.readV d) (s.me.readM m) fun i =>
    kindle (s.me.readG k) (s.me.readG b + BitVec.ofNat 64 i))))

end Sys2Proof.Machine
end

