-- ==== Sys2Proof/Machine/Checks.lean ====
section
/-! DEFINITION. The checks of a whole bundle before it issues (02_bundles R32, R33, R36, R37): the check of each word, the
registers and scratchpad bytes that it names, and what is pending on them. -/
namespace Sys2Proof.Machine

/-- The check that a word makes before its bundle issues: that of its meaning. -/
def checkOf (i : Instr) (s : State) : Check :=
  match i with
  | .ldb _ b sp i ext | .ldbn _ b sp i ext => memCheck b 1 sp i ext s
  | .ldh _ b sp i ext | .ldhn _ b sp i ext => memCheck b 2 sp i ext s
  | .ldw _ b sp i ext | .ldwn _ b sp i ext => memCheck b 4 sp i ext s
  | .ldd _ b sp i ext => memCheck b 8 sp i ext s
  | .stb _ b sp i ext => memStCheck b 1 sp i ext s
  | .sth _ b sp i ext => memStCheck b 2 sp i ext s
  | .stw _ b sp i ext => memStCheck b 4 sp i ext s
  | .std _ b sp i ext => memStCheck b 8 sp i ext s
  | .jr a => jrCheck a s
  | .lset l g e => loopCheck l (s.me.readG g) e.toNat s
  | .lseti l n e => loopCheck l (n.setWidth 64) e.toNat s
  | .node n => nodeCheck n s
  | .sels g t => selsCheck g t s
  | .halt => haltCheck s
  | .gangEnter => gangEnterCheck s
  | .gangExit => gangExitCheck s
  | .vld t _ b g m ext | .vst t _ b g m ext => vecCheck t m (laneAddr t b g ext s) s
  | .vgth t _ b x m | .vsct t _ b x m => vecCheck t m (indexAddr t b x s) s
  | .afmt _ _ _ _ _ _ _ sp => afmtCheck sp s
  | .wld n _ => wldCheck n s
  | .aswp => aswpCheck s
  | .strm n _ => strmCheck n s
  | .drn n _ o _ => drnCheck n o s
  | .aclr _ _ => slotFree s s.myTile.dFree
  | .agng c => agngCheck c s
  | .dcpy .. | .dunf .. | .dpubInit .. | .dpub .. | .dfil .. | .dgth .. => streamRoom s
  | .qpat n _ | .qldy n _ => qLoadCheck n s
  | .qdom _ => qdomCheck s
  | .qstp n d m => qstpCheck n d m s
  | .qsav | .qrst => qAreaCheck s
  | .qrdv _ _ => qSlot s
  | .rsw a _ w => fabCheck a w s
  | .ram a _ _ w => fabCheck a w s
  | .rld _ a w _ => fabCheck a w s
  | .mlr op type tp _ => mlrCheck op type tp s
  | .rfl .. | .mgrp .. | .caddRemote .. => fabRoom s
  | .cadd a _ _ => caddCheck a s
  | .cwt a b _ => cwtCheck a b s
  | .crd a _ => ctrCheck a s
  | .aarm a _ => arrivalCheck a s
  | .awt a b _ => awtCheck a b s
  | .bar ss sc => barCheck ss sc s
  | .fen m => fenCheck m s
  | .splt a => spltCheck a s
  | .upcf .. | .updm .. | .upmo .. => kilnRoom s
  | .srd _ r => srdCheck r s
  | .swr _ _ => privileged s
  | .tret _ => tretCheck s
  | .tlbi a _ _ all _ => transCheck a none all s
  | .shot a _ n _ all _ => transCheck a (some n.toNat) all s
  | .csav g => csavCheck g s
  | .crst g => crstCheck g s
  | .stop _ _ _ => privileged s
  | .slp g m => slpCheck g m s
  | .sflt _ b _ => sfltCheck b s
  | .nop | .add .. | .addImm .. | .sub .. | .subImm .. | .mul .. | .mulImm .. | .mulh .. | .mulhImm .. | .mulhn ..
  | .mulhnImm .. | .div .. | .divImm .. | .divn .. | .divnImm .. | .rem .. | .remImm .. | .remn .. | .remnImm ..
  | .addw .. | .addwImm .. | .subw .. | .subwImm .. | .mulw .. | .mulwImm .. | .and .. | .andImm .. | .or ..
  | .orImm .. | .xor .. | .xorImm .. | .andn .. | .andnImm .. | .shl .. | .shlImm .. | .shr .. | .shrImm ..
  | .shra .. | .shraImm .. | .shlw .. | .shlwImm .. | .shrw .. | .shrwImm .. | .shraw .. | .shrawImm .. | .min ..
  | .minImm .. | .max .. | .maxImm .. | .minn .. | .minnImm .. | .maxn .. | .maxnImm .. | .clz .. | .popc ..
  | .bfx .. | .bfxImm .. | .bfi .. | .bfiImm .. | .sel .. | .cmp .. | .cmpImm .. | .plog .. | .stg .. | .rstg ..
  | .geti .. | .pref .. | .disc .. | .luse .. | .br .. | .jmp .. | .call .. | .lexit .. | .dly .. | .yield | .trap ..
  | .vadd .. | .vsub .. | .vadds .. | .vsubs .. | .vmul .. | .vmulh .. | .vmad .. | .vmin .. | .vmax .. | .vminn ..
  | .vmaxn .. | .vabs .. | .vand .. | .vor .. | .vxor .. | .vshl .. | .vshr .. | .vshra .. | .vaddw .. | .vmulw ..
  | .vmulq .. | .vmadq .. | .vfadd .. | .vfsub .. | .vfmul .. | .vfma .. | .vfmin .. | .vfmax .. | .vfabs ..
  | .vfneg .. | .vfrcp .. | .vfrsq .. | .vfexp2 .. | .vflog2 .. | .vlmul .. | .vlrcp .. | .vcmp .. | .vsel ..
  | .vreds .. | .vredx .. | .vredn .. | .vbc .. | .vget .. | .vput .. | .vprm .. | .vtrp .. | .vcvt .. | .vqnt ..
  | .vdqnt .. | .vrnd .. | .viota .. | .vext .. | .vcmpr .. | .vmovm .. | .asta .. | .ksa .. | .ksw .. | .kso ..
  | .kclr | .dsta .. | .qsta .. | .rfq .. | .rsta .. | .phs .. | .dgsOn | .dgsOff | .dgsRd .. | .dgsFold ..
  | .upst .. | .pendingWriteComplete .. | .strandSelect .. | .waitSatisfied .. | .takeTrap .. | .overrun ..
  | .extentPlacement .. | .pageWalkComplete .. | .releaseComplete .. | .counterAdd .. | .barrierComplete ..
  | .streamCommandStart .. | .streamCommandComplete .. | .arrival .. | .dunfRow .. | .publishSwap ..
  | .kilnCommandStart .. | .kilnCommandComplete .. | .spltDrain .. | .spltComplete .. | .wldBeat .. | .strmBeat ..
  | .strmRowsFinal .. | .drnBeat .. | .drnOutputFinal .. | .aclrBeat .. | .quiltBeat .. | .quiltStepCycle ..
  | .quiltCommandComplete .. | .fabricQueueArrival .. | .rickAgeDeparture .. | .ringSlotArrival .. | .cordPerform ..
  | .remoteLoadRequest .. | .flitCrcFailure .. | .mgrpComplete .. | .mlrJoin .. | .mlrJoinDeadline ..
  | .mlrComplete .. | .tlbiComplete .. | .shootdownArrival .. | .holderCountUpdate .. | .shotComplete ..
  | .governorEpoch .. | .patrolScrub .. | .launchTake .. | .admission .. | .launchStart .. | .workUnitStart ..
  | .workUnitComplete .. | .launchEnd .. | .launchResume .. | .superstepBoundary .. | .idleSuperstep ..
  | .idleSuperstepEnd .. | .clockChange .. | .powerLimit .. | .thermalEmergency | .stopFlagSet ..
  | .stopWindowExpiry .. | .tileSaveComplete .. | .clusterRegionSave .. | .clusterStopComplete .. | .hangWatchdog ..
  | .sequencerOverrun .. | .selfTestStart .. | .selfTestVerdict .. | .systemRegisterPropagate .. | .packageReset
  | .functionReady .. | .bootStage .. | .getVersion | .getCapabilities | .negotiateAlgorithms | .getDigests
  | .getCertificate .. | .challenge .. | .getMeasurements .. | .hdmRead .. | .hdmWrite .. | .counterAddPort ..
  | .counterReadSlot .. | .watchEntryWrite .. | .popPortRead .. | .staggerWrite .. | .staggerMessage ..
  | .mgmtRegisterWrite .. | .coreDieTemperature .. | .mgmtWindowRead .. => .ok

/-- The bytes of an M access, if they lie in the scratchpad. -/
def scratchBytes (sp : MSpace) (ea : DWord) (n : Nat) : List (Nat × Nat) := if sp = .scratch then [(ea.toNat, n)] else []

/-- The bytes of the active lanes of an X access. -/
def laneBytes (t : VType) (m : Reg3) (addr : Nat → DWord) (s : State) : List (Nat × Nat) :=
  (activeLanes t (s.me.readM m)).map fun i => ((addr i).toNat, max 1 (t.width / 8))

/-- The bytes of rows. -/
def rowBytes (l : List RowSet) : List (Nat × Nat) := l.flatMap fun r => (rowAddrs r).map fun a => (a, r.2.2.2)

/-- The scratchpad bytes of a D word: its descriptor of n bytes or its index list, and its source and destination in the
scratchpad as its staging describes them. One that its start checks refuse accesses only its descriptor. -/
def streamBytes (op : SOp) (src dst : DSpace) (n : Nat) (s : State) : List (Nat × Nat) :=
  let x := s.me
  let t := s.bun.tile
  let desc := if n = 64 then descBytes s 64 else if n = 128 then patBytes s else []
  let c : SCmd := ⟨0, op, .none, false, src, dst, stagingD x, desc, s.origin 0, s.cc, 0, 0, s.cc, 0, 0, none, 0⟩
  let d := (x.d[2]).toNat
  let own := if n = 0 || (n = 128 && d = 0) then [] else [(d, n)]
  if !(s.startErrs t c).isEmpty then own
  else
    let u := unfoldOf desc
    let reads := if src ≠ .scratch then [] else match op with
      | .dunf => [(c.d[0].toNat, (u.h - 1) * u.istr + u.w * u.cb)]
      | .dcpy | .dgth => (s.elems t c).map fun e => (e.1, e.2.2)
      | .dfil | .dpub .. => []
    own ++ (if op = .dgth then [(d, 4 * (c.d[3].toNat / c.d[7].toNat))] else []) ++ reads ++
      if dst = .scratch then s.writesOf t c else []

/-- The scratchpad bytes that a word reads or writes (R32). -/
def touchedBy (i : Instr) (s : State) : List (Nat × Nat) :=
  match i with
  | .ldb _ b sp i ext | .ldbn _ b sp i ext | .stb _ b sp i ext => scratchBytes sp (memAddr s b 1 i ext) 1
  | .ldh _ b sp i ext | .ldhn _ b sp i ext | .sth _ b sp i ext => scratchBytes sp (memAddr s b 2 i ext) 2
  | .ldw _ b sp i ext | .ldwn _ b sp i ext | .stw _ b sp i ext => scratchBytes sp (memAddr s b 4 i ext) 4
  | .ldd _ b sp i ext | .std _ b sp i ext => scratchBytes sp (memAddr s b 8 i ext) 8
  | .vld t _ b g m ext | .vst t _ b g m ext => laneBytes t m (laneAddr t b g ext s) s
  | .vgth t _ b x m | .vsct t _ b x m => laneBytes t m (indexAddr t b x s) s
  | .wld n _ => rowBytes (wldRows s.arrStg s.fmtA.record (beatsOf n))
  | .strm n _ => rowBytes (strmRows s.arrStg s.fmtA s.myTile.bankA.fmt (beatsOf n))
  | .drn n _ o _ => rowBytes (drnRows s.arrStg s.fmtA o (beatsOf n))
  | .dcpy _ _ src dst => streamBytes .dcpy src dst 128 s
  | .dunf _ _ src dst => streamBytes .dunf src dst 64 s
  | .dfil _ _ src dst => streamBytes .dfil src dst 128 s
  | .dgth _ _ src dst => streamBytes .dgth src dst 0 s
  | .qpat n _ | .qldy n _ => [(qAddr s, 8 * beatsOf n)]
  | .qsav | .qrst => [(qAddr s, 4160)]
  | .mgrp _ =>
    let a := (s.me.f[0]).toNat
    let m := leNat (s.engRead s.bun.tile (a + 4) 2)
    if a % 16 ≠ 0 ∨ scratchSize < a + 8 then []
    else if m < 2 ∨ 32768 < m ∨ scratchSize < a + 8 + 2 * m then [(a, 8)] else [(a, 8 + 2 * m)]
  | .aarm a _ | .awt a _ _ => [((s.me.readG a).toNat, 16)]
  | .sflt _ b _ => [((s.me.readG b).toNat, 64)]
  | .nop | .add .. | .addImm .. | .sub .. | .subImm .. | .mul .. | .mulImm .. | .mulh .. | .mulhImm .. | .mulhn ..
  | .mulhnImm .. | .div .. | .divImm .. | .divn .. | .divnImm .. | .rem .. | .remImm .. | .remn .. | .remnImm ..
  | .addw .. | .addwImm .. | .subw .. | .subwImm .. | .mulw .. | .mulwImm .. | .and .. | .andImm .. | .or ..
  | .orImm .. | .xor .. | .xorImm .. | .andn .. | .andnImm .. | .shl .. | .shlImm .. | .shr .. | .shrImm ..
  | .shra .. | .shraImm .. | .shlw .. | .shlwImm .. | .shrw .. | .shrwImm .. | .shraw .. | .shrawImm .. | .min ..
  | .minImm .. | .max .. | .maxImm .. | .minn .. | .minnImm .. | .maxn .. | .maxnImm .. | .clz .. | .popc ..
  | .bfx .. | .bfxImm .. | .bfi .. | .bfiImm .. | .sel .. | .cmp .. | .cmpImm .. | .plog .. | .stg .. | .rstg ..
  | .geti .. | .pref .. | .disc .. | .luse .. | .br .. | .jmp .. | .call .. | .jr .. | .lset .. | .lseti ..
  | .lexit .. | .dly .. | .node .. | .sels .. | .yield | .halt | .trap .. | .gangEnter | .gangExit | .vadd ..
  | .vsub .. | .vadds .. | .vsubs .. | .vmul .. | .vmulh .. | .vmad .. | .vmin .. | .vmax .. | .vminn .. | .vmaxn ..
  | .vabs .. | .vand .. | .vor .. | .vxor .. | .vshl .. | .vshr .. | .vshra .. | .vaddw .. | .vmulw .. | .vmulq ..
  | .vmadq .. | .vfadd .. | .vfsub .. | .vfmul .. | .vfma .. | .vfmin .. | .vfmax .. | .vfabs .. | .vfneg ..
  | .vfrcp .. | .vfrsq .. | .vfexp2 .. | .vflog2 .. | .vlmul .. | .vlrcp .. | .vcmp .. | .vsel .. | .vreds ..
  | .vredx .. | .vredn .. | .vbc .. | .vget .. | .vput .. | .vprm .. | .vtrp .. | .vcvt .. | .vqnt .. | .vdqnt ..
  | .vrnd .. | .viota .. | .vext .. | .vcmpr .. | .vmovm .. | .afmt .. | .aswp | .aclr .. | .agng .. | .asta ..
  | .ksa .. | .ksw .. | .kso .. | .kclr | .dpubInit .. | .dpub .. | .dsta .. | .qdom .. | .qstp .. | .qrdv ..
  | .qsta .. | .rsw .. | .ram .. | .rld .. | .rfl .. | .mlr .. | .rfq .. | .rsta .. | .cadd ..
  | .caddRemote .. | .cwt .. | .crd .. | .phs .. | .bar .. | .fen .. | .splt .. | .dgsOn
  | .dgsOff | .dgsRd .. | .dgsFold .. | .upcf | .updm .. | .upmo .. | .upst .. | .srd .. | .swr .. | .tret ..
  | .tlbi .. | .shot .. | .csav .. | .crst .. | .stop .. | .slp .. | .pendingWriteComplete ..
  | .strandSelect .. | .waitSatisfied .. | .takeTrap .. | .overrun .. | .extentPlacement .. | .pageWalkComplete ..
  | .releaseComplete .. | .counterAdd .. | .barrierComplete .. | .streamCommandStart .. | .streamCommandComplete ..
  | .arrival .. | .dunfRow .. | .publishSwap .. | .kilnCommandStart .. | .kilnCommandComplete .. | .spltDrain ..
  | .spltComplete .. | .wldBeat .. | .strmBeat .. | .strmRowsFinal .. | .drnBeat .. | .drnOutputFinal ..
  | .aclrBeat .. | .quiltBeat .. | .quiltStepCycle .. | .quiltCommandComplete .. | .fabricQueueArrival ..
  | .rickAgeDeparture .. | .ringSlotArrival .. | .cordPerform .. | .remoteLoadRequest .. | .flitCrcFailure ..
  | .mgrpComplete .. | .mlrJoin .. | .mlrJoinDeadline .. | .mlrComplete .. | .tlbiComplete .. | .shootdownArrival ..
  | .holderCountUpdate .. | .shotComplete .. | .governorEpoch .. | .patrolScrub .. | .launchTake .. | .admission ..
  | .launchStart .. | .workUnitStart .. | .workUnitComplete .. | .launchEnd .. | .launchResume ..
  | .superstepBoundary .. | .idleSuperstep .. | .idleSuperstepEnd .. | .clockChange .. | .powerLimit ..
  | .thermalEmergency | .stopFlagSet .. | .stopWindowExpiry .. | .tileSaveComplete .. | .clusterRegionSave ..
  | .clusterStopComplete .. | .hangWatchdog .. | .sequencerOverrun .. | .selfTestStart .. | .selfTestVerdict ..
  | .systemRegisterPropagate .. | .packageReset | .functionReady .. | .bootStage .. | .getVersion | .getCapabilities
  | .negotiateAlgorithms | .getDigests | .getCertificate .. | .challenge .. | .getMeasurements .. | .hdmRead ..
  | .hdmWrite .. | .counterAddPort .. | .counterReadSlot .. | .watchEntryWrite .. | .popPortRead ..
  | .staggerWrite .. | .staggerMessage .. | .mgmtRegisterWrite .. | .coreDieTemperature .. | .mgmtWindowRead .. => []

end Sys2Proof.Machine
end

