-- ==== Sys2Proof/Machine/Dispatch.lean ====
section
/-! DEFINITION. What each instruction and each event does: one arm per constructor, each a direct call of its meaning. -/
namespace Sys2Proof.Machine

/-- The meaning of an instruction or event. -/
def exec (i : Instr) (s : State) : Host.Outcome State Fault Refusal :=
  match i with
  | .nop => Sys2Proof.Machine.execNop s
  | .add x0 x1 x2 x3 => Sys2Proof.Machine.execAdd x0 x1 x2 x3 s
  | .addImm x0 x1 x2 x3 => Sys2Proof.Machine.execAddImm x0 x1 x2 x3 s
  | .sub x0 x1 x2 x3 => Sys2Proof.Machine.execSub x0 x1 x2 x3 s
  | .subImm x0 x1 x2 x3 => Sys2Proof.Machine.execSubImm x0 x1 x2 x3 s
  | .mul x0 x1 x2 x3 => Sys2Proof.Machine.execMul x0 x1 x2 x3 s
  | .mulImm x0 x1 x2 x3 => Sys2Proof.Machine.execMulImm x0 x1 x2 x3 s
  | .mulh x0 x1 x2 x3 => Sys2Proof.Machine.execMulh x0 x1 x2 x3 s
  | .mulhImm x0 x1 x2 x3 => Sys2Proof.Machine.execMulhImm x0 x1 x2 x3 s
  | .mulhn x0 x1 x2 x3 => Sys2Proof.Machine.execMulhn x0 x1 x2 x3 s
  | .mulhnImm x0 x1 x2 x3 => Sys2Proof.Machine.execMulhnImm x0 x1 x2 x3 s
  | .div x0 x1 x2 x3 => Sys2Proof.Machine.execDiv x0 x1 x2 x3 s
  | .divImm x0 x1 x2 x3 => Sys2Proof.Machine.execDivImm x0 x1 x2 x3 s
  | .divn x0 x1 x2 x3 => Sys2Proof.Machine.execDivn x0 x1 x2 x3 s
  | .divnImm x0 x1 x2 x3 => Sys2Proof.Machine.execDivnImm x0 x1 x2 x3 s
  | .rem x0 x1 x2 x3 => Sys2Proof.Machine.execRem x0 x1 x2 x3 s
  | .remImm x0 x1 x2 x3 => Sys2Proof.Machine.execRemImm x0 x1 x2 x3 s
  | .remn x0 x1 x2 x3 => Sys2Proof.Machine.execRemn x0 x1 x2 x3 s
  | .remnImm x0 x1 x2 x3 => Sys2Proof.Machine.execRemnImm x0 x1 x2 x3 s
  | .addw x0 x1 x2 x3 => Sys2Proof.Machine.execAddw x0 x1 x2 x3 s
  | .addwImm x0 x1 x2 x3 => Sys2Proof.Machine.execAddwImm x0 x1 x2 x3 s
  | .subw x0 x1 x2 x3 => Sys2Proof.Machine.execSubw x0 x1 x2 x3 s
  | .subwImm x0 x1 x2 x3 => Sys2Proof.Machine.execSubwImm x0 x1 x2 x3 s
  | .mulw x0 x1 x2 x3 => Sys2Proof.Machine.execMulw x0 x1 x2 x3 s
  | .mulwImm x0 x1 x2 x3 => Sys2Proof.Machine.execMulwImm x0 x1 x2 x3 s
  | .and x0 x1 x2 x3 => Sys2Proof.Machine.execAnd x0 x1 x2 x3 s
  | .andImm x0 x1 x2 x3 => Sys2Proof.Machine.execAndImm x0 x1 x2 x3 s
  | .or x0 x1 x2 x3 => Sys2Proof.Machine.execOr x0 x1 x2 x3 s
  | .orImm x0 x1 x2 x3 => Sys2Proof.Machine.execOrImm x0 x1 x2 x3 s
  | .xor x0 x1 x2 x3 => Sys2Proof.Machine.execXor x0 x1 x2 x3 s
  | .xorImm x0 x1 x2 x3 => Sys2Proof.Machine.execXorImm x0 x1 x2 x3 s
  | .andn x0 x1 x2 x3 => Sys2Proof.Machine.execAndn x0 x1 x2 x3 s
  | .andnImm x0 x1 x2 x3 => Sys2Proof.Machine.execAndnImm x0 x1 x2 x3 s
  | .shl x0 x1 x2 x3 => Sys2Proof.Machine.execShl x0 x1 x2 x3 s
  | .shlImm x0 x1 x2 x3 => Sys2Proof.Machine.execShlImm x0 x1 x2 x3 s
  | .shr x0 x1 x2 x3 => Sys2Proof.Machine.execShr x0 x1 x2 x3 s
  | .shrImm x0 x1 x2 x3 => Sys2Proof.Machine.execShrImm x0 x1 x2 x3 s
  | .shra x0 x1 x2 x3 => Sys2Proof.Machine.execShra x0 x1 x2 x3 s
  | .shraImm x0 x1 x2 x3 => Sys2Proof.Machine.execShraImm x0 x1 x2 x3 s
  | .shlw x0 x1 x2 x3 => Sys2Proof.Machine.execShlw x0 x1 x2 x3 s
  | .shlwImm x0 x1 x2 x3 => Sys2Proof.Machine.execShlwImm x0 x1 x2 x3 s
  | .shrw x0 x1 x2 x3 => Sys2Proof.Machine.execShrw x0 x1 x2 x3 s
  | .shrwImm x0 x1 x2 x3 => Sys2Proof.Machine.execShrwImm x0 x1 x2 x3 s
  | .shraw x0 x1 x2 x3 => Sys2Proof.Machine.execShraw x0 x1 x2 x3 s
  | .shrawImm x0 x1 x2 x3 => Sys2Proof.Machine.execShrawImm x0 x1 x2 x3 s
  | .min x0 x1 x2 x3 => Sys2Proof.Machine.execMin x0 x1 x2 x3 s
  | .minImm x0 x1 x2 x3 => Sys2Proof.Machine.execMinImm x0 x1 x2 x3 s
  | .max x0 x1 x2 x3 => Sys2Proof.Machine.execMax x0 x1 x2 x3 s
  | .maxImm x0 x1 x2 x3 => Sys2Proof.Machine.execMaxImm x0 x1 x2 x3 s
  | .minn x0 x1 x2 x3 => Sys2Proof.Machine.execMinn x0 x1 x2 x3 s
  | .minnImm x0 x1 x2 x3 => Sys2Proof.Machine.execMinnImm x0 x1 x2 x3 s
  | .maxn x0 x1 x2 x3 => Sys2Proof.Machine.execMaxn x0 x1 x2 x3 s
  | .maxnImm x0 x1 x2 x3 => Sys2Proof.Machine.execMaxnImm x0 x1 x2 x3 s
  | .clz x0 x1 x2 => Sys2Proof.Machine.execClz x0 x1 x2 s
  | .popc x0 x1 x2 => Sys2Proof.Machine.execPopc x0 x1 x2 s
  | .bfx x0 x1 x2 x3 => Sys2Proof.Machine.execBfx x0 x1 x2 x3 s
  | .bfxImm x0 x1 x2 x3 => Sys2Proof.Machine.execBfxImm x0 x1 x2 x3 s
  | .bfi x0 x1 x2 x3 => Sys2Proof.Machine.execBfi x0 x1 x2 x3 s
  | .bfiImm x0 x1 x2 x3 => Sys2Proof.Machine.execBfiImm x0 x1 x2 x3 s
  | .sel x0 x1 x2 x3 => Sys2Proof.Machine.execSel x0 x1 x2 x3 s
  | .cmp x0 x1 x2 x3 x4 => Sys2Proof.Machine.execCmp x0 x1 x2 x3 x4 s
  | .cmpImm x0 x1 x2 x3 x4 x5 => Sys2Proof.Machine.execCmpImm x0 x1 x2 x3 x4 x5 s
  | .plog x0 x1 x2 x3 x4 => Sys2Proof.Machine.execPlog x0 x1 x2 x3 x4 s
  | .stg x0 x1 x2 => Sys2Proof.Machine.execStg x0 x1 x2 s
  | .rstg x0 x1 x2 => Sys2Proof.Machine.execRstg x0 x1 x2 s
  | .geti x0 x1 => Sys2Proof.Machine.execGeti x0 x1 s
  | .ldb x0 x1 x2 x3 x4 => Sys2Proof.Machine.execLdb x0 x1 x2 x3 x4 s
  | .ldbn x0 x1 x2 x3 x4 => Sys2Proof.Machine.execLdbn x0 x1 x2 x3 x4 s
  | .ldh x0 x1 x2 x3 x4 => Sys2Proof.Machine.execLdh x0 x1 x2 x3 x4 s
  | .ldhn x0 x1 x2 x3 x4 => Sys2Proof.Machine.execLdhn x0 x1 x2 x3 x4 s
  | .ldw x0 x1 x2 x3 x4 => Sys2Proof.Machine.execLdw x0 x1 x2 x3 x4 s
  | .ldwn x0 x1 x2 x3 x4 => Sys2Proof.Machine.execLdwn x0 x1 x2 x3 x4 s
  | .ldd x0 x1 x2 x3 x4 => Sys2Proof.Machine.execLdd x0 x1 x2 x3 x4 s
  | .stb x0 x1 x2 x3 x4 => Sys2Proof.Machine.execStb x0 x1 x2 x3 x4 s
  | .sth x0 x1 x2 x3 x4 => Sys2Proof.Machine.execSth x0 x1 x2 x3 x4 s
  | .stw x0 x1 x2 x3 x4 => Sys2Proof.Machine.execStw x0 x1 x2 x3 x4 s
  | .std x0 x1 x2 x3 x4 => Sys2Proof.Machine.execStd x0 x1 x2 x3 x4 s
  | .pref x0 x1 x2 => Sys2Proof.Machine.execPref x0 x1 x2 s
  | .disc x0 x1 x2 => Sys2Proof.Machine.execDisc x0 x1 x2 s
  | .luse x0 x1 x2 => Sys2Proof.Machine.execLuse x0 x1 x2 s
  | .br x0 x1 x2 => Sys2Proof.Machine.execBr x0 x1 x2 s
  | .jmp x0 => Sys2Proof.Machine.execJmp x0 s
  | .call x0 => Sys2Proof.Machine.execCall x0 s
  | .jr x0 => Sys2Proof.Machine.execJr x0 s
  | .lset x0 x1 x2 => Sys2Proof.Machine.execLset x0 x1 x2 s
  | .lseti x0 x1 x2 => Sys2Proof.Machine.execLseti x0 x1 x2 s
  | .lexit x0 => Sys2Proof.Machine.execLexit x0 s
  | .dly x0 => Sys2Proof.Machine.execDly x0 s
  | .node x0 => Sys2Proof.Machine.execNode x0 s
  | .sels x0 x1 => Sys2Proof.Machine.execSels x0 x1 s
  | .yield => Sys2Proof.Machine.execYield s
  | .halt => Sys2Proof.Machine.execHalt s
  | .trap x0 => Sys2Proof.Machine.execTrap x0 s
  | .gangEnter => Sys2Proof.Machine.execGangEnter s
  | .gangExit => Sys2Proof.Machine.execGangExit s
  | .vadd x0 x1 x2 x3 x4 => Sys2Proof.Machine.execVadd x0 x1 x2 x3 x4 s
  | .vsub x0 x1 x2 x3 x4 => Sys2Proof.Machine.execVsub x0 x1 x2 x3 x4 s
  | .vadds x0 x1 x2 x3 x4 => Sys2Proof.Machine.execVadds x0 x1 x2 x3 x4 s
  | .vsubs x0 x1 x2 x3 x4 => Sys2Proof.Machine.execVsubs x0 x1 x2 x3 x4 s
  | .vmul x0 x1 x2 x3 x4 => Sys2Proof.Machine.execVmul x0 x1 x2 x3 x4 s
  | .vmulh x0 x1 x2 x3 x4 => Sys2Proof.Machine.execVmulh x0 x1 x2 x3 x4 s
  | .vmad x0 x1 x2 x3 x4 => Sys2Proof.Machine.execVmad x0 x1 x2 x3 x4 s
  | .vmin x0 x1 x2 x3 x4 => Sys2Proof.Machine.execVmin x0 x1 x2 x3 x4 s
  | .vmax x0 x1 x2 x3 x4 => Sys2Proof.Machine.execVmax x0 x1 x2 x3 x4 s
  | .vminn x0 x1 x2 x3 x4 => Sys2Proof.Machine.execVminn x0 x1 x2 x3 x4 s
  | .vmaxn x0 x1 x2 x3 x4 => Sys2Proof.Machine.execVmaxn x0 x1 x2 x3 x4 s
  | .vabs x0 x1 x2 x3 => Sys2Proof.Machine.execVabs x0 x1 x2 x3 s
  | .vand x0 x1 x2 x3 x4 => Sys2Proof.Machine.execVand x0 x1 x2 x3 x4 s
  | .vor x0 x1 x2 x3 x4 => Sys2Proof.Machine.execVor x0 x1 x2 x3 x4 s
  | .vxor x0 x1 x2 x3 x4 => Sys2Proof.Machine.execVxor x0 x1 x2 x3 x4 s
  | .vshl x0 x1 x2 x3 x4 => Sys2Proof.Machine.execVshl x0 x1 x2 x3 x4 s
  | .vshr x0 x1 x2 x3 x4 => Sys2Proof.Machine.execVshr x0 x1 x2 x3 x4 s
  | .vshra x0 x1 x2 x3 x4 => Sys2Proof.Machine.execVshra x0 x1 x2 x3 x4 s
  | .vaddw x0 x1 x2 x3 x4 => Sys2Proof.Machine.execVaddw x0 x1 x2 x3 x4 s
  | .vmulw x0 x1 x2 x3 x4 => Sys2Proof.Machine.execVmulw x0 x1 x2 x3 x4 s
  | .vmulq x0 x1 x2 x3 x4 => Sys2Proof.Machine.execVmulq x0 x1 x2 x3 x4 s
  | .vmadq x0 x1 x2 x3 x4 => Sys2Proof.Machine.execVmadq x0 x1 x2 x3 x4 s
  | .vfadd x0 x1 x2 x3 x4 => Sys2Proof.Machine.execVfadd x0 x1 x2 x3 x4 s
  | .vfsub x0 x1 x2 x3 x4 => Sys2Proof.Machine.execVfsub x0 x1 x2 x3 x4 s
  | .vfmul x0 x1 x2 x3 x4 => Sys2Proof.Machine.execVfmul x0 x1 x2 x3 x4 s
  | .vfma x0 x1 x2 x3 x4 => Sys2Proof.Machine.execVfma x0 x1 x2 x3 x4 s
  | .vfmin x0 x1 x2 x3 x4 => Sys2Proof.Machine.execVfmin x0 x1 x2 x3 x4 s
  | .vfmax x0 x1 x2 x3 x4 => Sys2Proof.Machine.execVfmax x0 x1 x2 x3 x4 s
  | .vfabs x0 x1 x2 x3 => Sys2Proof.Machine.execVfabs x0 x1 x2 x3 s
  | .vfneg x0 x1 x2 x3 => Sys2Proof.Machine.execVfneg x0 x1 x2 x3 s
  | .vfrcp x0 x1 x2 x3 => Sys2Proof.Machine.execVfrcp x0 x1 x2 x3 s
  | .vfrsq x0 x1 x2 x3 => Sys2Proof.Machine.execVfrsq x0 x1 x2 x3 s
  | .vfexp2 x0 x1 x2 x3 => Sys2Proof.Machine.execVfexp2 x0 x1 x2 x3 s
  | .vflog2 x0 x1 x2 x3 => Sys2Proof.Machine.execVflog2 x0 x1 x2 x3 s
  | .vlmul x0 x1 x2 x3 x4 => Sys2Proof.Machine.execVlmul x0 x1 x2 x3 x4 s
  | .vlrcp x0 x1 x2 x3 => Sys2Proof.Machine.execVlrcp x0 x1 x2 x3 s
  | .vcmp x0 x1 x2 x3 x4 => Sys2Proof.Machine.execVcmp x0 x1 x2 x3 x4 s
  | .vsel x0 x1 x2 x3 x4 => Sys2Proof.Machine.execVsel x0 x1 x2 x3 x4 s
  | .vreds x0 x1 x2 x3 => Sys2Proof.Machine.execVreds x0 x1 x2 x3 s
  | .vredx x0 x1 x2 x3 => Sys2Proof.Machine.execVredx x0 x1 x2 x3 s
  | .vredn x0 x1 x2 x3 => Sys2Proof.Machine.execVredn x0 x1 x2 x3 s
  | .vld x0 x1 x2 x3 x4 x5 => Sys2Proof.Machine.execVld x0 x1 x2 x3 x4 x5 s
  | .vst x0 x1 x2 x3 x4 x5 => Sys2Proof.Machine.execVst x0 x1 x2 x3 x4 x5 s
  | .vgth x0 x1 x2 x3 x4 => Sys2Proof.Machine.execVgth x0 x1 x2 x3 x4 s
  | .vsct x0 x1 x2 x3 x4 => Sys2Proof.Machine.execVsct x0 x1 x2 x3 x4 s
  | .vbc x0 x1 x2 x3 => Sys2Proof.Machine.execVbc x0 x1 x2 x3 s
  | .vget x0 x1 x2 x3 x4 => Sys2Proof.Machine.execVget x0 x1 x2 x3 x4 s
  | .vput x0 x1 x2 x3 x4 => Sys2Proof.Machine.execVput x0 x1 x2 x3 x4 s
  | .vprm x0 x1 x2 x3 x4 => Sys2Proof.Machine.execVprm x0 x1 x2 x3 x4 s
  | .vtrp x0 x1 => Sys2Proof.Machine.execVtrp x0 x1 s
  | .vcvt x0 x1 x2 x3 x4 x5 => Sys2Proof.Machine.execVcvt x0 x1 x2 x3 x4 x5 s
  | .vqnt x0 x1 x2 x3 x4 => Sys2Proof.Machine.execVqnt x0 x1 x2 x3 x4 s
  | .vdqnt x0 x1 x2 x3 x4 => Sys2Proof.Machine.execVdqnt x0 x1 x2 x3 x4 s
  | .vrnd x0 x1 x2 x3 => Sys2Proof.Machine.execVrnd x0 x1 x2 x3 s
  | .viota x0 x1 x2 x3 => Sys2Proof.Machine.execViota x0 x1 x2 x3 s
  | .vext x0 x1 x2 x3 x4 => Sys2Proof.Machine.execVext x0 x1 x2 x3 x4 s
  | .vcmpr x0 x1 x2 x3 x4 => Sys2Proof.Machine.execVcmpr x0 x1 x2 x3 x4 s
  | .vmovm x0 x1 x2 => Sys2Proof.Machine.execVmovm x0 x1 x2 s
  | .afmt x0 x1 x2 x3 x4 x5 x6 x7 => Sys2Proof.Machine.execAfmt x0 x1 x2 x3 x4 x5 x6 x7 s
  | .wld x0 x1 => Sys2Proof.Machine.execWld x0 x1 s
  | .aswp => Sys2Proof.Machine.execAswp s
  | .strm x0 x1 => Sys2Proof.Machine.execStrm x0 x1 s
  | .drn x0 x1 x2 x3 => Sys2Proof.Machine.execDrn x0 x1 x2 x3 s
  | .aclr x0 x1 => Sys2Proof.Machine.execAclr x0 x1 s
  | .agng x0 => Sys2Proof.Machine.execAgng x0 s
  | .asta x0 => Sys2Proof.Machine.execAsta x0 s
  | .ksa x0 x1 x2 => Sys2Proof.Machine.execKsa x0 x1 x2 s
  | .ksw x0 x1 x2 x3 => Sys2Proof.Machine.execKsw x0 x1 x2 x3 s
  | .kso x0 x1 x2 => Sys2Proof.Machine.execKso x0 x1 x2 s
  | .kclr => Sys2Proof.Machine.execKclr s
  | .dcpy x0 x1 x2 x3 => Sys2Proof.Machine.execDcpy x0 x1 x2 x3 s
  | .dunf x0 x1 x2 x3 => Sys2Proof.Machine.execDunf x0 x1 x2 x3 s
  | .dpubInit x0 x1 => Sys2Proof.Machine.execDpubInit x0 x1 s
  | .dpub x0 x1 => Sys2Proof.Machine.execDpub x0 x1 s
  | .dfil x0 x1 x2 x3 => Sys2Proof.Machine.execDfil x0 x1 x2 x3 s
  | .dgth x0 x1 x2 x3 => Sys2Proof.Machine.execDgth x0 x1 x2 x3 s
  | .dsta x0 => Sys2Proof.Machine.execDsta x0 s
  | .qpat x0 x1 => Sys2Proof.Machine.execQpat x0 x1 s
  | .qldy x0 x1 => Sys2Proof.Machine.execQldy x0 x1 s
  | .qdom x0 => Sys2Proof.Machine.execQdom x0 s
  | .qstp x0 x1 x2 => Sys2Proof.Machine.execQstp x0 x1 x2 s
  | .qsav => Sys2Proof.Machine.execQsav s
  | .qrst => Sys2Proof.Machine.execQrst s
  | .qrdv x0 x1 => Sys2Proof.Machine.execQrdv x0 x1 s
  | .qsta x0 => Sys2Proof.Machine.execQsta x0 s
  | .rsw x0 x1 x2 => Sys2Proof.Machine.execRsw x0 x1 x2 s
  | .ram x0 x1 x2 x3 => Sys2Proof.Machine.execRam x0 x1 x2 x3 s
  | .rld x0 x1 x2 x3 => Sys2Proof.Machine.execRld x0 x1 x2 x3 s
  | .rfl x0 x1 => Sys2Proof.Machine.execRfl x0 x1 s
  | .mgrp x0 => Sys2Proof.Machine.execMgrp x0 s
  | .mlr x0 x1 x2 x3 => Sys2Proof.Machine.execMlr x0 x1 x2 x3 s
  | .rfq x0 => Sys2Proof.Machine.execRfq x0 s
  | .rsta x0 x1 => Sys2Proof.Machine.execRsta x0 x1 s
  | .cadd x0 x1 x2 => Sys2Proof.Machine.execCadd x0 x1 x2 s
  | .caddRemote x0 x1 x2 x3 => Sys2Proof.Machine.execCaddRemote x0 x1 x2 x3 s
  | .cwt x0 x1 x2 => Sys2Proof.Machine.execCwt x0 x1 x2 s
  | .crd x0 x1 => Sys2Proof.Machine.execCrd x0 x1 s
  | .aarm x0 x1 => Sys2Proof.Machine.execAarm x0 x1 s
  | .awt x0 x1 x2 => Sys2Proof.Machine.execAwt x0 x1 x2 s
  | .phs x0 x1 x2 => Sys2Proof.Machine.execPhs x0 x1 x2 s
  | .bar x0 x1 => Sys2Proof.Machine.execBar x0 x1 s
  | .fen x0 => Sys2Proof.Machine.execFen x0 s
  | .splt x0 => Sys2Proof.Machine.execSplt x0 s
  | .dgsOn => Sys2Proof.Machine.execDgsOn s
  | .dgsOff => Sys2Proof.Machine.execDgsOff s
  | .dgsRd x0 => Sys2Proof.Machine.execDgsRd x0 s
  | .dgsFold x0 x1 => Sys2Proof.Machine.execDgsFold x0 x1 s
  | .upcf => Sys2Proof.Machine.execUpcf s
  | .updm x0 x1 x2 => Sys2Proof.Machine.execUpdm x0 x1 x2 s
  | .upmo x0 x1 => Sys2Proof.Machine.execUpmo x0 x1 s
  | .upst x0 => Sys2Proof.Machine.execUpst x0 s
  | .srd x0 x1 => Sys2Proof.Machine.execSrd x0 x1 s
  | .swr x0 x1 => Sys2Proof.Machine.execSwr x0 x1 s
  | .tret x0 => Sys2Proof.Machine.execTret x0 s
  | .tlbi x0 x1 x2 x3 x4 => Sys2Proof.Machine.execTlbi x0 x1 x2 x3 x4 s
  | .shot x0 x1 x2 x3 x4 x5 => Sys2Proof.Machine.execShot x0 x1 x2 x3 x4 x5 s
  | .csav x0 => Sys2Proof.Machine.execCsav x0 s
  | .crst x0 => Sys2Proof.Machine.execCrst x0 s
  | .stop x0 x1 x2 => Sys2Proof.Machine.execStop x0 x1 x2 s
  | .slp x0 x1 => Sys2Proof.Machine.execSlp x0 x1 s
  | .sflt x0 x1 x2 => Sys2Proof.Machine.execSflt x0 x1 x2 s
  | .pendingWriteComplete x0 x1 x2 => Sys2Proof.Machine.execPendingWriteComplete x0 x1 x2 s
  | .strandSelect x0 => Sys2Proof.Machine.execStrandSelect x0 s
  | .waitSatisfied x0 x1 => Sys2Proof.Machine.execWaitSatisfied x0 x1 s
  | .takeTrap x0 x1 x2 => Sys2Proof.Machine.execTakeTrap x0 x1 x2 s
  | .overrun x0 x1 => Sys2Proof.Machine.execOverrun x0 x1 s
  | .extentPlacement x0 x1 => Sys2Proof.Machine.execExtentPlacement x0 x1 s
  | .pageWalkComplete x0 x1 => Sys2Proof.Machine.execPageWalkComplete x0 x1 s
  | .releaseComplete x0 x1 x2 => Sys2Proof.Machine.execReleaseComplete x0 x1 x2 s
  | .counterAdd x0 x1 x2 x3 => Sys2Proof.Machine.execCounterAdd x0 x1 x2 x3 s
  | .barrierComplete x0 => Sys2Proof.Machine.execBarrierComplete x0 s
  | .streamCommandStart x0 => Sys2Proof.Machine.execStreamCommandStart x0 s
  | .streamCommandComplete x0 x1 => Sys2Proof.Machine.execStreamCommandComplete x0 x1 s
  | .arrival x0 x1 x2 => Sys2Proof.Machine.execArrival x0 x1 x2 s
  | .dunfRow x0 x1 x2 => Sys2Proof.Machine.execDunfRow x0 x1 x2 s
  | .publishSwap x0 x1 => Sys2Proof.Machine.execPublishSwap x0 x1 s
  | .kilnCommandStart x0 => Sys2Proof.Machine.execKilnCommandStart x0 s
  | .kilnCommandComplete x0 => Sys2Proof.Machine.execKilnCommandComplete x0 s
  | .spltDrain x0 => Sys2Proof.Machine.execSpltDrain x0 s
  | .spltComplete x0 => Sys2Proof.Machine.execSpltComplete x0 s
  | .wldBeat x0 x1 => Sys2Proof.Machine.execWldBeat x0 x1 s
  | .strmBeat x0 x1 => Sys2Proof.Machine.execStrmBeat x0 x1 s
  | .strmRowsFinal x0 x1 => Sys2Proof.Machine.execStrmRowsFinal x0 x1 s
  | .drnBeat x0 x1 => Sys2Proof.Machine.execDrnBeat x0 x1 s
  | .drnOutputFinal x0 x1 => Sys2Proof.Machine.execDrnOutputFinal x0 x1 s
  | .aclrBeat x0 x1 => Sys2Proof.Machine.execAclrBeat x0 x1 s
  | .quiltBeat x0 x1 => Sys2Proof.Machine.execQuiltBeat x0 x1 s
  | .quiltStepCycle x0 x1 => Sys2Proof.Machine.execQuiltStepCycle x0 x1 s
  | .quiltCommandComplete x0 => Sys2Proof.Machine.execQuiltCommandComplete x0 s
  | .fabricQueueArrival x0 => Sys2Proof.Machine.execFabricQueueArrival x0 s
  | .rickAgeDeparture x0 x1 => Sys2Proof.Machine.execRickAgeDeparture x0 x1 s
  | .ringSlotArrival x0 x1 x2 => Sys2Proof.Machine.execRingSlotArrival x0 x1 x2 s
  | .cordPerform x0 => Sys2Proof.Machine.execCordPerform x0 s
  | .remoteLoadRequest x0 => Sys2Proof.Machine.execRemoteLoadRequest x0 s
  | .flitCrcFailure x0 x1 => Sys2Proof.Machine.execFlitCrcFailure x0 x1 s
  | .mgrpComplete x0 x1 x2 => Sys2Proof.Machine.execMgrpComplete x0 x1 x2 s
  | .mlrJoin x0 => Sys2Proof.Machine.execMlrJoin x0 s
  | .mlrJoinDeadline x0 => Sys2Proof.Machine.execMlrJoinDeadline x0 s
  | .mlrComplete x0 => Sys2Proof.Machine.execMlrComplete x0 s
  | .tlbiComplete x0 => Sys2Proof.Machine.execTlbiComplete x0 s
  | .shootdownArrival x0 x1 => Sys2Proof.Machine.execShootdownArrival x0 x1 s
  | .holderCountUpdate x0 x1 x2 x3 => Sys2Proof.Machine.execHolderCountUpdate x0 x1 x2 x3 s
  | .shotComplete x0 => Sys2Proof.Machine.execShotComplete x0 s
  | .governorEpoch x0 => Sys2Proof.Machine.execGovernorEpoch x0 s
  | .patrolScrub x0 x1 => Sys2Proof.Machine.execPatrolScrub x0 x1 s
  | .launchTake x0 => Sys2Proof.Machine.execLaunchTake x0 s
  | .admission x0 => Sys2Proof.Machine.execAdmission x0 s
  | .launchStart x0 => Sys2Proof.Machine.execLaunchStart x0 s
  | .workUnitStart x0 => Sys2Proof.Machine.execWorkUnitStart x0 s
  | .workUnitComplete x0 => Sys2Proof.Machine.execWorkUnitComplete x0 s
  | .launchEnd x0 => Sys2Proof.Machine.execLaunchEnd x0 s
  | .launchResume x0 => Sys2Proof.Machine.execLaunchResume x0 s
  | .superstepBoundary x0 => Sys2Proof.Machine.execSuperstepBoundary x0 s
  | .idleSuperstep x0 x1 => Sys2Proof.Machine.execIdleSuperstep x0 x1 s
  | .idleSuperstepEnd x0 => Sys2Proof.Machine.execIdleSuperstepEnd x0 s
  | .clockChange x0 => Sys2Proof.Machine.execClockChange x0 s
  | .powerLimit x0 x1 => Sys2Proof.Machine.execPowerLimit x0 x1 s
  | .thermalEmergency => Sys2Proof.Machine.execThermalEmergency s
  | .stopFlagSet x0 x1 x2 => Sys2Proof.Machine.execStopFlagSet x0 x1 x2 s
  | .stopWindowExpiry x0 x1 => Sys2Proof.Machine.execStopWindowExpiry x0 x1 s
  | .tileSaveComplete x0 => Sys2Proof.Machine.execTileSaveComplete x0 s
  | .clusterRegionSave x0 => Sys2Proof.Machine.execClusterRegionSave x0 s
  | .clusterStopComplete x0 => Sys2Proof.Machine.execClusterStopComplete x0 s
  | .hangWatchdog x0 => Sys2Proof.Machine.execHangWatchdog x0 s
  | .sequencerOverrun x0 => Sys2Proof.Machine.execSequencerOverrun x0 s
  | .selfTestStart x0 => Sys2Proof.Machine.execSelfTestStart x0 s
  | .selfTestVerdict x0 x1 x2 => Sys2Proof.Machine.execSelfTestVerdict x0 x1 x2 s
  | .systemRegisterPropagate x0 x1 x2 x3 => Sys2Proof.Machine.execSystemRegisterPropagate x0 x1 x2 x3 s
  | .packageReset => Sys2Proof.Machine.execPackageReset s
  | .functionReady x0 => Sys2Proof.Machine.execFunctionReady x0 s
  | .bootStage x0 x1 x2 => Sys2Proof.Machine.execBootStage x0 x1 x2 s
  | .getVersion => Sys2Proof.Machine.execGetVersion s
  | .getCapabilities => Sys2Proof.Machine.execGetCapabilities s
  | .negotiateAlgorithms => Sys2Proof.Machine.execNegotiateAlgorithms s
  | .getDigests => Sys2Proof.Machine.execGetDigests s
  | .getCertificate x0 => Sys2Proof.Machine.execGetCertificate x0 s
  | .challenge x0 => Sys2Proof.Machine.execChallenge x0 s
  | .getMeasurements x0 => Sys2Proof.Machine.execGetMeasurements x0 s
  | .hdmRead x0 x1 => Sys2Proof.Machine.execHdmRead x0 x1 s
  | .hdmWrite x0 x1 => Sys2Proof.Machine.execHdmWrite x0 x1 s
  | .counterAddPort x0 x1 x2 x3 => Sys2Proof.Machine.execCounterAddPort x0 x1 x2 x3 s
  | .counterReadSlot x0 => Sys2Proof.Machine.execCounterReadSlot x0 s
  | .watchEntryWrite x0 x1 x2 x3 => Sys2Proof.Machine.execWatchEntryWrite x0 x1 x2 x3 s
  | .popPortRead x0 x1 x2 => Sys2Proof.Machine.execPopPortRead x0 x1 x2 s
  | .staggerWrite x0 => Sys2Proof.Machine.execStaggerWrite x0 s
  | .staggerMessage x0 x1 => Sys2Proof.Machine.execStaggerMessage x0 x1 s
  | .mgmtRegisterWrite x0 x1 x2 => Sys2Proof.Machine.execMgmtRegisterWrite x0 x1 x2 s
  | .coreDieTemperature x0 x1 => Sys2Proof.Machine.execCoreDieTemperature x0 x1 s
  | .mgmtWindowRead x0 x1 => Sys2Proof.Machine.execMgmtWindowRead x0 x1 s

end Sys2Proof.Machine
end

