-- ==== Sys2Proof/Machine/Run.lean ====
section
/-! DEFINITION. A core issues a bundle (02_bundles R23 to R37; 07_core R138, R151 to R162): fetch, the checks in their order
(log 8), the words, and what follows them. -/
namespace Sys2Proof.Machine

/-! ### Fetch -/

/-- What a trap before the bundle at a strand's pc records; what its entry does not state is free (log 17). -/
def State.preciseAt (s : State) (t k : Nat) (c : Cause) (addr : Option DWord) (isw : Option Word) : TrapInfo :=
  let x := s.strand t k
  preciseInfo x x.pc c (addr.getD (Config.freeD s.fresh)) (isw.getD (Config.freeW s.fresh))

/-- The bundle at a strand's pc: its words with their classes and its length, or the trap taken before it (R26, R40, R138). -/
def State.fetch (s : State) (t k : Nat) : Except TrapInfo (List (Nat × Instr) × Nat) :=
  let g := s.image t
  let x := s.strand t k
  let came := x.transferFrom.map (·.setWidth 64)
  if g.code.length ≤ x.pc.toNat || !s.reaches t k x.pc.toNat then .error (s.preciseAt t k .fetchRange came none)
  else if !isFirst g.code x.pc.toNat then .error (s.preciseAt t k .illegal came none)
  else match bundleAt g.code x.pc.toNat with
    | .error _ => .error (s.preciseAt t k .illegal none none)
    | .ok r => .ok r

/-- The state in which the words of a bundle of strand k are checked and run; a member of a panel follows its lead, whose
array staging it reads. -/
def State.begin (s : State) (t k len : Nat) (follow : Bool) (stg : Option (Vector DWord 8)) : State :=
  { s with bun := { Bundle.none with tile := t, strand := k, first := (s.strand t k).pc, len := len, follow := follow, stg := stg } }

/-! ### Pending destinations (R31, R32) -/

/-- Accumulator rows that a word names: the first and the number (R32, R204). -/
def rowsNamed (i : Instr) (s : State) : Option (Nat × Nat) :=
  match i with
  | .drn n _ _ f => some (f.toNat, beatsOf n)
  | .aclr n f => some (f.toNat, beatsOf n)
  | .strm n f => if s.myTile.chain && posOf s.bun.tile < 4 then none else some (f.toNat, beatsOf n)
  | _ => none

/-- Ranges of bytes with pending DRN output, each with the cc of its output. -/
def Tile.drnDue (x : Tile) (cc : Nat) : List (Nat × Nat × Nat) :=
  x.arr.flatMap fun c => match c.op with
    | .drn _ o => if cc < c.start + c.beats + 8 then
        (rowAddrs (c.addr, c.pitch, c.beats, 0)).map fun a => (a, outBytes c.fmt o, c.start + c.beats + 8) else []
    | _ => []

/-- The last bound of the pending registers that words name, 0 if there is none: registers on the strand's scoreboard, for
array staging on that of every strand of the tile (R32). -/
def regsPending (l : List Instr) (s : State) : Nat :=
  let names := l.flatMap fun i => readsOf i ++ destsOf i
  let x := s.myTile
  let mine := (s.me.board.filter fun e => names.contains e.1).map (·.2)
  let others := (strandIds.flatMap fun k => (x.strand k).board).filter fun e =>
    names.contains e.1 && match e.1 with | .stg .array _ => true | _ => false
  (mine ++ others.map (·.2)).foldl max 0

/-- The last bound of the pending accumulator rows and drained bytes that words name, 0 if there is none (R32). -/
def rowsPending (l : List Instr) (s : State) : Nat :=
  let x := s.myTile
  let rows := l.filterMap fun i => (rowsNamed i s).bind fun r => x.rowsPending s.bun.tile s.cc r.1 r.2
  let due := x.drnDue s.cc
  let bytes := if due.isEmpty then [] else
    let touched := l.flatMap fun i => touchedBy i s
    (due.filter fun d => touched.any fun r => r.1 < d.1 + d.2.1 && d.1 < r.1 + r.2).map (·.2.2)
  (rows ++ bytes).foldl max 0

/-- The last bound of the pending destinations that words name, 0 if there is none (R32). -/
def pendingOf (l : List Instr) (s : State) : Nat := max (regsPending l s) (rowsPending l s)

/-! ### The decision -/

/-- Whether a check traps. -/
def Check.traps : Check → Bool | .trap .. => true | _ => false
/-- Whether a wait joins something when it starts: a barrier, the drain of a fence, a panel. -/
def Wait.joins : Wait → Bool | .barrier .. | .engines .. | .gang => true | _ => false
/-- Whether a check blocks on something that it does not join. -/
def Check.plainBlock : Check → Bool | .block w => !w.joins | _ => false

/-- The checks of a bundle: the first trap in word order; else a block, one that joins nothing before one that does (log 8). -/
def checkAll (l : List Instr) (s : State) : Check :=
  let cs := l.map fun i => checkOf i s
  (((cs.find? Check.traps).or (cs.find? Check.plainBlock)).or (cs.find? (· != .ok))).getD .ok

/-- A Z word that unprivileged code may not issue (R323). -/
def needsPriv (w : Nat × Instr) : Bool := w.1 == 12 && match w.2 with | .srd _ .waypart => false | _ => true

/-- What a core does with the next bundle of its strand. -/
inductive Verdict where
  | trap (i : TrapInfo)
  | place
  | stall (cc : Nat)
  | block (w : Wait) (len : Nat)
  | go (l : List (Nat × Instr)) (len : Nat)
  deriving DecidableEq, Repr

/-- A schedule violation (R33). -/
def State.violation (s : State) (t k : Nat) (due : Nat) : Verdict :=
  let x := s.strand t k
  if x.schedTrap || x.gang == .ganged then .trap (s.preciseAt t k .schedule none none) else .stall due

/-- The checks of the next bundle, in their order (log 8): fetch, the extent, privilege, pending registers (R33), the traps
of its words, among them a slot that is occupied whatever SCHEDMODE holds (R36), pending rows and drained bytes, blocks. -/
def State.look (s : State) (t k : Nat) (stg : Option (Vector DWord 8)) : Verdict :=
  let x := s.strand t k
  match s.fetch t k with
  | .error i => .trap i
  | .ok (l, len) =>
    if !s.present t k x.pc.toNat then .place
    else if !x.trap.priv && l.any needsPriv then .trap (s.preciseAt t k .privileged none none)
    else
      let is := l.map (·.2)
      let s := s.begin t k len false stg
      let p := regsPending is s
      let q := rowsPending is s
      if s.cc < p then s.violation t k p
      else match checkAll is s with
        | .trap c a w => .trap (s.preciseAt t k c a w)
        | v => if s.cc < q then s.violation t k q else match v with
          | .block w => .block w len
          | _ => .go l len

/-! ### The words -/

/-- When a word of a bundle runs, so that each reads the state before the bundle (R24). First SRD and CSAV, which read what
others change; then NODE, so that commands lie in their node; then the other Z and Y words, so that a release covers the
strand's earlier stores. Last come words that change at once what others read: AARM, the digest switches, GANG exit,
AGNG. Words of one rank run as they stand in the bundle, the later one's write last. -/
def wordRank (w : Nat × Instr) : Nat :=
  match w.2 with
  | .srd .. | .csav .. => 0
  | .node .. => 1
  | .tret .. | .swr .. | .sflt .. => 3
  | .aarm .. | .dgsOn | .dgsOff | .gangExit | .agng .. => 4
  | _ => if w.1 == 12 || w.1 == 10 then 2 else 3

/-- Words that keep their place behind an AARM that they follow: writers of scratchpad bytes, which may be its, and RFQ,
which keeps its place to SFLT. -/
def keepsPlace : Instr → Bool
  | .stb _ _ sp _ _ | .sth _ _ sp _ _ | .stw _ _ sp _ _ | .std _ _ sp _ _ => sp == .scratch
  | .vst .. | .vsct .. | .sflt .. | .rfq .. => true
  | _ => false

/-- Whether a word is AARM. -/
def isAarm : Instr → Bool | .aarm .. => true | _ => false

/-- The order in which the words of a bundle run. -/
def wordOrder (l : List (Nat × Instr)) : List Instr :=
  let behind := l.dropWhile fun w => !isAarm w.2
  let rank (w : Nat × Instr) : Nat := if keepsPlace w.2 && behind.contains w then 4 else wordRank w
  (List.range 5).flatMap fun n => (l.filter fun w => rank w == n).map (·.2)

/-- Bytes that a word writes drop out of the writes that earlier words of its bundle have posted: the word that stands later
takes effect last (R24), whatever the bounds. -/
def State.supersede (s : State) (i : Instr) : State :=
  let mine := if keepsPlace i || isAarm i then touchedBy i s else []
  if mine.isEmpty then s
  else
    let x := s.myTile
    let bytes := mine.flatMap fun r => (List.range r.2).map fun j => x.phys (r.1 + j)
    { s with agenda := s.agenda.flatMap fun e => match e.2 with
      | .pendingWriteComplete t k (.mem a bs) =>
        if t == s.bun.tile && k == s.bun.strand && (e.1 == keyOf (s.cc + 1) 0 || e.1 == keyOf (s.cc + 64) 0) &&
            (List.range bs.length).any (fun j => bytes.contains (a + j)) then
          (bs.zipIdx.filter fun b => !bytes.contains (a + b.2)).map fun b => (e.1, .pendingWriteComplete t k (.mem (a + b.2) [b.1]))
        else [e]
      | _ => [e] }

/-- Run the words of a bundle. -/
def runWords : List Instr → State → Result
  | [], s => .next s
  | i :: l, s => match exec i s with
    | .next s => match l with
      | [] => .next s
      | j :: _ => runWords l (s.supersede j)
    | r => r

/-! ### Loops and transfers -/

/-- The last word of a loop: that of its END bundle. -/
def Loop.lastWord (v : Loop) (code : List Word) : Nat := v.stop.toNat + chainLen code v.stop.toNat - 1

/-- Loops that a strand ends by issuing a bundle past them (R155). -/
def Strand.endPassed (x : Strand) (code : List Word) : Strand :=
  [false, true].foldl (fun x l =>
    if (x.loop l).act && (x.loop l).lastWord code < x.pc.toNat then x.endLoop l else x) x

/-- Loops that a transfer to a word ends (R155). -/
def Strand.endLeft (x : Strand) (code : List Word) (w : Word) : Strand :=
  [false, true].foldl (fun x l =>
    let v := x.loop l
    if v.act && !(v.start.toNat ≤ w.toNat && w.toNat ≤ v.lastWord code) then x.endLoop l else x) x

/-- Loops whose END bundle starts at a word, nested first (R154). -/
def Strand.endsAt (x : Strand) (w : Word) : List Bool :=
  (if x.loop1.nest then [true, false] else [false, true]).filter fun l => (x.loop l).act && (x.loop l).stop == w

/-- The back edges of a bundle (R154): where one goes back to, if one does. -/
def backEdge (w : Word) : List Bool → Strand → Strand × Option Word
  | [], x => (x, none)
  | l :: r, x =>
    let v := x.loop l
    if !v.act || v.stop != w then backEdge w r x
    else if v.count - 1 = 0 then backEdge w r ((x.setLoop l { v with count := v.count - 1 }).endLoop l)
    else (x.setLoop l { v with count := v.count - 1 }, some v.start)

/-- Where the strand goes after its bundle, at how many cc (R25), with its loops as they then are. -/
def State.nextOf (s : State) (ends : List Bool) (x : Strand) : Strand × Word × Nat :=
  let b := s.bun
  let code := (s.image b.tile).code
  match b.target, b.jump with
  | some w, _ => (if b.tret == some true then x.restoreLoops else x.endLeft code w, w, 2)
  | none, some last => (x, last + BitVec.ofNat 32 (chainLen code last.toNat), 2)
  | none, none => match backEdge b.first ends x with
    | (x, some w) => (x, w, 1)
    | (x, none) => (x, s.after, 1)

/-- Words after whose bundle a BAR is no split point (R88). -/
def spoilsSplit (w : Nat × Instr) : Bool := w.1 == 1 || w.1 == 4 || w.1 == 7 || w.1 == 9 || w.1 == 11

/-- Whether a bundle tests the stop flag at its end (R151, R154). -/
def testsStop (ends : List Bool) (l : List (Nat × Instr)) : Bool :=
  !ends.isEmpty || l.any fun w => match w.2 with | .jr _ => true | _ => false

/-- Whether a bundle tests it before it issues (R158). -/
def hasNode (l : List (Nat × Instr)) : Bool := l.any fun w => match w.2 with | .node _ => true | _ => false

/-- After the words of a bundle: the strand's count of bundles, its loops, its next bundle (R25, R154, R155, R157). A member
of a panel leaves where it goes to its lead. -/
def State.advance (s : State) (ends : List Bool) (l : List (Nat × Instr)) (stop : Bool) : State :=
  let b := s.bun
  let r := s.nextOf ends s.me
  let x := if b.follow then s.me else { r.1 with pc := r.2.1, nextCc := s.cc + r.2.2 + b.stall, stopHere := stop }
  (s.onMe fun _ => { x with
    bundles := x.bundles + 1
    transferFrom := some b.first
    splitGen := if l.any spoilsSplit then none else x.splitGen
    extent := if hasNode l then none else x.extent }).onMyTile fun y =>
      { y with hang := 0, act := if b.follow then y.act else some x.nextCc }

/-! ### After the bundle -/

/-- A strand gives up the core after its bundle; a panel's members keep theirs. -/
def State.leaveMe (s : State) : State :=
  if s.me.gang == .ganged then s else s.leave s.bun.tile s.bun.strand

/-- The end of CSAV (R327): the PC of the next bundle. -/
def State.endCsav (s : State) (va : DWord) : State :=
  if s.me.pc = s.after then s else
    match s.writeRegion (va.toNat + 0x100) (leBytes 8 s.me.pc.toNat) with | .ok s => s | .error _ => s

/-- The end of CRST (R327): the strand is as the region says, with its node's bound counting on and with its part in a panel,
and its saved bundle follows 2 cc later. -/
def State.endCrst (s : State) (l : List Byte) : State :=
  let g := s.image s.bun.tile
  let s := (s.onMe fun x => { x.restoreAll g l s.cc with nextCc := s.cc + 2 }).onMyTile fun y => { y with act := some (s.cc + 2) }
  let s := match s.me.node with
    | none => s
    | some n => s.sched (max (s.cc + 1) (n.since + n.bound)) 12 (.overrun s.bun.tile s.bun.strand)
  if s.regionGang l then s.onMe fun x => { x with gang := .ganged }
  else if s.me.gang == .ganged && !(at8 l.toArray 0x170).getLsbD 2 then s.exitGang else s

/-- The release of HALT (R161): the node ends; the bundle issues again if a word is refused (R111). -/
def State.endHalt (s : State) : State :=
  let s := s.onMe fun x => { x.endNode with pc := s.bun.first, hold := some .release }
  (s.leave s.bun.tile s.bun.strand).release s.bun.tile s.bun.strand true

/-- The software trap after its bundle (R162). -/
def State.endSoft (s : State) (bundle : Nat) (node : BitVec 22 × Word) (code : BitVec 16) : State :=
  s.spend.takeTrap s.bun.tile s.bun.strand
    ⟨.software, 0, bundle, code.setWidth 32, Config.freeD s.fresh, s.bun.first, node.1, node.2, s.me.pc⟩

/-- What the words of a bundle asked of the core at its end. -/
def State.wrapUp (s : State) : State :=
  let b := s.bun
  let bundle := (s.me.bundles - 1) % 2 ^ 32
  let s := match b.csav with | some va => s.endCsav va | none => s
  let s := match b.crst with | some l => s.endCrst l | none => s
  match b.soft with
  | some code => s.endSoft bundle s.me.nodeAt code
  | none =>
    if b.halts then s.endHalt
    else if s.me.hold == some .split then s.leaveMe
    else if b.yields && s.me.gang != .ganged then
      (s.onMe fun x => { x with yielded := true }).onMyTile fun x => { x with act := some (s.cc + 1) }
    else s

/-- A bundle issues: its words run; the strand advances. -/
def State.issue (s : State) (l : List (Nat × Instr)) (t k len : Nat) (follow : Bool) (stg : Option (Vector DWord 8))
    (deep : Bool) : Result :=
  let code := (s.image t).code
  let s := s.onStrand t k fun x =>
    let x := if follow then x else x.endPassed code
    { x with block := none, wake := false, cleared := none, regionDue := none, stopHere := false, board := x.board.filter fun e => s.cc < e.2 }
  let ends := (s.strand t k).endsAt (s.strand t k).pc
  match runWords (wordOrder l) ((s.begin t k len follow stg).onBun fun b => { b with checked := true }) with
  | .next s => .next (s.advance ends l (deep && testsStop ends l))
  | r => r

/-! ### The turn of a strand -/

/-- A trap at the boundary; a stop that a bundle asked for waits for the next stop point (R307). -/
def State.trapNow (s : State) (t k : Nat) (i : TrapInfo) : State :=
  (s.onStrand t k fun x => { x with stopHere := false }).takeTrap t k i

/-- A fault of a strand is taken out of those that wait. -/
def Strand.dropFault (x : Strand) (i : TrapInfo) : Strand := { x with faults := x.faults.eraseP fun f => f.2 == i }

/-- The extent of a node is placed (R138): the strand stalls. -/
def State.startPlacement (s : State) (t k : Nat) : State :=
  let pc := (s.strand t k).pc.toNat
  let bound := 64 + ((((s.image t).extentOf pc).getD (0, 0)).2 + 15) / 16
  let due := s.dueCc bound
  ((s.onStrand t k fun x => { x with nextCc := due }).onTile t fun x => { x with act := some due }).soon bound 12
    (.extentPlacement t k)

/-- How a strand stops before a NODE, if a stop is pending (R158, R311); a serialised re-execution takes none (R321). -/
def State.nodeStop (s : State) (t k : Nat) : Option Stopped :=
  if s.noStops t then none
  else if (s.tile t).saving == .deep then some .deep else if (s.strand t k).trap.pend then some .cheap else none

/-- The next bundle of a strand that runs on its own. -/
def State.tryBundle (s : State) (t k : Nat) : Result :=
  let x := s.strand t k
  match s.look t k none with
  | .trap i => .next (s.spend.trapNow t k i)
  | v =>
    if x.stopHere then .next (s.stopStrand t k .deep)
    else match v with
      | .trap _ => .next s
      | .place => .next (s.startPlacement t k)
      | .stall p => .next ((s.onStrand t k fun x => { x with nextCc := p }).onTile t fun y => { y with act := some p })
      | .block w len => .next ((s.begin t k len false none).blockOn w)
      | .go l len =>
        match (if hasNode l then s.nodeStop t k else none) with
        | some how => .next (s.stopStrand t k how)
        | none => match s.issue l t k len false none ((s.tile t).saving == .deep) with
          | .next s => .next s.wrapUp
          | r => r

/-- The other ready strand that a strand's YIELD gives the core to (R160). -/
def State.yieldTo (s : State) (t k : Nat) : Option Nat := (selectOrder k).find? fun j => j != k && s.canRun t j

/-- The running strand's turn (R307): traps that have fallen due, the thermal stop and the overrun first; then, once its stall
is over, its next bundle. -/
def strandTurn (t k : Nat) (s : State) : Result :=
  let x := s.strand t k
  if !x.started || x.halted || x.stopped != .no || x.gang == .held || x.hold.isSome then .next (s.leave t k)
  else if s.heldTile t then .next (s.onTile t fun y => { y with act := none })
  else if x.thermal then .next ((s.onStrand t k fun x => { x with thermal := false }).spend.spend.trapNow t k (s.bareInfo t k .thermal))
  else if x.overrun then .next ((s.onStrand t k fun x => { x with overrun := false }).spend.spend.trapNow t k (s.bareInfo t k .overrun))
  else match (if x.yielded then s.yieldTo t k else none) with
    | some j => .next ((s.onStrand t k fun x => { x with yielded := false }).give t j)
    | none =>
      let s := s.onStrand t k fun x => { x with yielded := false }
      if s.cc < x.nextCc then .next (s.onTile t fun y => { y with act := some x.nextCc })
      else match x.dueFault s.cc with
        | some i => .next ((s.onStrand t k fun x => x.dropFault i).trapNow t k i)
        | none => s.tryBundle t k

end Sys2Proof.Machine
end

