-- ==== Sys2Proof/Machine/Panel.lean ====
section
/-! DEFINITION. Gang mode (01_journey R14; 07_core R163 to R165; 09_array R211; 10_quilt R221; 14_traps R311): the lead of a
panel issues, and its members run what it passes on, each at its own skew. What the rules leave open of a panel (log 22) is
told where it stands. -/
namespace Sys2Proof.Machine

/-- The skew of a position (R14). -/
def skew (p : Nat) : Nat := 100 * (p / 4) + 2 * (p % 4)

/-- The panel of a cluster. -/
def State.panel (s : State) (c : Nat) : Panel := (s.cluster c).panel.getD ⟨[], 0, 0, []⟩

/-- The members of a panel that are ganged still: tile and strand. -/
def State.members (s : State) (c : Nat) : List (Nat × Nat) :=
  (((s.panel c).strands.zipIdx).map fun e => (8 * c + e.2, e.1)).filter fun m => (s.strand m.1 m.2).gang == .ganged

/-- The members but for the lead. -/
def State.others (s : State) (c : Nat) : List (Nat × Nat) := (s.members c).filter fun m => posOf m.1 != 0

/-- Whether a member has run all that its lead has passed on. -/
def State.caughtUp (s : State) (c : Nat) (m : Nat × Nat) : Bool := (s.strand m.1 m.2).gangSeq == (s.panel c).next

/-! ### What the lead passes on -/

/-- The lead passes an item on; members that have none wait for its skew. -/
def State.pass (s : State) (c : Nat) (it : LeadBundle) : State :=
  let s := s.onCluster c fun x => { x with
    stream := x.stream ++ [{ it with seq := (s.panel c).next }], panel := x.panel.map fun p => { p with next := p.next + 1 } }
  s.each (s.others c) fun s m => s.onTile m.1 fun y =>
    { y with act := some (match y.act with | none => it.cc + skew (posOf m.1) | some a => min a (it.cc + skew (posOf m.1))) }

/-- An item at the lead's pc. -/
def State.item (s : State) (t k : Nat) (kind : LeadKind) : LeadBundle :=
  let x := s.strand t k
  ⟨0, s.cc, kind, x.pc, (s.tile t).a, x.pc, x.loop0, x.loop1, x.node, false⟩

/-- A strand's own record of a fault of its panel has been taken. -/
def Strand.dropOwn (x : Strand) (f : TrapInfo) : Strand :=
  { x with panelTraps := x.panelTraps.filter fun i => !(i.engine == f.engine && x.relSeq i.engine i.seq == f.seq) }

/-- The panel traps with its lead at this bundle (R33, R164, R211). -/
def State.panelTrap (s : State) (c t k : Nat) (lead follow : TrapInfo) : State :=
  ((s.pass c (s.item t k (.trap follow))).onStrand t k fun x => x.dropOwn follow).spend.trapNow t k lead

/-! ### Traps of a panel -/

/-- Faults of members that have fallen due become faults of their panel, at the lead's next bundle (log 22). -/
def State.gatherFaults (s : State) (c : Nat) : State :=
  s.each (s.members c) fun s m =>
    let x := s.strand m.1 m.2
    match x.dueFault s.cc with
    | none => s
    | some i => (s.onStrand m.1 m.2 fun x => { x.dropFault i with panelTraps := x.panelTraps ++ [i] }).onCluster c fun y =>
        { y with panel := y.panel.map fun p => { p with traps := p.traps ++ [(s.cc, followInfo x i)] } }

/-- The fault that a panel takes now, if no handler runs. -/
def State.panelDue (s : State) (c t k : Nat) : Option (Nat × TrapInfo) :=
  if (s.strand t k).trap.inh then none
  else ((s.panel c).traps.filter fun f => f.1 ≤ s.cc).foldl
    (fun o f => match o with | none => some f | some g => if before g.2 f.2 then some g else some f) none

/-! ### The members -/

/-- Whether a slot that a word needs is occupied on a tile at a cc (R36). -/
def slotBusy (cc : Nat) (x : Tile) : Instr → Bool
  | .wld .. => cc < x.wFree
  | .aswp => cc < x.wFree || cc < x.sFree
  | .strm .. | .agng .. => cc < x.sFree
  | .drn .. | .aclr .. => cc < x.dFree
  | .qpat .. | .qldy .. | .qdom .. | .qstp .. | .qsav | .qrst | .qrdv .. => cc < x.qFree
  | _ => false

/-- A member of a panel stops; a deep stop is its tile's (R311). -/
def State.memberStop (s : State) (t k : Nat) (how : Stopped) : State :=
  let s := s.stopStrand t k how
  if how == .deep then s.deepStop t else s

/-- A member takes its lead's decisions (R164). -/
def Strand.led (x : Strand) (it : LeadBundle) : Strand :=
  { x with pc := it.next, loop0 := it.loop0, loop1 := it.loop1, node := it.node }

/-- A member's own trap before a bundle is its panel's at the lead's next bundle, a violation as a schedule fault of all (R33,
R164); until then the member runs nothing (log 22). -/
def State.memberFault (s : State) (c t k : Nat) (i : TrapInfo) : State :=
  let s := s.spend.onStrand t k fun x => { x with block := some .gang, panelTraps := x.panelTraps ++ [i] }
  s.onCluster c fun y => { y with panel := y.panel.map fun p =>
    { p with traps := p.traps ++ [(s.cc, if i.cause == .schedule then i else followInfo (s.strand t k) i)] } }

/-- A bundle reaches a member. -/
def State.memberIssue (s : State) (c t k : Nat) (it : LeadBundle) : Result :=
  if (s.strand t k).block.isSome then .next s
  else
    let s := s.onStrand t k fun x => { x with pc := it.pc }
    match bundleAt (s.image t).code it.pc.toNat with
    | .error _ => .next s
    | .ok (l, len) =>
      let b := s.begin t k len true (some it.stg)
      if s.cc < pendingOf (l.map (·.2)) b then .next (s.memberFault c t k (s.preciseAt t k .schedule none none))
      else match checkAll (l.map (·.2)) b with
      | .trap cause a w => .next (s.memberFault c t k (s.preciseAt t k cause a w))
      | _ => match s.issue l t k len true (some it.stg) false with
        | .next s => .next (s.onMe fun x => x.led it).wrapUp
        | r => r

/-- A member joins what its lead waits for (R279). -/
def State.memberTry (s : State) (t k : Nat) (it : LeadBundle) : State :=
  if (s.strand t k).block.isSome then s
  else
    let s := s.onStrand t k fun x => { x with pc := it.pc }
    match bundleAt (s.image t).code it.pc.toNat with
    | .error _ => s
    | .ok (l, len) => match checkAll (l.map (·.2)) (s.begin t k len true (some it.stg)) with
      | .block w => s.startWait t k w
      | _ => s

/-- A member takes its panel's trap: its own record if it has one, else its lead's cause, at its own numbers (R211). -/
def State.memberTrap (s : State) (t k : Nat) (it : LeadBundle) (i : TrapInfo) : State :=
  let x := s.strand t k
  let s := s.onStrand t k fun x => { x.dropOwn i with pc := if x.block.isSome then x.pc else it.pc }
  s.trapNow t k (match x.panelTraps.find? fun j => j.engine == i.engine && x.relSeq j.engine j.seq == i.seq with
    | some j => j
    | none => if namesBundle i.cause then preciseInfo { x with pc := it.pc } it.pc i.cause i.addr i.isw else x.panelRecord i)

/-- What a lead passed on reaches a member. -/
def State.runItem (s : State) (c t k : Nat) (it : LeadBundle) : Result :=
  let s := s.onStrand t k fun x => { x with gangSeq := it.seq + 1 }
  match it.kind with
  | .issue => s.memberIssue c t k it
  | .try => .next (s.memberTry t k it)
  | .trap i => .next (s.memberTrap t k it i)
  | .stop => .next ((s.onStrand t k fun x => { x with pc := it.pc }).memberStop t k (if it.stopHere then .deep else .cheap))

/-- What a strand has written falls due before a cc: its pending writes, and its writes of system registers. -/
def State.landBy (s : State) (t k cc : Nat) : State :=
  let due := s.agenda.filter fun e => e.1 < keyOf cc lateSlot && match e.2 with
    | .pendingWriteComplete t' k' _ | .systemRegisterPropagate t' k' _ _ => t' == t && k' == k
    | _ => false
  let s' : State := { s with agenda := s.agenda.filter fun e => !due.contains e, cc := cc }
  s'.each due fun s e => match e.2 with
    | .pendingWriteComplete _ _ w => s.onTile t fun x => x.commit k w
    | .systemRegisterPropagate _ _ r w => s.sysWrite t k r w
    | _ => s

/-- A member as it will stand at a cc, once it has run at its skew what its lead has passed on. -/
def State.ahead (s : State) (c : Nat) (m : Nat × Nat) (cc : Nat) : State :=
  let items := (s.cluster c).stream.filter fun i => (s.strand m.1 m.2).gangSeq ≤ i.seq
  (s.each items fun s i => match (s.landBy m.1 m.2 (i.cc + skew (posOf m.1))).runItem c m.1 m.2 i with
    | .next s => s
    | _ => s).landBy m.1 m.2 cc

/-! ### The lead -/

/-- A thermal stop or an overrun of a panel. -/
def State.bareTrap (s : State) (c t k : Nat) (cause : Cause) : State :=
  let i := s.bareInfo t k cause
  s.spend.panelTrap c t k i i

/-- Whether a member will violate its scoreboard or a slot when the bundle reaches it (R33, R36, R164). -/
def State.violates (s : State) (c : Nat) (m : Nat × Nat) (l : List Instr) (len : Nat) (stg : Vector DWord 8) : Bool :=
  let cc := s.cc + skew (posOf m.1)
  let s := s.ahead c m cc
  cc < pendingOf l (s.begin m.1 m.2 len true (some stg)) || l.any (slotBusy cc (s.tile m.1))

/-- What a member has to wait for: a wait word of the member's own asks that it has caught up (log 22). -/
def State.memberWait (s : State) (c : Nat) (m : Nat × Nat) (l : List Instr) (len : Nat) (stg : Vector DWord 8) : Option Wait :=
  match checkAll l (s.begin m.1 m.2 len true (some stg)) with
  | .block w => some w
  | _ =>
    if s.caughtUp c m then none
    else l.findSome? fun i => match i with
      | .fen mask => some (.engines mask)
      | .awt a _ _ => some (.arrival (s.strand m.1 m.2 |>.readG a).toNat 0)
      | _ => none

/-- How a panel stops before a NODE, or after a bundle that tests the flag (R311). -/
def State.panelStop (s : State) (c : Nat) (node : Bool) : Option Stopped :=
  let ms := s.members c
  if ms.any fun m => s.noStops m.1 then none
  else if ms.any fun m => (s.tile m.1).saving == .deep then some .deep
  else if node && ms.any (fun m => (s.strand m.1 m.2).trap.pend) then some .cheap else none

/-- The panel stops at this bundle of its lead. -/
def State.stopPanel (s : State) (c t k : Nat) (how : Stopped) : State :=
  (s.pass c { s.item t k .stop with stopHere := how == .deep }).memberStop t k how

/-- The lead waits, and its members with it: a barrier is joined by each at its skew (R279). -/
def State.leadWait (s : State) (c t k len : Nat) (w : Wait) : State :=
  let s := if (s.strand t k).block == some w then s
    else
      let s := ((s.begin t k len false none).onMe fun x => { x with block := some w }).startWait t k w
      s.pass c (s.item t k .try)
  s.onTile t fun y => { y with act := some (s.cc + 1) }

/-- The lead issues a bundle, and passes on where it goes. -/
def State.leadIssue (s : State) (c t k : Nat) (l : List (Nat × Instr)) (len : Nat) : Result :=
  let it := s.item t k .issue
  match s.issue l t k len false none ((s.panelStop c false).isSome) with
  | .next s =>
    let x := s.strand t k
    .next (s.pass c { it with next := x.pc, loop0 := x.loop0, loop1 := x.loop1, node := x.node }).wrapUp
  | r => r

/-- The lead's next bundle. -/
def State.leadBundle (s : State) (c t k : Nat) : Result :=
  let x := s.strand t k
  match s.look t k none with
  | .trap i => .next (s.panelTrap c t k i i)
  | .place => .next (s.startPlacement t k)
  | .stall p => .next (s.onTile t fun y => { y with act := some p })
  | .block w len => .next (if x.stopHere then s.stopPanel c t k .deep else s.leadWait c t k len w)
  | .go l len =>
    let is := l.map (·.2)
    let stg := (s.tile t).a
    if (s.others c).any fun m => s.violates c m is len stg then
      let i := s.preciseAt t k .schedule none none
      .next (s.panelTrap c t k i i)
    else if x.stopHere then .next (s.stopPanel c t k .deep)
    else match (s.others c).findSome? fun m => s.memberWait c m is len stg with
      | some w => .next (s.leadWait c t k len w)
      | none =>
        match (if hasNode l then s.panelStop c true else none) with
        | some how => .next (s.stopPanel c t k how)
        | none => s.leadIssue c t k l len

/-- The turn of a panel's lead. -/
def leadTurn (t k : Nat) (s : State) : Result :=
  let c := clusterOf t
  let x := s.strand t k
  if x.halted || x.stopped != .no then .next (s.leave t k)
  else if !s.heldTile t && (s.members c).any (fun m => (s.strand m.1 m.2).thermal) then
    .next ((s.each (s.members c) fun s m => s.onStrand m.1 m.2 fun x => { x with thermal := false }).bareTrap c t k .thermal)
  else if !s.heldTile t && x.overrun then .next ((s.onStrand t k fun x => { x with overrun := false }).bareTrap c t k .overrun)
  else if x.hold.isSome || s.heldTile t then .next (s.onTile t fun y => { y with act := some (s.cc + 1) })
  else if s.cc < x.nextCc then .next (s.onTile t fun y => { y with act := some x.nextCc })
  else
    let s := s.gatherFaults c
    match s.panelDue c t k with
    | some f =>
      let s := s.onCluster c fun y => { y with panel := y.panel.map fun p => { p with traps := p.traps.erase f } }
      .next (s.panelTrap c t k (if namesBundle f.2.cause then s.preciseAt t k f.2.cause none none else (s.strand t k).panelRecord f.2) f.2)
    | none => s.leadBundle c t k

/-! ### The turn of a member -/

/-- After an item: the member waits for the next; the last member's items are gone. -/
def State.nextItem (s : State) (c t k : Nat) (it : LeadBundle) : State :=
  let s := if posOf t = 7 then s.onCluster c fun x => { x with stream := x.stream.filter fun i => it.seq < i.seq } else s
  if (s.tile t).running == some k && (s.strand t k).gang == .ganged then
    s.onTile t fun y => { y with act := ((s.cluster c).stream.find? (·.seq == it.seq + 1)).map fun i => max (s.cc + 1) (i.cc + skew (posOf t)) }
  else if (s.tile t).running == some k then s.onTile t fun y => { y with act := some (s.cc + 1) }
  else s

/-- The turn of a panel's member. -/
def followTurn (t k : Nat) (s : State) : Result :=
  let c := clusterOf t
  let x := s.strand t k
  if x.halted || x.stopped != .no then .next (s.leave t k)
  else match (s.cluster c).stream.find? (·.seq == x.gangSeq) with
    | none => .next (s.onTile t fun y => { y with act := none })
    | some it =>
      let due := it.cc + skew (posOf t)
      if s.cc < due then .next (s.onTile t fun y => { y with act := some due })
      else match s.runItem c t k it with
        | .next s => .next (s.nextItem c t k it)
        | r => r

/-! ### A core's turn -/

/-- The turn of a core (R135, R136, R164). -/
def coreTurn (t : Nat) (s : State) : Result :=
  match (s.tile t).running with
  | none => execStrandSelect t s
  | some k =>
    let x := s.strand t k
    if x.gang == .ganged && (SMap.find x.barPassed gangCode).isNone then
      if posOf t = 0 then leadTurn t k s else followTurn t k s
    else strandTurn t k s

end Sys2Proof.Machine
end

