-- ==== Sys2Proof/Machine/Step.lean ====
section
/-! DEFINITION. One step of the package: the next step of the agenda that has come, else the next core's turn, else the next
phase of the cc or the next cc (R2, R24; log 7). -/
namespace Sys2Proof.Machine

/-- A step of the agenda takes place: the meaning of its event. -/
def runEvent (e : Event) (s : State) : Result :=
  match e with
  | .pendingWriteComplete x0 x1 x2 => execPendingWriteComplete x0 x1 x2 s
  | .strandSelect x0 => execStrandSelect x0 s
  | .waitSatisfied x0 x1 => execWaitSatisfied x0 x1 s
  | .takeTrap x0 x1 x2 => execTakeTrap x0 x1 x2 s
  | .overrun x0 x1 => execOverrun x0 x1 s
  | .extentPlacement x0 x1 => execExtentPlacement x0 x1 s
  | .pageWalkComplete x0 x1 => execPageWalkComplete x0 x1 s
  | .releaseComplete x0 x1 x2 => execReleaseComplete x0 x1 x2 s
  | .counterAdd x0 x1 x2 x3 => execCounterAdd x0 x1 x2 x3 s
  | .barrierComplete x0 => execBarrierComplete x0 s
  | .streamCommandStart x0 => execStreamCommandStart x0 s
  | .streamCommandComplete x0 x1 => execStreamCommandComplete x0 x1 s
  | .arrival x0 x1 x2 => execArrival x0 x1 x2 s
  | .dunfRow x0 x1 x2 => execDunfRow x0 x1 x2 s
  | .publishSwap x0 x1 => execPublishSwap x0 x1 s
  | .kilnCommandStart x0 => execKilnCommandStart x0 s
  | .kilnCommandComplete x0 => execKilnCommandComplete x0 s
  | .spltDrain x0 => execSpltDrain x0 s
  | .spltComplete x0 => execSpltComplete x0 s
  | .wldBeat x0 x1 => execWldBeat x0 x1 s
  | .strmBeat x0 x1 => execStrmBeat x0 x1 s
  | .strmRowsFinal x0 x1 => execStrmRowsFinal x0 x1 s
  | .drnBeat x0 x1 => execDrnBeat x0 x1 s
  | .drnOutputFinal x0 x1 => execDrnOutputFinal x0 x1 s
  | .aclrBeat x0 x1 => execAclrBeat x0 x1 s
  | .quiltBeat x0 x1 => execQuiltBeat x0 x1 s
  | .quiltStepCycle x0 x1 => execQuiltStepCycle x0 x1 s
  | .quiltCommandComplete x0 => execQuiltCommandComplete x0 s
  | .fabricQueueArrival x0 => execFabricQueueArrival x0 s
  | .rickAgeDeparture x0 x1 => execRickAgeDeparture x0 x1 s
  | .ringSlotArrival x0 x1 x2 => execRingSlotArrival x0 x1 x2 s
  | .cordPerform x0 => execCordPerform x0 s
  | .remoteLoadRequest x0 => execRemoteLoadRequest x0 s
  | .flitCrcFailure x0 x1 => execFlitCrcFailure x0 x1 s
  | .mgrpComplete x0 x1 x2 => execMgrpComplete x0 x1 x2 s
  | .mlrJoin x0 => execMlrJoin x0 s
  | .mlrJoinDeadline x0 => execMlrJoinDeadline x0 s
  | .mlrComplete x0 => execMlrComplete x0 s
  | .tlbiComplete x0 => execTlbiComplete x0 s
  | .shootdownArrival x0 x1 => execShootdownArrival x0 x1 s
  | .holderCountUpdate x0 x1 x2 x3 => execHolderCountUpdate x0 x1 x2 x3 s
  | .shotComplete x0 => execShotComplete x0 s
  | .governorEpoch x0 => execGovernorEpoch x0 s
  | .patrolScrub x0 x1 => execPatrolScrub x0 x1 s
  | .launchTake x0 => execLaunchTake x0 s
  | .admission x0 => execAdmission x0 s
  | .launchStart x0 => execLaunchStart x0 s
  | .workUnitStart x0 => execWorkUnitStart x0 s
  | .workUnitComplete x0 => execWorkUnitComplete x0 s
  | .launchEnd x0 => execLaunchEnd x0 s
  | .launchResume x0 => execLaunchResume x0 s
  | .superstepBoundary x0 => execSuperstepBoundary x0 s
  | .idleSuperstep x0 x1 => execIdleSuperstep x0 x1 s
  | .idleSuperstepEnd x0 => execIdleSuperstepEnd x0 s
  | .clockChange x0 => execClockChange x0 s
  | .powerLimit x0 x1 => execPowerLimit x0 x1 s
  | .thermalEmergency => execThermalEmergency s
  | .stopFlagSet x0 x1 x2 => execStopFlagSet x0 x1 x2 s
  | .stopWindowExpiry x0 x1 => execStopWindowExpiry x0 x1 s
  | .tileSaveComplete x0 => execTileSaveComplete x0 s
  | .clusterRegionSave x0 => execClusterRegionSave x0 s
  | .clusterStopComplete x0 => execClusterStopComplete x0 s
  | .hangWatchdog x0 => execHangWatchdog x0 s
  | .sequencerOverrun x0 => execSequencerOverrun x0 s
  | .selfTestStart x0 => execSelfTestStart x0 s
  | .selfTestVerdict x0 x1 x2 => execSelfTestVerdict x0 x1 x2 s
  | .systemRegisterPropagate x0 x1 x2 x3 => execSystemRegisterPropagate x0 x1 x2 x3 s
  | .packageReset => execPackageReset s
  | .functionReady x0 => execFunctionReady x0 s
  | .bootStage x0 x1 x2 => execBootStage x0 x1 x2 s
  | .getVersion => execGetVersion s
  | .getCapabilities => execGetCapabilities s
  | .negotiateAlgorithms => execNegotiateAlgorithms s
  | .getDigests => execGetDigests s
  | .getCertificate x0 => execGetCertificate x0 s
  | .challenge x0 => execChallenge x0 s
  | .getMeasurements x0 => execGetMeasurements x0 s
  | .hdmRead x0 x1 => execHdmRead x0 x1 s
  | .hdmWrite x0 x1 => execHdmWrite x0 x1 s
  | .counterAddPort x0 x1 x2 x3 => execCounterAddPort x0 x1 x2 x3 s
  | .counterReadSlot x0 => execCounterReadSlot x0 s
  | .watchEntryWrite x0 x1 x2 x3 => execWatchEntryWrite x0 x1 x2 x3 s
  | .popPortRead x0 x1 x2 => execPopPortRead x0 x1 x2 s
  | .staggerWrite x0 => execStaggerWrite x0 s
  | .staggerMessage x0 x1 => execStaggerMessage x0 x1 s
  | .mgmtRegisterWrite x0 x1 x2 => execMgmtRegisterWrite x0 x1 x2 s
  | .coreDieTemperature x0 x1 => execCoreDieTemperature x0 x1 s
  | .mgmtWindowRead x0 x1 => execMgmtWindowRead x0 x1 s

/-- The first core in increasing tile id that has its turn in this cc. -/
def State.nextCore (s : State) : Option Nat :=
  (s.tiles.find? fun e => match e.2.act with | none => false | some a => a ≤ s.cc).map (·.1)

/-- Whether an event is the progress of a command of a tile: a row of an unfolding, a remote load, a group, a shootdown. -/
def progressOf (t : Nat) : Event → Bool
  | .dunfRow t' _ _ | .streamCommandComplete t' _ => t' == t
  | .ringSlotArrival (.load r) _ _ | .remoteLoadRequest r => r.org.tile == t
  | .mgrpComplete o _ _ => o.tile == t
  | .tlbiComplete c | .shotComplete c => c.org.tile == t
  | _ => false

/-- Whether an engine command of a tile is in progress that waits on no counter, credit, arrival or join (R317). A DUNF
between its rows waits for a credit, a reduction that has not been resolved for its group. -/
def State.engineBusy (s : State) (t : Nat) : Bool :=
  let x := s.tile t
  let k := (s.cluster (clusterOf t)).krun
  !x.arr.isEmpty || x.qcmd.isSome || !x.fq.isEmpty || !x.yq.isEmpty || x.sp.any (fun c => c.op != .dunf) ||
    (match k with | none => false | some c => c.org.tile == t) ||
    s.mlrs.any (fun m => m.local_ && m.org.tile == t && m.phase == .resolved) ||
    ((s.die (dieOf t)).ricks.any fun r => strandIds.any fun j => r.holds t j) ||
    s.agenda.any fun e => progressOf t e.2

/-- Whether the hang watchdog of a tile counts this cc (R317). -/
def State.hangs (s : State) (t : Nat) : Bool :=
  let x := s.tile t
  x.unitOn && x.saveAt.isNone && !x.isolated && (strandIds.any (s.canRun t) || s.engineBusy t)

/-- The cc ends: watchdogs count, records enter their queues, a ms of power may end, and the next cc begins. -/
def State.tick (s : State) : State :=
  let tiles := s.tiles.map fun e => (e.1, if s.hangs e.1 then { e.2 with hang := e.2.hang + 1 } else e.2)
  let s' : State := { s with tiles := tiles, cc := s.cc + 1, late := false }
  let s' := if s'.cc < s'.power.msAt then s' else s'.powerMs
  s'.settleQueues.each (tiles.filter fun e => e.2.hang == hangLimit) fun s e => s.sched s.cc 14 (.hangWatchdog e.1)

/-- The first key that is not due in this phase of the cc. -/
def State.horizon (s : State) : Nat := if s.late then keyOf (s.cc + 1) 0 else keyOf s.cc lateSlot

/-- What happens when no step of the agenda is due. -/
def State.idle (s : State) : Result :=
  if s.late then .next s.tick
  else match s.nextCore with
    | some t => coreTurn t s
    | none => .next { s with late := true }

/-- One step. -/
def step (s : State) : Host.Outcome State Fault Refusal :=
  match s.agenda with
  | [] => s.idle
  | (k, e) :: l => if k < s.horizon then runEvent e { s with agenda := l } else s.idle

/-! ### A word to run next -/

/-- A launch whose code is a row's words with words of zeros behind them, running on cluster 0. -/
def fetchLaunch (w : Nat) : Launch :=
  let l := Launch.taken 0 (launchRecOf (2 ^ 192 + 2 ^ 225 + 2 ^ 234)) 0
  { l with phase := .running, runs := 1, img := { Image.empty with code := rowWords w ++ [0, 0, 0] } }

/-- The state with the word of a row of the opcode table as the next bundle's (log 6): a launch that has started on tile 0
stands in place of the loading of a program, at the cc of its work unit's start. -/
def State.withFetchWord (s : State) (nbits w : Nat) : State :=
  let l := fetchLaunch (w % 2 ^ nbits)
  let x : Tile := { s.tile 0 with launch := some 0, isolated := false, retired := false }
  { s with
    agenda := [], late := false, launches := SMap.put s.launches 0 l
    tiles := SMap.put s.tiles 0 (x.startUnit l s.cc) }

end Sys2Proof.Machine
end

