-- ==== Sys2Proof/Safety.lean ====
section
/-! DEFINITION. The terms that claims use: what it means that only a part of the state changes, that a word leaves a
pending write, that bytes stay; and the spec's tables of results, written from its words over integers, reals and bits,
against which the meanings are held. -/
namespace Sys2Proof.Machine

/-! ### Safe runs -/

/-- A run of n steps that stops at no fault and no refusal. -/
def safeRun (n : Nat) (s : State) : Prop := ∃ t, core.run n s = .next t

/-! ### What stays -/

/-- Only the steps to come and the executing strand differ: no other strand, no part of a tile outside its strands, no
cluster, die, launch or register of the package. -/
def OnlyMe (s t : State) : Prop :=
  { t with agenda := s.agenda, tiles := s.tiles } = s ∧
  (∀ n, n ≠ s.bun.tile → t.tile n = s.tile n) ∧
  { t.myTile with strands := s.myTile.strands } = s.myTile ∧
  ∀ k, k ≠ s.bun.strand → t.strand s.bun.tile k = s.strand s.bun.tile k

/-- Only the steps to come and the scoreboard of the executing strand differ: every register, flag, memory byte and
program counter is as it was. -/
def Quiet (s t : State) : Prop := OnlyMe s t ∧ { t.me with board := s.me.board } = s.me

/-- What the scoreboard of a strand watches because of a write that completes at a cc (R32). -/
def watchOf (w : Write) (cc : Nat) : List (Dest × Nat) := match destOf w with | none => [] | some d => [(d, cc)]

/-- The executing word leaves one pending write, which completes at its bound (R30, R31), and changes nothing else. -/
def Posts (s t : State) (bound : Nat) (w : Write) : Prop :=
  Quiet s t ∧
  t.agenda = insertKey (keyOf (s.cc + bound) 0) (.pendingWriteComplete s.bun.tile s.bun.strand w) s.agenda ∧
  t.me.board = watchOf w (s.cc + bound) ++ s.me.board

/-- Only strand k of tile n differs. -/
def OnlyStrandOf (s t : State) (n k : Nat) : Prop :=
  { t with tiles := s.tiles } = s ∧ (∀ m, m ≠ n → t.tile m = s.tile m) ∧
  { t.tile n with strands := (s.tile n).strands } = s.tile n ∧ ∀ j, j ≠ k → t.strand n j = s.strand n j

/-- Every byte of every scratchpad, cluster store and memory stack reads as before. -/
def SameBytes (s t : State) : Prop :=
  (∀ n a, (t.tile n).scratch.read a = (s.tile n).scratch.read a) ∧
  (∀ c a, (t.cluster c).store.read a = (s.cluster c).store.read a) ∧
  ∀ d a, (t.die d).mem.read a = (s.die d).mem.read a

/-- Bits of a staging register that Tables ARR-3 and QLT-6 reserve. -/
def specReserved (e : Eng) (i b : Nat) : Bool :=
  match e, i with
  | .array, 2 | .quilt, 1 => 32 ≤ b
  | .array, 5 => 17 ≤ b && b < 40
  | .array, 6 | .array, 7 | .quilt, 2 | .quilt, 5 | .quilt, 6 | .quilt, 7 => true
  | _, _ => false

/-! ### Rounded results -/

/-- R49: a code of the format with p significand bits is finite. -/
def codeFinite (p c : Nat) : Prop := c / 2 ^ (p - 1) % 256 ≠ 255
/-- R49: the sign of a code. -/
def codeNeg (p c : Nat) : Bool := c / 2 ^ (p + 7) % 2 == 1
/-- R49: the value of a finite code: bias 127, and no hidden bit where the exponent field is 0. -/
def codeVal (p c : Nat) : ℚ :=
  let x := c / 2 ^ (p - 1) % 256
  let f := c % 2 ^ (p - 1)
  (if codeNeg p c then -1 else 1) *
    if x = 0 then (f : ℚ) * 2 ^ (-125 - p : ℤ) else (2 ^ (p - 1) + f : ℚ) * 2 ^ (x - 126 - p : ℤ)

/-- The four modes of R50 and R63: n is the integer to which a mode rounds y. -/
def RoundsTo (rm : Rnd) (y : ℝ) (n : ℤ) : Prop :=
  match rm with
  | .rne => |y - n| ≤ 1 / 2 ∧ (|y - n| = 1 / 2 → Even n)
  | .rtz => |(n : ℝ)| ≤ |y| ∧ |y| < |(n : ℝ)| + 1 ∧ 0 ≤ y * n
  | .rdn => n ≤ y ∧ y < n + 1
  | .rup => y ≤ n ∧ n < y + 1

/-- R50: a code and its flags are the real x, not zero, rounded once into the format with p significand bits. x lies in
[2^k, 2^(k+1)) in magnitude; n counts its last places, which never lie below those of the subnormals, and u those that it would
have without that limit, by which tininess is judged after rounding. A result of 2^128 or more overflows: to infinity, or to
the largest finite number where the mode rounds toward zero. -/
def Rounded (p : Nat) (rm : Rnd) (x : ℝ) (r : Flagged Nat) : Prop :=
  ∃ k n u : ℤ, 2 ^ k ≤ |x| ∧ |x| < 2 ^ (k + 1) ∧
    let q := max (k + 1 - p) (-125 - p)
    let out : ℝ := n * 2 ^ q
    let away := rm = .rne ∨ (rm = .rdn ∧ x < 0) ∨ (rm = .rup ∧ 0 < x)
    RoundsTo rm (x / 2 ^ q) n ∧ RoundsTo rm (x / 2 ^ (k + 1 - p)) u ∧ r.1 < 2 ^ (p + 8) ∧ (codeNeg p r.1 = true ↔ x < 0) ∧
    (2 ^ 128 ≤ |out| → (away → r.1 % 2 ^ (p + 7) = 255 * 2 ^ (p - 1)) ∧ (¬away → r.1 % 2 ^ (p + 7) = 255 * 2 ^ (p - 1) - 1) ∧
      r.2 = { Flags.zero with ov := true, nx := true }) ∧
    (|out| < 2 ^ 128 → codeFinite p r.1 ∧ codeVal p r.1 = out ∧
      { r.2 with nx := false, uf := false } = .zero ∧ (r.2.nx = true ↔ out ≠ x) ∧
      (r.2.uf = true ↔ out ≠ x ∧ |(u : ℝ)| * 2 ^ (k + 1 - p) < 2 ^ (-126 : ℤ)))

/-- R51 (Table NUM-1): the exponent of a signed log code of so many bits, in units of 2^-F. -/
def logExp (bits c : Nat) : ℤ := (c % 2 ^ (bits - 1) : Nat) - 2 ^ (bits - 2)
/-- R51: the value of a nonzero signed log code that is no NaR, with 2^F steps per octave. -/
def LogIs (bits F c : Nat) (x : ℝ) : Prop :=
  x = (if 2 ^ (bits - 1) ≤ c then -1 else 1) * 2 ^ ((logExp bits c : ℝ) / 2 ^ F)
/-- R62: the exponent e to which a mode rounds y for a magnitude of this sign. -/
def RoundsLog (rm : Rnd) (neg : Bool) (y : ℝ) (e : ℤ) : Prop :=
  match rm, neg with
  | .rne, _ => |y - e| ≤ 1 / 2 ∧ (|y - e| = 1 / 2 → Even e)
  | .rtz, _ | .rdn, false | .rup, true => e ≤ y ∧ y < e + 1
  | .rdn, true | .rup, false => y ≤ e ∧ e < y + 1
/-- R62: the signed code of a sign and an exponent, clamped to the nonzero range with CL. -/
def logCode (bits : Nat) (neg : Bool) (e : ℤ) : Flagged Nat :=
  let m := e + 2 ^ (bits - 2)
  let top : ℤ := 2 ^ (bits - 1) - 1
  ((if neg then 2 ^ (bits - 1) else 0) + (max 1 (min top m)).toNat, if 1 ≤ m ∧ m ≤ top then .zero else .clamp)

/-- R176: VLMUL. -/
def specLogMul (bits a b : Nat) : Flagged Nat :=
  let nar := 2 ^ (bits - 1)
  if a = nar ∨ b = nar then (nar, .invalid) else if a = 0 ∨ b = 0 then (0, .zero)
  else logCode bits (decide (nar ≤ a) != decide (nar ≤ b)) (logExp bits a + logExp bits b)
/-- R176: VLRCP. -/
def specLogRcp (bits a : Nat) : Flagged Nat :=
  let nar := 2 ^ (bits - 1)
  if a = nar ∨ a = 0 then (nar, .invalid) else (a / nar * nar + (2 ^ (bits - 1) - a % nar), .zero)

/-- R72. -/
def specKindle (k c : Nat) : Nat :=
  let turn (x : Nat) : Nat := let y := x * 0xD1B54A32D192ED03 % 2 ^ 64; y ^^^ (y / 2 ^ 29)
  turn (turn (turn (c ^^^ k))) / 2 ^ 32

/-! ### Class S -/

/-- s64(x) of R141. -/
def s64 (x : DWord) : Int := x.toInt
/-- n64(x) of R141. -/
def n64 (x : DWord) : Nat := x.toNat
/-- sign_extend(x[31:0], 64) of an integer. -/
def w64 (x : Int) : DWord := BitVec.ofInt 64 (x.bmod (2 ^ 32))

/-- R142: quotient and remainder. -/
def specDiv (nat : Bool) (a b : DWord) : DWord × DWord :=
  if b = 0 then (BitVec.allOnes 64, a)
  else if !nat && s64 a == -2 ^ 63 && s64 b == -1 then (a, 0)
  else
    let x : Int := if nat then n64 a else s64 a
    let y : Int := if nat then n64 b else s64 b
    (BitVec.ofInt 64 (x.tdiv y), BitVec.ofInt 64 (x - x.tdiv y * y))

/-- R143: the first bit of a field, and the bit above its last. -/
def specPos (b : DWord) : Nat := b.toNat % 64
/-- R143: top. -/
def specTop (b : DWord) : Nat := min (specPos b + min (b.toNat / 256 % 128) 64) 64

/-- A row of Table COR-3 with a register form and an immediate form: its bound (Table WRD-6) and its result. -/
structure ScalarRow where
  reg : Reg → Reg → Reg → Reg3 → Instr
  imm : Reg → Reg → BitVec 10 → List LWord → Instr
  bound : Nat
  fn : DWord → DWord → DWord

/-- Table COR-3: the rows whose result is a function of a and b. -/
def scalarRows : List ScalarRow := [
  ⟨.add, .addImm, 1, fun a b => BitVec.ofNat 64 (n64 a + n64 b)⟩,
  ⟨.sub, .subImm, 1, fun a b => BitVec.ofInt 64 (n64 a - n64 b)⟩,
  ⟨.mul, .mulImm, 3, fun a b => BitVec.ofNat 64 (n64 a * n64 b)⟩,
  ⟨.mulh, .mulhImm, 4, fun a b => BitVec.ofInt 64 (s64 a * s64 b / 2 ^ 64)⟩,
  ⟨.mulhn, .mulhnImm, 4, fun a b => BitVec.ofNat 64 (n64 a * n64 b / 2 ^ 64)⟩,
  ⟨.div, .divImm, 20, fun a b => (specDiv false a b).1⟩,
  ⟨.divn, .divnImm, 20, fun a b => (specDiv true a b).1⟩,
  ⟨.rem, .remImm, 20, fun a b => (specDiv false a b).2⟩,
  ⟨.remn, .remnImm, 20, fun a b => (specDiv true a b).2⟩,
  ⟨.addw, .addwImm, 1, fun a b => w64 (n64 a + n64 b)⟩,
  ⟨.subw, .subwImm, 1, fun a b => w64 (n64 a - n64 b)⟩,
  ⟨.mulw, .mulwImm, 3, fun a b => w64 (n64 a * n64 b)⟩,
  ⟨.and, .andImm, 1, fun a b => a &&& b⟩,
  ⟨.or, .orImm, 1, fun a b => a ||| b⟩,
  ⟨.xor, .xorImm, 1, fun a b => a ^^^ b⟩,
  ⟨.andn, .andnImm, 1, fun a b => a &&& ~~~b⟩,
  ⟨.shl, .shlImm, 1, fun a b => BitVec.ofNat 64 (n64 a * 2 ^ (n64 b % 64))⟩,
  ⟨.shr, .shrImm, 1, fun a b => BitVec.ofNat 64 (n64 a / 2 ^ (n64 b % 64))⟩,
  ⟨.shra, .shraImm, 1, fun a b => BitVec.ofInt 64 (s64 a / 2 ^ (n64 b % 64))⟩,
  ⟨.shlw, .shlwImm, 1, fun a b => w64 (n64 a * 2 ^ (n64 b % 32))⟩,
  ⟨.shrw, .shrwImm, 1, fun a b => w64 (n64 a % 2 ^ 32 / 2 ^ (n64 b % 32) : Nat)⟩,
  ⟨.shraw, .shrawImm, 1, fun a b => w64 ((s64 a).bmod (2 ^ 32) / 2 ^ (n64 b % 32))⟩,
  ⟨.min, .minImm, 1, fun a b => if s64 a ≤ s64 b then a else b⟩,
  ⟨.max, .maxImm, 1, fun a b => if s64 a ≤ s64 b then b else a⟩,
  ⟨.minn, .minnImm, 1, fun a b => if n64 a ≤ n64 b then a else b⟩,
  ⟨.maxn, .maxnImm, 1, fun a b => if n64 a ≤ n64 b then b else a⟩,
  ⟨.bfx, .bfxImm, 1, fun a b => BitVec.ofNat 64 (n64 a / 2 ^ specPos b % 2 ^ (specTop b - specPos b))⟩]

/-- Leading zero bits of a (Table COR-3): the bits above its first one bit from the top. -/
def specClz (a : DWord) : Nat := ((List.range 64).takeWhile fun i => !a.getLsbD (63 - i)).length
/-- One bits of a (Table COR-3). -/
def specPopc (a : DWord) : Nat := (List.range 64).countP fun i => a.getLsbD i

/-- Table COR-4 on integers: a and b are read as 64 or as 32 bits. -/
def specCmp (k : Cond) (w : Bool) (a b : DWord) : Prop :=
  let si (x : DWord) : Int := if w then (s64 x).bmod (2 ^ 32) else s64 x
  let na (x : DWord) : Nat := if w then n64 x % 2 ^ 32 else n64 x
  match k with
  | .eq => na a = na b
  | .ne => na a ≠ na b
  | .lt => si a < si b
  | .ge => si b ≤ si a
  | .ltn => na a < na b
  | .gen => na b ≤ na a

/-! ### Class M -/

/-- A fault of the executing word that its strand takes later, by a bound (R103, R306): the strand holds it, and nothing
else changes but the scoreboard and the steps to come. -/
def FaultsLater (s t : State) (bound : Nat) (c : Cause) (engine seq : Nat) (isw : Word) (addr : DWord) : Prop :=
  OnlyMe s t ∧ { t.me with faults := s.me.faults, board := s.me.board } = s.me ∧
  ∃ due i, s.cc < due ∧ due ≤ s.cc + bound ∧ t.me.faults = s.me.faults ++ [(due, i)] ∧
    i.cause = c ∧ i.engine = engine ∧ i.seq = seq ∧ i.isw = isw ∧ i.addr = addr ∧ i.pc = s.bun.first

/-- A load of Table COR-7: its constructor, its size, and whether it extends the sign. -/
structure LoadRow where
  word : Reg → Reg → MSpace → BitVec 10 → List LWord → Instr
  size : Nat
  sgn : Bool

/-- The loads of Table COR-7. -/
def loadRows : List LoadRow := [⟨.ldb, 1, true⟩, ⟨.ldbn, 1, false⟩, ⟨.ldh, 2, true⟩, ⟨.ldhn, 2, false⟩, ⟨.ldw, 4, true⟩,
  ⟨.ldwn, 4, false⟩, ⟨.ldd, 8, false⟩]

/-- A store of Table COR-7: its constructor and its size. -/
structure StoreRow where
  word : Reg → Reg → MSpace → BitVec 10 → List LWord → Instr
  size : Nat

/-- The stores of Table COR-7. -/
def storeRows : List StoreRow := [⟨.stb, 1⟩, ⟨.sth, 2⟩, ⟨.stw, 4⟩, ⟨.std, 8⟩]

/-- The register that a load of these little-endian bytes gives (R1, Table COR-7). -/
def specLoaded (sgn : Bool) (bs : List Byte) : DWord :=
  if sgn then BitVec.ofInt 64 ((leNat bs : Int).bmod (2 ^ (8 * bs.length))) else BitVec.ofNat 64 (leNat bs)

/-- The byte of a register that a store puts at its address plus j (R1). -/
def specByte (x : DWord) (j : Nat) : Byte := BitVec.ofNat 8 (x.toNat / 256 ^ j)

/-- The executing strand owns n bytes of a register from an address on, and nothing else of it changes (R150, R260): it sees
them as its own writes, over what it saw there. -/
def OwnsMe (s t : State) (store : Bool) (a n : Nat) (x : DWord) : Prop :=
  { t.me with owned := s.me.owned } = s.me ∧
  ∀ (sp : Bool) (j : Nat), t.me.ownWrite sp j =
    if sp = store ∧ a ≤ j ∧ j < a + n then some (specByte x (j - a)) else s.me.ownWrite sp j

/-- The executing strand owns n bytes of a register, and nothing else changes. -/
def Owns (s t : State) (store : Bool) (a n : Nat) (x : DWord) : Prop :=
  OnlyMe s t ∧ t.agenda = s.agenda ∧ OwnsMe s t store a n x

/-- No strand but the executing one changes. -/
def OtherStrands (s t : State) : Prop := ∀ n k, (n, k) ≠ (s.bun.tile, s.bun.strand) → t.strand n k = s.strand n k

/-- A fault of the executing word that its strand takes later, by a bound, where the word's translation may change TLBs and
counts: of the strands only this one changes, and of it only its faults and its scoreboard. -/
def FaultsBy (s t : State) (bound : Nat) (c : Cause) (engine : Nat) (isw : Word) (addr : DWord) : Prop :=
  OtherStrands s t ∧ SameBytes s t ∧ { t.me with faults := s.me.faults, board := s.me.board } = s.me ∧
  ∃ due i, s.cc < due ∧ due ≤ s.cc + bound ∧ t.me.faults = s.me.faults ++ [(due, i)] ∧
    i.cause = c ∧ i.engine = engine ∧ i.seq = s.me.bundleSeq ∧ i.isw = isw ∧ i.addr = addr ∧ i.pc = s.bun.first

/-- A load writes its register at a bound, where its translation may change TLBs and counts: of the strands only this one
changes, and of it only its scoreboard. -/
def LoadsBy (s t : State) (bound : Nat) (g : Reg) (v : DWord) : Prop :=
  OtherStrands s t ∧ SameBytes s t ∧ { t.me with board := s.me.board } = s.me ∧
  t.me.board = watchOf (.g g v) (s.cc + bound) ++ s.me.board ∧
  (keyOf (s.cc + bound) 0, Event.pendingWriteComplete s.bun.tile s.bun.strand (.g g v)) ∈ t.agenda

/-- R105, R148: the bound of an access under a translation: 1,024, and for a walk 2,048 for each begun sixteen pages of the walk
queue up to its own. -/
def xlateBound (s : State) (ea : DWord) (miss : Bool) : Nat :=
  1024 + if miss then 2048 * (1 + (s.cluster s.myCluster).queueAhead (ea.toNat / 65536) / 16) else 0

/-! ### Class B -/

/-- Only what the executing bundle asks of the core at its end differs. -/
def OnlyBundle (s t : State) : Prop := { t with bun := s.bun } = s

/-- The other loop of a strand after loop l was deactivated: inactive too if it is nested (R155). -/
def otherAfter (x : Strand) (l : Bool) : Loop := if (x.loop !l).nest then { x.loop !l with act := false } else x.loop !l

/-- Only the loop registers of the executing strand differ, of which these are the new values. -/
def SetsLoops (s t : State) (l : Bool) (mine other : Loop) : Prop :=
  OnlyMe s t ∧ t.agenda = s.agenda ∧ { t.me with loop0 := s.me.loop0, loop1 := s.me.loop1 } = s.me ∧
  t.me.loop l = mine ∧ t.me.loop (!l) = other

/-- R153: the other loop is active, and the new one would end after its END or starts before its START. -/
def loopConflict (s : State) (l : Bool) (e : Nat) : Prop :=
  let f := s.bun.first.toNat
  let o := s.me.loop !l
  o.act = true ∧ (o.stop.toNat < f + e ∨ f < o.start.toNat)

/-- R153: no trap for a loop setup with this count and this displacement of its last bundle. -/
def loopFits (s : State) (l : Bool) (n : DWord) (e : Nat) : Prop :=
  s.bun.len ≤ e ∧ n.toNat ≤ 0xFFFFFFFF ∧ ¬loopConflict s l e

/-- R154: both loops of a strand are active with their END at a word, and loop l is the nested one. -/
def SharedEnd (x : Strand) (l : Bool) (w : Word) : Prop :=
  (x.loop l).act = true ∧ (x.loop !l).act = true ∧ (x.loop l).stop = w ∧ (x.loop !l).stop = w ∧
  (x.loop l).nest = true ∧ (x.loop !l).nest = false

/-- R155: a word lies in [START, END + length of the END bundle - 1]. -/
def InBody (code : List Word) (v : Loop) (w : Word) : Prop :=
  v.start.toNat ≤ w.toNat ∧ w.toNat < v.stop.toNat + chainLen code v.stop.toNat

/-- R153: what a loop setup does. -/
def LoopSetup (s t : State) (l : Bool) (n : DWord) (e : Nat) : Prop :=
  let last := s.bun.first + BitVec.ofNat 32 e
  if n = 0 then
    SetsLoops s { t with bun := s.bun } l { s.me.loop l with act := false } (otherAfter s.me l) ∧
      t.bun = { s.bun with jump := some last }
  else
    SetsLoops s t l ⟨s.bun.first + BitVec.ofNat 32 s.bun.len, last, n.setWidth 32, true, (otherAfter s.me l).act⟩
      (otherAfter s.me l)

/-! ### Classes V and X -/

/-- The executing word leaves several pending writes at one bound, in this order, and changes nothing else. -/
def PostsAll (s t : State) (bound : Nat) (ws : List Write) : Prop :=
  Quiet s t ∧
  t.agenda = ws.foldl (fun l w =>
    insertKey (keyOf (s.cc + bound) 0) (.pendingWriteComplete s.bun.tile s.bun.strand w) l) s.agenda ∧
  t.me.board = ws.reverse.flatMap (watchOf · (s.cc + bound)) ++ s.me.board

/-- The executing word leaves pending writes and raises flags of its strand (R66), and changes nothing else. -/
def PostsRaise (s t : State) (bound : Nat) (ws : List Write) (f : Flags) : Prop :=
  ∃ u, PostsAll s u bound ws ∧ t = u.onMe fun x => { x with flags := x.flags.or f }

/-- Lane i of a register of type T (R166). -/
def lane (t : VType) (x : VWord) (i : Nat) : BitVec t.width := x.extractLsb' (t.width * i) t.width

/-- R170: a register whose active lanes are f of the source lanes and whose other lanes are the old destination's. -/
def Lanes (t : VType) (v old : VWord) (m : MWord) (f : (i : Nat) → BitVec t.width) : Prop :=
  ∀ i, i < t.lanes → lane t v i = if m.getLsbD i then f i else lane t old i

/-- The union of flags (R66). -/
def unionFlags (l : List Flags) : Flags :=
  ⟨l.any (·.cl), l.any (·.nx), l.any (·.uf), l.any (·.ov), l.any (·.dz), l.any (·.nv)⟩

/-- A row of Table VEC-3: the operator on lanes of w bits, from a, b and d. -/
structure VectorRow where
  word : VType → Reg → Reg → Reg → Reg3 → Instr
  fn : (w : Nat) → BitVec w → BitVec w → BitVec w → BitVec w

/-- x saturated to w signed bits. -/
def specSat (w : Nat) (x : Int) : Int :=
  if x < -(2 ^ (w - 1)) then -(2 ^ (w - 1)) else if 2 ^ (w - 1) - 1 < x then 2 ^ (w - 1) - 1 else x

/-- Table VEC-3. One-source ops have no vb. -/
def vectorRows : List VectorRow := [
  ⟨.vadd, fun w a b _ => BitVec.ofInt w (a.toInt + b.toInt)⟩,
  ⟨.vsub, fun w a b _ => BitVec.ofInt w (a.toInt - b.toInt)⟩,
  ⟨.vadds, fun w a b _ => BitVec.ofInt w (specSat w (a.toInt + b.toInt))⟩,
  ⟨.vsubs, fun w a b _ => BitVec.ofInt w (specSat w (a.toInt - b.toInt))⟩,
  ⟨.vmul, fun w a b _ => BitVec.ofInt w (a.toInt * b.toInt)⟩,
  ⟨.vmulh, fun w a b _ => BitVec.ofInt w (a.toInt * b.toInt / 2 ^ w)⟩,
  ⟨.vmad, fun w a b d => BitVec.ofInt w (d.toInt + a.toInt * b.toInt)⟩,
  ⟨.vmin, fun _ a b _ => if a.toInt ≤ b.toInt then a else b⟩,
  ⟨.vmax, fun _ a b _ => if a.toInt ≤ b.toInt then b else a⟩,
  ⟨.vminn, fun _ a b _ => if a.toNat ≤ b.toNat then a else b⟩,
  ⟨.vmaxn, fun _ a b _ => if a.toNat ≤ b.toNat then b else a⟩,
  ⟨fun t d a _ m => .vabs t d a m, fun w a _ _ => BitVec.ofNat w a.toInt.natAbs⟩,
  ⟨.vand, fun _ a b _ => a &&& b⟩,
  ⟨.vor, fun _ a b _ => a ||| b⟩,
  ⟨.vxor, fun _ a b _ => a ^^^ b⟩,
  ⟨.vshl, fun w a b _ => BitVec.ofNat w (a.toNat * 2 ^ (b.toNat % w))⟩,
  ⟨.vshr, fun w a b _ => BitVec.ofNat w (a.toNat / 2 ^ (b.toNat % w))⟩,
  ⟨.vshra, fun w a b _ => BitVec.ofInt w (a.toInt / 2 ^ (b.toNat % w))⟩]

/-- A widening form (R172): its group, its operator, and whether it accumulates. -/
structure WidenRow where
  word : VType → Reg → Reg → Reg → Reg3 → Instr
  group : Nat
  fn : Int → Int → Int
  acc : Bool

/-- The widening forms of R172. -/
def widenRows : List WidenRow := [⟨.vaddw, 2, (· + ·), false⟩, ⟨.vmulw, 2, (· * ·), false⟩, ⟨.vmulq, 4, (· * ·), false⟩,
  ⟨.vmadq, 4, (· * ·), true⟩]

/-- A row of Table VEC-4 or of R176: its bound, and its operator on codes with the flags it raises. -/
structure FloatRow where
  word : VType → Reg → Reg → Reg → Reg3 → Instr
  bound : Nat
  fn : VType → FmtV → Nat → Nat → Nat → Flagged Nat

/-- Table VEC-4 and R176. One-source ops have no vb. -/
def floatRows : List FloatRow := [
  ⟨.vfadd, 4, fun t v a b _ => fpAdd (precOf t) v.mode a b⟩,
  ⟨.vfsub, 4, fun t v a b _ => fpSub (precOf t) v.mode a b⟩,
  ⟨.vfmul, 4, fun t v a b _ => fpMul (precOf t) v.mode a b⟩,
  ⟨.vfma, 4, fun t v a b d => fpFma (precOf t) v.mode a b d⟩,
  ⟨.vfmin, 2, fun t _ a b _ => fpPick (precOf t) false a b⟩,
  ⟨.vfmax, 2, fun t _ a b _ => fpPick (precOf t) true a b⟩,
  ⟨fun t d a _ m => .vfabs t d a m, 2, fun t _ a _ _ => fpAbs (precOf t) a⟩,
  ⟨fun t d a _ m => .vfneg t d a m, 2, fun t _ a _ _ => fpNeg (precOf t) a⟩,
  ⟨fun t d a _ m => .vfrcp t d a m, 8, fun t v a _ _ => fpRcp (precOf t) v.mode a⟩,
  ⟨fun t d a _ m => .vfrsq t d a m, 8, fun t v a _ _ => fpRsq (precOf t) v.mode a⟩,
  ⟨fun t d a _ m => .vfexp2 t d a m, 12, fun t v a _ _ => fpExp2 (precOf t) v.mode a⟩,
  ⟨fun t d a _ m => .vflog2 t d a m, 12, fun t v a _ _ => fpLog2 (precOf t) v.mode a⟩,
  ⟨.vlmul, 2, fun t v a b _ => (v.log t).mul a b⟩,
  ⟨fun t d a _ m => .vlrcp t d a m, 2, fun t v a _ _ => (v.log t).rcp a⟩]

/-- The lanes that a mask makes active, in lane order. -/
def actives (t : VType) (m : MWord) : List Nat := (List.range t.lanes).filter fun i => m.getLsbD i

/-- R180: every active element is aligned and lies in the scratchpad. -/
def ElementsOk (t : VType) (m : MWord) (addr : Nat → DWord) : Prop :=
  ∀ i ∈ actives t m, (addr i).toNat % max 1 (t.width / 8) = 0 ∧ (addr i).toNat + max 1 (t.width / 8) ≤ 0x200000

/-- R180: lane i is the first active lane, in lane order, whose element is misaligned or out of range. -/
def FirstBad (t : VType) (m : MWord) (addr : Nat → DWord) (i : Nat) (c : Cause) : Prop :=
  let n := max 1 (t.width / 8)
  i ∈ actives t m ∧
  (∀ j ∈ actives t m, j < i → (addr j).toNat % n = 0 ∧ (addr j).toNat + n ≤ 0x200000) ∧
  (((addr i).toNat % n ≠ 0 ∧ c = .align) ∨ ((addr i).toNat % n = 0 ∧ 0x200000 < (addr i).toNat + n ∧ c = .scratchRange))

/-- R180: the address of lane i, by unit stride when the stride field is 0, else by the stride in its register. -/
def specAddr (t : VType) (s : State) (b g : Reg) (ext : List LWord) (i : Nat) : DWord :=
  let off : DWord := match ext with | [] => 0 | x :: _ => x.signExtend 64
  if g = 0 then s.me.readG b + off + BitVec.ofNat 64 (i * t.width / 8)
  else s.me.readG b + off + BitVec.ofNat 64 i * s.me.readG g

/-- R182: the address of lane i by its index. -/
def specIndex (t : VType) (s : State) (b x : Reg) (i : Nat) : DWord :=
  s.me.readG b + BitVec.ofNat 64 ((lane t (s.me.readV x) i).toNat * (t.width / 8))

/-- The code of lane i at its address: a nibble of a byte for a 4-bit type, else little-endian bytes (R48, R180). -/
def specElement (t : VType) (x : Tile) (a : DWord) (i : Nat) : Nat :=
  if t.width = 4 then leNat (x.readBytes a.toNat 1) / (if i % 2 = 0 then 1 else 16) % 16
  else leNat (x.readBytes a.toNat (t.width / 8))

/-- The scratchpad after pending writes of bytes or nibbles have completed, in order. -/
def afterWrites (m : Memory) : List Write → Memory
  | [] => m
  | .mem a bs :: l => afterWrites (m.writes a bs) l
  | .nib a hi x :: l => afterWrites (m.writeNib a hi x) l
  | _ :: l => afterWrites m l

/-- The physical bytes that a store of lanes of a byte or more writes, in lane order (R180). -/
def storedBytes (t : VType) (s : State) (v : VWord) (m : MWord) (addr : Nat → DWord) : List (Nat × Byte) :=
  (actives t m).flatMap fun i => (List.range (t.width / 8)).map fun j =>
    (s.myTile.phys ((addr i).toNat + j), BitVec.ofNat 8 ((lane t v i).toNat / 256 ^ j))

/-- R180, R182: a store of lanes of a byte or more: each byte holds the last lane's that names it, every other byte of the
scratchpad stays. -/
def StoresLanes (s t : State) (ty : VType) (v : VWord) (m : MWord) (addr : Nat → DWord) : Prop :=
  ∃ ws, PostsAll s t 1 ws ∧ (s.myTile.scratch.wf = true → ∀ x, (afterWrites s.myTile.scratch ws).read x =
    (((storedBytes ty s v m addr).reverse.find? fun b => b.1 == x).map (·.2)).getD (s.myTile.scratch.read x))

/-! ### Commands of engines -/

/-- Only the steps to come and tile n differ: no other tile, no cluster, die, launch or register of the package. -/
def OnlyTileOf (s t : State) (n : Nat) : Prop :=
  { t with agenda := s.agenda, tiles := s.tiles } = s ∧ ∀ m, m ≠ n → t.tile m = s.tile m

/-- Of the launches only the counts of the undefined values that they have met differ (R4, log 11). -/
def SameLaunches (s t : State) : Prop :=
  ∀ q, (t.launch q).map (fun l => { l with fresh := 0 }) = (s.launch q).map fun l => { l with fresh := 0 }

/-- Only the steps to come and tile n outside its strands differ. -/
def OnlyTilePart (s t : State) (n : Nat) : Prop := OnlyTileOf s t n ∧ ∀ k, t.strand n k = s.strand n k

/-- The executing word takes its strand's next number of an engine (R246, R308), its command is outstanding, and nothing else
of the strand changes; nor does another strand of the tile. -/
def Numbers (s t : State) (engine : Nat) (entry : Bool) : Prop :=
  { t.me with seqs := s.me.seqs, outst := s.me.outst } = s.me ∧
  t.me.number engine = (s.me.number engine + 1) % 2 ^ 32 ∧
  (∀ e, e ≠ engine → t.me.number e = s.me.number e) ∧
  t.me.outst = s.me.outst ++ [⟨engine, s.me.number engine, entry, s.me.node.map (·.index), false⟩] ∧
  ∀ k, k ≠ s.bun.strand → t.strand s.bun.tile k = s.strand s.bun.tile k

/-! ### The array -/

/-- R197: the rows of a command are aligned and lie in the scratchpad. -/
def RowsFit (base pitch n bytes : Nat) : Prop :=
  base % 16 = 0 ∧ (1 < n → pitch % 16 = 0) ∧ ∀ b, b < n → base + b * pitch + bytes ≤ 0x200000

/-- An array word puts its command in flight (R192, R200 to R206): it is numbered, starts now, and its first beat falls in
this cc; no byte changes. -/
def ArrayStarts (s t : State) (c : ArrCmd) (op : ArrOp) (n first : Nat) (beat : Event) : Prop :=
  OnlyTileOf s t s.bun.tile ∧ Numbers s t 2 false ∧ SameBytes s t ∧ (keyOf s.cc slotBeat, beat) ∈ t.agenda ∧
  t.myTile.arr = s.myTile.arr ++ [c] ∧ t.myTile.arrNext = s.myTile.arrNext + 1 ∧ c.id = s.myTile.arrNext ∧ c.op = op ∧
  c.org = s.origin s.me.seqs.array ∧ c.start = s.cc ∧ c.beats = n ∧ c.first = first ∧ c.fmt = s.fmtA

/-- R56 (Table NUM-4): T. -/
def specT19 (k : Nat) : Nat :=
  #[524288, 547500, 571740, 597053, 623487, 651091, 679917, 710020, 741455, 774282, 808563, 844361, 881744, 920834, 961548,
    1004120].getD k 0

/-- R54: round_ne of a rational. -/
def roundNe (x : ℚ) : ℤ := if x - ⌊x⌋ < 1 / 2 then ⌊x⌋ else if 1 / 2 < x - ⌊x⌋ then ⌊x⌋ + 1 else 2 * ((⌊x⌋ + 1) / 2)

/-- R51: the biased exponent, the bias and the sign of an array code in its reading, which a signed one has in its top bit. -/
def codeM (f : LogFmt) (c : Nat) : Nat := if f.sgn then c % 2 ^ (f.bits - 1) else c
/-- R51: the bias. -/
def codeBias (f : LogFmt) : Nat := 2 ^ (f.bits - if f.sgn then 2 else 1)
/-- R51: the sign. -/
def codeMinus (f : LogFmt) (c : Nat) : Bool := f.sgn && decide (2 ^ (f.bits - 1) ≤ c)
/-- R51: the largest m. -/
def codeTop (f : LogFmt) : Nat := if f.sgn then 2 ^ (f.bits - 1) - 1 else 2 ^ f.bits - 2
/-- R51: a reading that the array accepts (R52: an F of L4 is 0 to 2, of L8 2 to 4). -/
def ArrayFmt (f : LogFmt) : Prop := (f.bits = 4 ∧ f.F ≤ 2) ∨ (f.bits = 8 ∧ 2 ≤ f.F ∧ f.F ≤ 4)

/-- R57: the magnitude of a product term whose exponent is P in units of 2^-F, and whether it saturates. -/
def specMag (F : Nat) (P : ℤ) : Nat × Bool :=
  let i := P / 2 ^ F
  let T := specT19 ((P % 2 ^ F).toNat * (16 / 2 ^ F))
  if 43 < i + 11 then (2 ^ 62 - 1, true) else if 0 ≤ i + 11 then (T * 2 ^ (i + 11).toNat, false) else (T / 2 ^ (-(i + 11)).toNat, false)

/-- R57: P. -/
def specP (fa : LogFmt) (a : Nat) (fw : LogFmt) (w : Nat) (sa sw : Word) : ℤ :=
  let F := max fa.F fw.F
  ((codeM fa a : ℤ) - codeBias fa) * 2 ^ (F - fa.F) + ((codeM fw w : ℤ) - codeBias fw) * 2 ^ (F - fw.F) +
    roundNe (sa.toInt / 2 ^ (16 - F)) + roundNe (sw.toInt / 2 ^ (16 - F))

/-- R61, R62: the code of a sign and an exponent in a reading, clamped with CL. -/
def clampCode (f : LogFmt) (neg : Bool) (e : ℤ) : Nat × EngFlags :=
  let m := e + codeBias f
  ((if neg then 2 ^ (f.bits - 1) else 0) + (max 1 (min (codeTop f : ℤ) m)).toNat, ⟨decide (m < 1 ∨ codeTop f < m), false, false⟩)

/-- The weight code of slot j of a column of the active bank (R194), of which a reading of 4 bits sees the low 4 (log 39). -/
def specWeight (x : Tile) (j col : Nat) : Nat :=
  let r := x.bankA.fmt
  let cell := SMap.get Cell.zero x.bankA.cells (96 * (j / r.wpc) + col)
  (if j % r.wpc = 0 then cell.c0 else cell.c1).toNat % if r.ww then 16 else 256

/-- The logical index k(j) of the activation that slot j of a column meets (R194). -/
def specK (x : Tile) (j col : Nat) : Nat :=
  let r := x.bankA.fmt
  let cell := SMap.get Cell.zero x.bankA.cells (96 * (j / r.wpc) + col)
  let i := (if j % r.wpc = 0 then cell.i0 else cell.i1).toNat
  if r.sp = 0 then j else if r.sp = 3 then 8 * (j / 4) + i else 8 * (j / 2) + i

/-- The terms of a column for an activation row (R202), under the latches in force. -/
def specTerms (x : Tile) (c : ArrCmd) (row : List Byte) (col : Nat) : List Term :=
  (List.range (96 * x.bankA.fmt.wpc)).map fun j =>
    productTerm c.fmt.act (actElem c.fmt row.toArray (specK x j col)) x.bankA.fmt.wgt (specWeight x j col) x.actL.last
      (x.col col).last c.fmt.nsub

/-- The union of engine flags (R66). -/
def unionEng (l : List EngFlags) : EngFlags := ⟨l.any (·.cl), l.any (·.ov), l.any (·.nv)⟩

/-! ### The stream engine -/

/-- A command has left the stream engine of a tile (R112, R119): it is in progress no more, is counted in DONE if it
completed, and its strand has it outstanding no more. -/
def StreamLeft (s t : State) (n : Nat) (c : SCmd) (done : Bool) : Prop :=
  (t.tile n).sp = (s.tile n).sp.filter (·.id != c.id) ∧
  (t.tile n).sDone = (if done then (s.tile n).sDone + 1 else (s.tile n).sDone) ∧
  (t.strand c.org.tile c.org.strand).outst = (s.strand c.org.tile c.org.strand).outst.filter
    (fun o => !(o.engine == 3 && o.seq == c.org.seq))

/-- A tile whose scratchpad is plain: no shadow pair is configured, no DRN output is pending, no QSAV has replaced bytes that a
command still reads, and the tile serves; its memory is in canonical form. -/
def PlainScratch (s : State) (n : Nat) : Prop :=
  (s.tile n).pairs = [] ∧ (s.tile n).drnPending s.cc = [] ∧ (s.tile n).qOld = [] ∧ (s.tile n).isolated = false ∧
  (s.tile n).scratch.wf = true

/-- A linear command of the own scratchpad (R117, R126, R129), without a completion signal, whose ranges lie in it. -/
def LinearScratch (c : SCmd) : Prop :=
  c.dst = .scratch ∧ c.shd = false ∧ c.cmpl = .none ∧ c.d[2] = 0 ∧ c.d[1].toNat + c.d[3].toNat ≤ 0x200000 ∧
  (c.op = .dfil ∨ (c.op = .dcpy ∧ c.src = .scratch ∧ c.d[0].toNat + c.d[3].toNat ≤ 0x200000))

/-- R128: the input byte at which tap t of row r finds its pixel; none in the padding. -/
def specTap (u : Unfold) (d0 r t : Nat) : Option Nat :=
  let p := u.oy0 * u.ow + u.ox0 + r
  let iy : Int := (p / u.ow : Nat) * u.sh - u.pt + (t / u.kw : Nat) * u.dh
  let ix : Int := (p % u.ow : Nat) * u.sw - u.pl + (t % u.kw : Nat) * u.dw
  if 0 ≤ iy ∧ iy < u.h ∧ 0 ≤ ix ∧ ix < u.w then some (d0 + iy.toNat * u.istr + ix.toNat * u.cb) else none

/-! ### The kilns -/

/-- R94: the L16 master that UPDM leaves of a master w for a gradient u, under a learning rate and a decay. -/
def specMaster (lr decay w u : Nat) : Nat :=
  let t := (fpMul 24 .rne lr u).1
  if w = 0 ∨ w = 0x8000 ∨ fpWild u = true ∨ fpWild t = true then w
  else
    let d : Int := max (-32767) (min 32767 (scaled t))
    let m : Int := max 1 (min 32767 ((w % 0x8000 : Nat) - (if w < 0x8000 then d else -d) - decay))
    w / 0x8000 * 0x8000 + m.toNat

/-- R93: gradient i of a command as f32; one of bf16 widens exactly. -/
def specGradient (x : Cluster) (k : KCmd) (i : Nat) : Nat :=
  if k.bf then 65536 * leNat (x.store.reads (k.n[3].toNat + 2 * i) 2) else leNat (x.store.reads (k.n[3].toNat + 4 * i) 4)

/-- R93: the moments that UPMO leaves, each step in FP32 to the nearest. -/
def specMoments (c1 c2 g m1 m2 : Nat) : Nat × Nat :=
  if fpWild g = true then (m1, m2)
  else ((fpFma 24 .rne c1 (fpSub 24 .rne g m1).1 m1).1,
    (fpFma 24 .rne c2 (fpSub 24 .rne (fpMul 24 .rne g g).1 m2).1 m2).1)

/-- R94: the update that UPDM takes from moments. -/
def specUpdate (eps m1 m2 : Nat) : Nat := (fpDiv 24 .rne m1 (fpAdd 24 .rne (fpSqrt 24 .rne m2).1 eps).1).1

/-- The ranges of a kiln command that it reaches in the store are aligned, lie in it, and do not overlap (R95). -/
def PlainKiln (x : Cluster) (k : KCmd) : Prop :=
  let g := if k.bf then 2 else 4
  let n := k.n[6].toNat
  k.op ≠ .upcf ∧ n ≠ 0 ∧ n ≤ 16777216 ∧ k.n[3].toNat % g = 0 ∧ k.n[3].toNat + g * n ≤ x.storeSize ∧ x.store.wf = true ∧
  (k.op ≠ .upmo → k.n[0].toNat % 2 = 0 ∧ k.n[0].toNat + 2 * n ≤ x.storeSize ∧
    (k.n[3].toNat + g * n ≤ k.n[0].toNat ∨ k.n[0].toNat + 2 * n ≤ k.n[3].toNat))

/-- Of the bytes of every memory only those of cluster c's store differ. -/
def OnlyStore (s t : State) (c : Nat) : Prop :=
  (∀ n a, (t.tile n).scratch.read a = (s.tile n).scratch.read a) ∧
  (∀ d, d ≠ c → ∀ a, (t.cluster d).store.read a = (s.cluster d).store.read a) ∧
  ∀ d a, (t.die d).mem.read a = (s.die d).mem.read a

/-- The moment words of a kiln command lie in local pages that the cluster's TLB holds, of a stack without wrong symbols, apart
from one another, with element i of the two arrays at these offsets (R95). -/
def MomentsAt (s : State) (c : Nat) (k : KCmd) (write : Bool) (o1 o2 : Nat → Nat) : Prop :=
  let n := k.n[6].toNat
  k.n[4].toNat % 4 = 0 ∧ k.n[5].toNat % 4 = 0 ∧ (s.die (c / 32)).bad = [] ∧ (s.die (c / 32)).wrong = [] ∧
  (s.die (c / 32)).mem.wf = true ∧ k.n[4].toNat + 4 * n ≤ 2 ^ 52 ∧ k.n[5].toNat + 4 * n ≤ 2 ^ 52 ∧
  (∀ i, i < n → ∀ a ∈ [k.n[4], k.n[5]], ((s.cluster c).lookup ((a.toNat + 4 * i) / 65536)).isSome) ∧
  (∀ i, i < n → s.moment c (k.n[4].toNat + 4 * i) write = .at_ (o1 i) ∧ s.moment c (k.n[5].toNat + 4 * i) write = .at_ (o2 i)) ∧
  (∀ i, i < n → ∀ j, j < n → o1 i + 4 ≤ o2 j ∨ o2 j + 4 ≤ o1 i) ∧
  ∀ i, i < n → ∀ j, j < n → i ≠ j → (o1 i + 4 ≤ o1 j ∨ o1 j + 4 ≤ o1 i) ∧ (o2 i + 4 ≤ o2 j ∨ o2 j + 4 ≤ o2 i)

/-- A kiln command has left the engine of a cluster (R91): none runs, its strand has it outstanding no more, and the engine
looks at its queue. -/
def KilnLeft (s t : State) (c : Nat) (k : KCmd) : Prop :=
  (t.cluster c).krun = none ∧ (keyOf s.cc slotBegin, Event.kilnCommandStart c) ∈ t.agenda ∧
  (t.strand k.org.tile k.org.strand).outst = (s.strand k.org.tile k.org.strand).outst.filter
    (fun o => !(o.engine == 7 && o.seq == k.org.seq))

/-! ### The Quilt -/

/-- A Quilt word puts its command in the slot of its tile for n cc (R212, R222): it is numbered, and completes after them;
nothing else of the tile changes but a scoreboard. -/
def QuiltStarts (s t : State) (op : QOp) (n first : Nat) : Prop :=
  OnlyTileOf s t s.bun.tile ∧ SameBytes s t ∧ (∀ k, k ≠ s.bun.strand → t.strand s.bun.tile k = s.strand s.bun.tile k) ∧
  { t.me with seqs := s.me.seqs, outst := s.me.outst, board := s.me.board } = s.me ∧
  t.me.number 4 = (s.me.number 4 + 1) % 2 ^ 32 ∧
  t.me.outst = s.me.outst ++ [⟨4, s.me.number 4, false, s.me.node.map (·.index), false⟩] ∧
  { t.myTile with strands := s.myTile.strands, qFree := s.myTile.qFree, qcmd := s.myTile.qcmd } = s.myTile ∧
  t.myTile.qFree = s.cc + n ∧
  t.myTile.qcmd = some ⟨op, s.origin s.me.seqs.quilt, s.cc, n, first, (s.me.q[1].setWidth 32).toNat, 0, none, 0⟩ ∧
  (keyOf (s.cc + n) 8, Event.quiltCommandComplete s.bun.tile) ∈ t.agenda

/-- R217: a cell takes part in a step cycle of the domains S. -/
def specSteps (x : Tile) (S : List Nat) (i : Nat) : Bool :=
  let c := x.qcell i
  enOf c.patch && !c.frz && (x.qdom (domOf c.patch)).conf && S.contains (domOf c.patch)

/-- R215: input k of a cell has a crossing source. -/
def specCrosses (x : Tile) (i k : Nat) : Bool :=
  let p := (x.qcell i).patch
  let sel := selOf p k
  !(sel == 0x1FF || sel == 0x100 + domOf p || (sel < 0x100 && domOf (x.qcell sel).patch == domOf p))

/-- R217: take, where `own` is what a cell of the own domain offers. -/
def specTake (x : Tile) (own : Nat → Int) (i k : Nat) : Int :=
  let c := x.qcell i
  let sel := selOf c.patch k
  let u : Int := if sel = 0x1FF then 0 else if specCrosses x i k then (c.cntAt k).sign
    else if sel < 0x100 then own sel else 1
  if negOf c.patch k then -u else u

/-- R217: the integrand and the residue of a cell are below their limits. -/
def specFits (x : Tile) (i : Nat) : Bool :=
  let c := x.qcell i
  let n := (x.qdom (domOf c.patch)).n
  c.y.toInt.natAbs < 2 ^ min n 31 && c.res.toNat < 2 ^ n

/-- R217: t of phase 1. -/
def specT (x : Tile) (i : Nat) : Int :=
  (x.qcell i).res.toNat + specTake x (fun j => (x.qcell j).out.toInt) i 0 * (x.qcell i).y.toInt

/-- R217: dz, zero for a cell that does not step. -/
def specDz (x : Tile) (S : List Nat) (i : Nat) : Int :=
  if specSteps x S i && specFits x i then specT x i / 2 ^ (x.qdom (domOf (x.qcell i).patch)).n else 0

/-- R217: y2 of phase 2. -/
def specY2 (x : Tile) (S : List Nat) (i : Nat) : Int :=
  (x.qcell i).y.toInt + specTake x (specDz x S) i 1 + specTake x (specDz x S) i 2 + specTake x (specDz x S) i 3

/-- R217: |y2| is below its limit. -/
def specFits2 (x : Tile) (S : List Nat) (i : Nat) : Bool :=
  (specY2 x S i).natAbs < 2 ^ min (x.qdom (domOf (x.qcell i).patch)).n 31

/-- R217: a crossing counter after the units taken in phases 1 and 2. -/
def specTaken (x : Tile) (S : List Nat) (i k : Nat) : Int :=
  let n := (x.qcell i).cntAt k
  if specSteps x S i && specFits x i && specCrosses x i k then n - n.sign else n

/-- R218: the increment that reaches input k of a cell across domains. -/
def specDeposit (x : Tile) (S : List Nat) (i k : Nat) : Int :=
  let c := x.qcell i
  let sel := selOf c.patch k
  if !(enOf c.patch && !c.frz && specCrosses x i k) then 0
  else if sel < 0x100 then specDz x S sel
  else if sel < 0x104 ∧ S.contains (sel - 0x100) then 1
  else 0

/-- R218: a deposit would pass 3. -/
def specOverrun (x : Tile) (S : List Nat) (i k : Nat) : Bool :=
  specDeposit x S i k != 0 && 3 < (specTaken x S i k + specDeposit x S i k).natAbs

/-- R219: a cell faults in a cycle. -/
def specFaults (x : Tile) (S : List Nat) (i : Nat) : Bool :=
  (specSteps x S i && !(specFits x i && specFits2 x S i)) || [0, 1, 2, 3].any fun k => specOverrun x S i k

/-- R217 to R219: cell i after a cycle of the domains S. -/
def SpecCell (x : Tile) (S : List Nat) (i : Nat) (c : QCell) : Prop :=
  let o := x.qcell i
  let runs := specSteps x S i && specFits x i
  c.patch = o.patch ∧
  c.y.toInt = (if runs && specFits2 x S i then specY2 x S i else o.y.toInt) ∧
  c.res.toNat = (if runs then specT x i % 2 ^ (x.qdom (domOf o.patch)).n else o.res.toNat) ∧
  c.frz = (o.frz || specFaults x S i) ∧
  c.out = (if specFaults x S i then 0 else if runs then BitVec.ofInt 2 (specDz x S i) else o.out) ∧
  ∀ k, k < 4 → c.cntAt k = if specOverrun x S i k then specTaken x S i k else specTaken x S i k + specDeposit x S i k

/-! ### The fabric -/

/-- The executing word puts an item at the end of its tile's fabric queue, after a change of its strand (R237); a queue that
was empty passes it in this cc, or in the first in which it may pass a word. No byte changes. -/
def Queued (s t : State) (i : FabItem) (me : Strand) : Prop :=
  let n := s.bun.tile
  OnlyTileOf s t n ∧ SameBytes s t ∧ (∀ k, k ≠ s.bun.strand → t.strand n k = s.strand n k) ∧ t.me = me ∧
  { t.myTile with strands := s.myTile.strands, fq := s.myTile.fq } = s.myTile ∧ t.myTile.fq = s.myTile.fq ++ [i] ∧
  (s.myTile.fq = [] → (keyOf (max s.cc s.myTile.fqCc) (slotQueue n), Event.fabricQueueArrival n) ∈ t.agenda)

/-- A strand whose word takes its next fabric number (R246) and is outstanding. -/
def fabNumbered (x : Strand) (entry : Bool) : Strand :=
  { x with
    seqs := { x.seqs with fabric := (x.seqs.fabric + 1) % 2 ^ 32 }
    outst := x.outst ++ [⟨5, x.seqs.fabric, entry, x.node.map (·.index), false⟩] }

/-- Only the record queue and the fault status of the executing tile differ. -/
def OnlyRemoteFaults (s t : State) : Prop :=
  OnlyTilePart s t s.bun.tile ∧ t.agenda = s.agenda ∧ { t.myTile with
    strands := s.myTile.strands, rfq := s.myTile.rfq, fOvf := s.myTile.fOvf, fFaults := s.myTile.fFaults,
    fCause := s.myTile.fCause } = s.myTile

/-- Table FAB-8: what a RAM operation leaves of the home's x and the entry's b. -/
def specRam (op : RamOp) {w : Nat} (x b : BitVec w) : BitVec w :=
  match op with
  | .add => BitVec.ofNat w (x.toNat + b.toNat)
  | .min => if x.toInt ≤ b.toInt then x else b
  | .max => if x.toInt ≤ b.toInt then b else x
  | .minn => if x.toNat ≤ b.toNat then x else b
  | .maxn => if x.toNat ≤ b.toNat then b else x
  | .and => x &&& b
  | .or => x ||| b
  | .xor => x ^^^ b

/-- The value that the home leaves for an entry over the bytes that it found (R247). -/
def specEntry (e : Entry) (old : Nat) : Nat :=
  match e.kind with
  | .ram op =>
    if e.dbl then (specRam op (BitVec.ofNat 64 old) e.data).toNat
    else (specRam op (BitVec.ofNat 32 old) (e.data.setWidth 32)).toNat
  | _ => e.data.toNat

/-- R240, R247: the bytes of a home behind entries performed in their order. -/
def specCord : List Entry → (Nat → Byte) → Nat → Byte
  | [], m => m
  | e :: l, m =>
    let n := if e.dbl then 8 else 4
    let v := specEntry e (leNat ((List.range n).map fun i => m (e.off + i)))
    specCord l fun a => if e.off ≤ a ∧ a < e.off + n then BitVec.ofNat 8 (v / 256 ^ (a - e.off)) else m a

/-- R233: the port of a route: in the first dimension of X, Y, Z in which the packages differ, the shorter way round, the positive
one of two equal ways; none inside the package. -/
def specPort (s : State) (p : BitVec 16) : Option Nat :=
  let at_ (i : Nat) : Nat × Nat := (s.coord.toNat / 16 ^ i % 16, p.toNat / 16 ^ (i + 1) % 16)
  let size (i : Nat) : Nat := if i = 0 then s.extent.1 else if i = 1 then s.extent.2.1 else s.extent.2.2
  ([0, 1, 2].find? fun i => (at_ i).1 != (at_ i).2).map fun i =>
    2 * i + if 2 * (((at_ i).2 + size i - (at_ i).1) % size i) ≤ size i then 0 else 1

/-- R234: the launch of queue q has traffic on its way through a port: a packet, a stream command, or a reduction. -/
def ThroughPort (s : State) (port q : Nat) : Prop :=
  (∃ x ∈ s.agenda, ∃ p, packetOf x.2 = some p ∧ s.portTo (packetPeer p) = some port ∧ packetQueue s p = q) ∨
  (∃ e ∈ s.tiles, s.queueOf e.1 = q ∧ ∃ c ∈ e.2.sp, (c.src = .remote ∨ c.dst = .remote) ∧
    s.portTo (c.d[6].extractLsb' 0 16) = some port) ∨
  ∃ m ∈ s.mlrs, m.local_ = true ∧ (m.phase = .joined ∨ m.phase = .resolved) ∧ s.queueOf m.org.tile = q ∧
    ∃ p ∈ m.members, s.portTo p = some port

/-- R253: those who take part in a member's reduction: of its tag and number, on the dies of its group. -/
def specParts (l : List MlrMember) (m : MlrMember) : List MlrMember :=
  l.filter fun x => x.tag == m.tag && x.round == m.round && x.phase != .failed && m.members.contains x.peer

/-- R252, R253: the members have numbers of their own; those who take part in a member's reduction name the same group, which its
own die belongs to, and no other of that tag and number names a die of it. -/
def MlrTogether (l : List MlrMember) (m : MlrMember) : Prop :=
  (l.map (·.id)).Nodup ∧ m.peer ∈ m.members ∧ (∀ x ∈ specParts l m, ∀ p, p ∈ x.members ↔ p ∈ m.members) ∧
  ∀ x ∈ l, x.tag = m.tag → x.round = m.round → x.phase ≠ .failed → x.peer ∉ m.members → ∀ p ∈ m.members, p ∉ x.members

/-- A command of a strand leaves it: it is outstanding no more. -/
def Leaves (s t : State) (o : Origin) (engine : Nat) : Prop :=
  (t.strand o.tile o.strand).outst = (s.strand o.tile o.strand).outst.filter fun x => !(x.engine == engine && x.seq == o.seq)

/-- A fault of a command joins those of its strand (R306), with its number and this status word and address. -/
def FaultsOf (s t : State) (o : Origin) (c : Cause) (engine : Nat) (isw : Word) (addr : DWord) : Prop :=
  ∃ due i, due ≤ t.cc ∧ (t.strand o.tile o.strand).faults = (s.strand o.tile o.strand).faults ++ [(due, i)] ∧
    i.cause = c ∧ i.engine = engine ∧ i.seq = o.seq ∧ i.isw = isw ∧ i.addr = addr

/-! ### Synchronisation -/

/-- What a Y word leaves of its strand: its number, and no split point (R88, R308). -/
def yStrand (x : Strand) : Strand :=
  { x with seqs := { x.seqs with sync := (x.seqs.sync + 1) % 2 ^ 32 }, splitGen := none }

/-- Only the executing strand differs, and it is now y. -/
def OnlyMeIs (s t : State) (y : Strand) : Prop := OnlyMe s t ∧ t.agenda = s.agenda ∧ t.me = y

/-- The command of a strand with its next number of the synchronisation engine. -/
def addIssued (x : Strand) : Strand :=
  { yStrand x with outst := x.outst ++ [⟨6, x.seqs.sync, false, x.node.map (·.index), false⟩] }

/-- R280: the ENGINE code behind bit i of a FEN mask. -/
def fenEngine (i : Nat) : Nat := [2, 3, 4, 5, 7, 8].getD i 0

/-- Table CON-8: the digest of a strand after its release publishes words. -/
def digestAfter (x : Strand) : BitVec 128 :=
  if x.folding then x.digest + ((x.owned.filter (!·.store)).map fun w => digestH (4 * w.word) w.data).sum else x.digest

/-- The byte that the words of a release leave at an address, of which they start at these: the last word that holds it. -/
def publishedAt (base : Owned → Nat) (ws : List Owned) (a : Nat) (old : Byte) : Byte :=
  match ws.reverse.find? fun w => base w ≤ a && a < base w + 4 && w.mask.getLsbD (a - base w) with
  | none => old
  | some w => w.data.extractLsb' (8 * (a - base w)) 8

/-! ### System registers -/

/-- A field of a system register that SWR writes: its lowest bit, its width, and the words that it takes; else it keeps its
value (R5, R324). -/
structure RegField where
  lo : Nat
  n  : Nat
  ok : DWord → Bool

/-- The fields of Tables WRD-9, COR-9, TRP-8, XLT-4, XLT-5, FAB-2, FAB-3, FAB-11, CON-5, MEM-2, SCH-1 and SCH-4 that SWR writes. -/
def sysFields : SysReg → List RegField
  | .schedmode => [⟨0, 1, fun _ => true⟩]
  | .efrv | .efra | .waypart | .readymap => []
  | .loop0se | .loop1se => [⟨0, 32, fun _ => true⟩, ⟨32, 32, fun _ => true⟩]
  | .loop0ct | .loop1ct => [⟨0, 32, fun _ => true⟩, ⟨62, 1, fun _ => true⟩, ⟨63, 1, fun _ => true⟩]
  | .trapst => [⟨2, 1, fun _ => true⟩, ⟨3, 2, fun _ => true⟩]
  | .trappc => [⟨0, 32, fun _ => true⟩]
  | .trapvec => [⟨0, 32, fun _ => true⟩, ⟨63, 1, fun _ => true⟩]
  | .traprec => [⟨6, 15, fun _ => true⟩]
  | .stopflag => [⟨0, 1, fun _ => true⟩, ⟨1, 1, fun _ => true⟩]
  | .savearea => [⟨28, 20, fun _ => true⟩, ⟨48, 16, fun _ => true⟩]
  | .ptroot => [⟨16, 12, fun _ => true⟩, ⟨28, 20, fun _ => true⟩, ⟨48, 16, fun _ => true⟩]
  | .migthr => [⟨0, 64, fun _ => true⟩]
  | .agelimit => [⟨0, 17, fun w => 256 ≤ w.toNat % 2 ^ 17 && w.toNat % 2 ^ 17 ≤ 65536⟩]
  | .rfctr => [⟨0, 24, fun _ => true⟩, ⟨63, 1, fun _ => true⟩]
  | .mlrjoin => [⟨0, 25, fun w => 1024 ≤ w.toNat % 2 ^ 25 && w.toNat % 2 ^ 25 ≤ 16777216⟩]
  | .ctrarea => [⟨0, 11, fun w => w.toNat % 2 ^ 11 ≤ 2040⟩, ⟨32, 20, fun _ => true⟩]
  | .memgov => [⟨4, 3, fun w => w.toNat / 2 ^ 4 % 8 < 5⟩, ⟨8, 3, fun w => w.toNat / 2 ^ 8 % 8 < 5⟩, ⟨11, 1, fun _ => true⟩,
      ⟨16, 16, fun _ => true⟩, ⟨32, 16, fun _ => true⟩,
      ⟨48, 8, fun w => 1 ≤ w.toNat / 2 ^ 48 % 256 && w.toNat / 2 ^ 48 % 256 ≤ 24⟩]
  | .savepool => [⟨32, 20, fun w => w.toNat / 2 ^ 32 % 2 ^ 20 ≤ 0xF5AE0⟩,
      ⟨63, 1, fun w => w.toNat / 2 ^ 32 % 2 ^ 20 ≤ 0xF5AE0⟩]
  | .bundlelimit => [⟨0, 16, fun w => 64 ≤ w.toNat % 2 ^ 16⟩]
  | .stopwin => [⟨0, 32, fun w => 1024 ≤ w.toNat % 2 ^ 32⟩]
  | .qcfg _ => [⟨0, 24, fun _ => true⟩, ⟨24, 20, fun _ => true⟩, ⟨44, 4, fun w => w.toNat / 2 ^ 44 % 16 < 8⟩,
      ⟨63, 1, fun _ => true⟩]

/-- The format fields of Tables NUM-8 and NUM-9 that SWR writes under R71, with the codes that R52 and R69 refuse. -/
def formatFields : SysReg → List RegField
  | .efrv => [⟨10, 2, fun _ => true⟩, ⟨12, 2, fun w => w.toNat / 2 ^ 12 % 4 ≠ 3⟩, ⟨14, 2, fun w => w.toNat / 2 ^ 14 % 4 ≠ 3⟩]
  | .efra => [⟨11, 2, fun w => w.toNat / 2 ^ 11 % 4 ≠ 1 && !(w.toNat / 2 ^ 18 % 2 = 1 && w.toNat / 2 ^ 11 % 4 = 2)⟩,
      ⟨13, 2, fun _ => true⟩, ⟨15, 1, fun _ => true⟩, ⟨16, 2, fun w => w.toNat / 2 ^ 16 % 4 ≠ 3⟩, ⟨18, 1, fun _ => true⟩,
      ⟨19, 1, fun _ => true⟩, ⟨20, 2, fun w => w.toNat / 2 ^ 20 % 4 ≠ 3⟩, ⟨22, 1, fun _ => true⟩]
  | _ => []

/-- Read-only fields: lowest bit and width. -/
def sysKept : SysReg → List (Nat × Nat)
  | .trapst => [(0, 2)]
  | .waypart | .readymap => [(0, 64)]
  | .memgov => [(0, 3)]
  | _ => []

/-- Registers of one strand (Table TRP-7). -/
def ofStrand : SysReg → Bool
  | .schedmode | .efrv | .loop0se | .loop0ct | .loop1se | .loop1ct | .trapst | .trappc | .trapvec | .traprec => true
  | _ => false

/-! ### Translation commands -/

/-- Whether a command covers a translation of a context of `pages` 64 KiB pages from `page` on (R106 to R108). -/
def specCovers (c : TransCmd) (ctx : BitVec 12) (page pages : Nat) : Bool :=
  ctx == c.ctx && (c.all ||
    (page * 65536 < c.va.toNat / 65536 * 65536 + 65536 * (if c.shot then 2 ^ c.size else 1) && c.va.toNat / 65536 * 65536 < (page + pages) * 65536))

/-- Whether a command covers what a walk is for: the page of the leaf that it found, or what lies below the entry at which it
faulted. -/
def specCoversWalk (c : TransCmd) (w : Walk) : Bool :=
  match w.res with
  | some e => specCovers c w.ctx e.page e.pages
  | none => let n := [1, 32, 16384, 8388608].getD w.flt.2 1; specCovers c w.ctx (w.page / n * n) n

/-- Of a cluster only what a command covers goes: its translations, and the pointers of its walkers if no walk starts again; the
walks that it covers stay, and begin again. -/
def Drops (x y : Cluster) (c : TransCmd) : Prop :=
  { y with tlb := x.tlb, walks := x.walks, walkers := x.walkers } = x ∧
  y.tlb = x.tlb.filter (fun e => !specCovers c e.ctx e.page e.pages) ∧
  (x.walks.any (specCoversWalk c) = false →
    y.walkers = x.walkers.map fun p => p.filter fun p => !specCovers c p.ctx (32 * p.region) 32) ∧
  y.walks.length = x.walks.length ∧ ∀ (i : Nat) (w : Walk), x.walks[i]? = some w → ∃ v : Walk, y.walks[i]? = some v ∧ v.page = w.page ∧ v.ctx = w.ctx ∧
    (specCoversWalk c w = false → v = w)

/-- Of a tile's translations those that a command covers go, if it lies in the scope; else none (R104, R107). -/
def DropsTile (x y : Tile) (c : TransCmd) (inScope : Prop) [Decidable inScope] : Prop :=
  y.tlb = if inScope then x.tlb.filter fun e => !specCovers c e.ctx e.page e.pages else x.tlb

/-- A command covers an owned word of a strand on tile n (R109). -/
def specCoversWord (s : State) (c : TransCmd) (n : Nat) (w : Owned) : Prop :=
  w.store = false ∧ specCovers c (s.cluster (n / 8)).ptCtx (4 * w.word / 65536) 1 = true

/-- A translation command is issued (R106, R246): it is numbered, stands in its tile's queue of 4, and names what the words
of its registers say. -/
def TransStarts (s t : State) (c : TransCmd) (va w : DWord) (shot : Bool) (size : Nat) (cnt all : Bool) (scope : Scope) : Prop :=
  Numbers s t 8 false ∧ SameBytes s t ∧ t.clusters = s.clusters ∧ (∀ m, m ≠ s.bun.tile → t.tile m = s.tile m) ∧
  { t.myTile with strands := s.myTile.strands, tq := s.myTile.tq } = s.myTile ∧ t.myTile.tq = s.myTile.tq + 1 ∧
  c.dropped = false ∧ c.shot = shot ∧ c.scope = scope ∧ c.va = va ∧ c.size = size ∧ c.all = all ∧ c.cnt = cnt ∧
  c.ctx.toNat = w.toNat % 4096 ∧ c.ctr.toNat = w.toNat / 65536 % 2 ^ 24 ∧ c.org = s.origin s.me.seqs.trans

/-- The strands that STOP names (R326). -/
def specStops (s : State) (kind : StopKind) (w : DWord) (n k : Nat) : Prop :=
  k < 4 ∧ (s.tile n).unitOn = true ∧ (s.strand n k).started = true ∧ (s.strand n k).halted = false ∧ match kind with
  | .strand => n = s.bun.tile ∧ k = w.toNat % 4
  | .tile => n = 256 * dieOf s.bun.tile + w.toNat % 256
  | .launch => ∃ p ∈ s.launches, p.2.desc.launchid.toNat = w.toNat % 2 ^ 32 ∧ (p.2.phase = .running ∨ p.2.phase = .stopping) ∧
      n ∈ p.2.tiles

/-! ### Regions and traps -/

/-- Table TRP-4: the doublewords of a strand's region that CSAV writes, at their offsets. -/
def specRegion (x : Strand) (cc : Nat) (pc : Word) : List (Nat × DWord) :=
  (List.range 32).map (fun i => (8 * i, x.readG (BitVec.ofNat 5 i))) ++
  [(0x100, pc.setWidth 64), (0x110, if x.schedTrap then 1 else 0), (0x128, x.trap.pc.setWidth 64),
    (0x138, BitVec.ofNat 64 x.trap.area), (0x160, x.digest.extractLsb' 0 64), (0x168, x.digest.extractLsb' 64 64),
    (0x178, BitVec.ofNat 64 (x.counted cc))] ++
  (List.range 16).map (fun i => (0x180 + 8 * i, x.d[i]!)) ++ (List.range 8).map (fun i => (0x200 + 8 * i, x.q[i]!)) ++
  (List.range 8).map (fun i => (0x240 + 8 * i, x.f[i]!)) ++ (List.range 8).map (fun i => (0x280 + 8 * i, x.n[i]!))

/-- Table TRP-2: what the 64 bytes of a trap record say. -/
def SpecRecord (bs : List Byte) (cc n k hkind : Nat) (i : TrapInfo) : Prop :=
  bs.length = 64 ∧
  let f (lo w : Nat) : Nat := leNat bs / 2 ^ lo % 2 ^ w
  f 0 64 = i.addr.toNat ∧ f 64 32 = i.isw.toNat ∧ f 128 32 = i.seq % 2 ^ 32 ∧ f 160 32 = (i.pc - i.entry).toNat ∧
  f 192 22 = i.node.toNat ∧ f 214 2 = k % 4 ∧ f 216 8 = n % 256 ∧ f 224 4 = n / 256 % 16 ∧ f 228 4 = i.engine % 16 ∧
  f 232 8 = causeCode i.cause ∧ f 256 64 = i.pc.toNat ∧ f 320 64 = cc % 2 ^ 64 ∧ f 388 2 = hkind % 4 ∧ f 400 112 = 0

/-! ### Launches -/

/-- An add of 1 by the loader to a counter of this package stands behind the adds of the cc that R270 names first; a home that is no
die takes none (R286). -/
def Added (s t : State) (d id : Nat) : Prop :=
  d < 8 → (keyOf (if s.late then s.cc + 1 else s.cc) slotLoader, Event.counterAdd d id 1 .silent) ∈ t.agenda

/-- Where LSTAT of a launch stands (R283): in its queue's frame, after 256 records of 128 bytes. -/
def statusAt (s : State) (q : Nat) (l : Launch) : Nat × Nat :=
  ((s.queueCfg q).stn.toNat, (s.queueCfg q).frame.toNat * 65536 + 32768 + 8 * (l.k % 256))

/-- LSTAT holds a code beside the count of idle supersteps (Table SCH-3), when the die had no uncorrectable line. -/
def StatusIs (s t : State) (q : Nat) (l : Launch) (code : Nat) : Prop :=
  let h := statusAt s q l
  (s.die h.1).bad = [] → (s.die h.1).mem.wf = true → leNat ((t.die h.1).mem.reads h.2 8) = (code + 2 ^ 32 * l.idle) % 2 ^ 64

/-- A launch's outcome is reported: LSTAT, then 1 to the completion counter, and before it for any code but OK 1 to the error
counter (R286, R287, R296). -/
def Reported (s t : State) (q : Nat) (l : Launch) (code : Nat) : Prop :=
  let key := keyOf (if s.late then s.cc + 1 else s.cc) slotLoader
  StatusIs s t q l code ∧ Added s t l.desc.cstn l.desc.ccid ∧ (code ≠ 2 → Added s t l.desc.estn l.desc.ecid ∧
    (l.desc.estn < 8 → l.desc.cstn < 8 → [(key, Event.counterAdd l.desc.estn l.desc.ecid 1 .silent),
      (key, Event.counterAdd l.desc.cstn l.desc.ccid 1 .silent)].Sublist t.agenda))

/-- A launch has left its queue (R243, R288, R289): its outcome is reported, its context sets are freed, the loader goes on with
its queue and looks again at the heads and stopped launches of the others. -/
def Closed (s t : State) (q : Nat) (l : Launch) (code : Nat) : Prop :=
  Reported s t q l code ∧ t.launch q = none ∧ (∀ d ∈ l.desc.dies, SMap.find (t.die d).sets q = none) ∧
  (keyOf s.cc 13, Event.launchTake q) ∈ t.agenda ∧ ∀ p r, p ≠ q → s.launch p = some r →
    t.launch p = some r ∧ (r.phase = .taken → (keyOf s.cc 13, Event.admission p) ∈ t.agenda) ∧
    (r.phase = .stopped → (keyOf s.cc 13, Event.launchResume p) ∈ t.agenda) ∧
    (r.phase = .admitted → r.runs = 1 → (keyOf s.cc 13, Event.launchStart p) ∈ t.agenda)

/-! ### The turn of a strand -/

/-- No step of the agenda is due, and the next core's turn is that of strand k on tile n, which goes to its next bundle: it
runs, nothing holds it, no trap is due, and its stall is over (R136, R307). -/
def Turn (s : State) (n k : Nat) : Prop :=
  let x := s.strand n k
  (∀ e ∈ s.agenda.head?, s.horizon ≤ e.1) ∧ s.late = false ∧ s.nextCore = some n ∧ (s.tile n).running = some k ∧
  x.started = true ∧ x.halted = false ∧ x.stopped = .no ∧ x.hold = none ∧ x.gang = .no ∧ s.heldTile n = false ∧
  x.thermal = false ∧ x.overrun = false ∧ (x.yielded = true → s.yieldTo n k = none) ∧ x.nextCc ≤ s.cc ∧
  x.dueFault s.cc = none

/-- The state at the strand's next bundle: a YIELD that found no other strand is forgotten (R160). -/
def atBundle (s : State) (n k : Nat) : State := s.onStrand n k fun x => { x with yielded := false }

/-- The state in which the words of a bundle of this length run: loops that it lies behind have ended (R155), what the
scoreboard no longer has to watch is gone (R32), and the bundle's checks have passed. -/
def begun (s : State) (n k len : Nat) : State :=
  ((s.onStrand n k fun x => { x.endPassed (s.image n).code with
      block := none, wake := false, cleared := none, regionDue := none, stopHere := false
      board := x.board.filter fun e => s.cc < e.2 }).begin n k len false none).onBun fun b => { b with checked := true }

/-- The end of a bundle whose words have run: the strand goes to its next bundle, and what the words asked for happens. -/
def finishBundle (u : State) (n k : Nat) (l : List (Nat × Instr)) (deep : Bool) : Result → Result
  | .next v =>
    let ends := (u.strand n k).endsAt (u.strand n k).pc
    .next ((v.advance ends l (deep && testsStop ends l)).wrapUp)
  | r => r

/-- No step of the agenda is due, and the next core's turn is that of tile n, a member of a panel whose strand k runs the bundles
of its lead (R164); the next item that the lead has passed on is `it`. -/
def MemberTurn (s : State) (n k : Nat) (it : LeadBundle) : Prop :=
  let x := s.strand n k
  (∀ e ∈ s.agenda.head?, s.horizon ≤ e.1) ∧ s.late = false ∧ s.nextCore = some n ∧ (s.tile n).running = some k ∧ n % 8 ≠ 0 ∧
  x.gang = .ganged ∧ SMap.find x.barPassed gangCode = none ∧ x.halted = false ∧ x.stopped = .no ∧
  (s.cluster (n / 8)).stream.find? (·.seq == x.gangSeq) = some it

/-- R14: the skew of a member's position. -/
def specSkew (n : Nat) : Nat := [0, 2, 4, 6, 100, 102, 104, 106].getD (n % 8) 0

/-- The state in which a member looks at an item of its lead: the item is its own from now on. -/
def memberAt (s : State) (n k : Nat) (it : LeadBundle) : State :=
  (s.onStrand n k fun x => { x with gangSeq := it.seq + 1 }).onStrand n k fun x => { x with pc := it.pc }

/-- The state in which a member's words run: it reads its own registers and memory, and the lead's array staging. -/
def memberBegun (s : State) (n k len : Nat) (it : LeadBundle) : State :=
  (((memberAt s n k it).onStrand n k fun x => { x with
      block := none, wake := false, cleared := none, regionDue := none, stopHere := false
      board := x.board.filter fun e => s.cc < e.2 }).begin n k len true (some it.stg)).onBun fun b => { b with checked := true }

/-- The end of a member's bundle: its branches, loops and node are the lead's decisions. -/
def finishMember (u : State) (n k : Nat) (l : List (Nat × Instr)) (it : LeadBundle) : Result → Result
  | .next v =>
    let ends := (u.strand n k).endsAt (u.strand n k).pc
    .next ((((v.advance ends l false).onMe fun x =>
      { x with pc := it.next, loop0 := it.loop0, loop1 := it.loop1, node := it.node }).wrapUp).nextItem (n / 8) n k it)
  | r => r

/-! ### Memories -/

/-- What a die says of its stack's lines names whole lines of 128 bytes (R76): the scrubber's place, the uncorrectable lines
and those with wrong symbols. -/
def WholeLines (x : Die) : Prop := x.scrub % 128 = 0 ∧ (∀ l ∈ x.bad, l % 128 = 0) ∧ ∀ e ∈ x.wrong, e.1 % 128 = 0

/-- R301: the seven steps of the core clock in MHz. -/
def specSteps7 : List Nat := [800, 850, 900, 950, 1000, 1050, 1100]

/-- Every byte memory that the state holds, those that the loader keeps of a stopped launch included, is in its canonical
form; the dies name whole lines; and the clock, and the one that waits, is one of its seven steps. -/
def Canonical (s : State) : Prop :=
  (∀ e ∈ s.tiles, e.2.scratch.wf = true) ∧ (∀ e ∈ s.clusters, e.2.store.wf = true) ∧ (∀ e ∈ s.dies, e.2.mem.wf = true) ∧
  (∀ e ∈ s.dies, WholeLines e.2) ∧ s.mhz ∈ specSteps7 ∧ (∀ f, s.wantMhz = some f → f ∈ specSteps7) ∧
  ∀ l ∈ s.launches, (∀ e ∈ l.2.keptT, e.2.scratch.wf = true) ∧ ∀ e ∈ l.2.keptC, e.2.store.wf = true

/-- The doubleword at an offset of a die's stack. -/
def dwordAt (s : State) (d off : Nat) : Nat := leNat ((s.die d).mem.reads off 8)

/-! ### Save areas -/

/-- The n bytes at an offset of a die's stack. -/
def bytesAt (s : State) (d off n : Nat) : Nat := leNat ((s.die d).mem.reads off n)

/-- Where the save area of tile n starts in its die's stack, as the loader sets it (R315). -/
def specArea (s : State) (n : Nat) : Nat := ((s.die (n / 256)).poolFrame + 1321 * (n / 8 % 32) + 37 * (n % 8)) * 65536

/-- Where the region of cluster c starts (R315). -/
def specRegionAt (s : State) (c : Nat) : Nat := ((s.die (c / 32)).poolFrame + 1321 * (c % 32) + 296) * 65536

/-- A cell as the four bytes of Table TRP-3. -/
def specCellWord (c : Cell) : Nat := c.c0.toNat + 256 * c.c1.toNat + 65536 * c.i0.toNat + 2 ^ 24 * c.i1.toNat

/-- A bank's record in EFR.A's layout (Table TRP-3). -/
def SpecBankRecord (r : BankRec) (w : Nat) : Prop :=
  w / 2 ^ 11 % 4 = r.sp.toNat ∧ w / 2 ^ 15 % 2 = r.ws.toNat ∧ w / 2 ^ 16 % 4 = r.wf.toNat ∧ w / 2 ^ 18 % 2 = r.ww.toNat

/-- Table TRP-3: what a deep save writes of a tile's array, Quilt and shadow pairs, the area's n bytes at an offset being `at_`. -/
def SpecTileRegion (x : Tile) (at_ : Nat → Nat → Nat) : Prop :=
  (∀ i : Fin 8, at_ (0x15000 + 8 * i) 8 = x.a[i].toNat) ∧ at_ 0x15040 4 = x.actL.last.toNat ∧
  at_ 0x15044 4 = x.outL.last.toNat ∧ (∀ c, c < 96 → at_ (0x15048 + 4 * c) 4 = (x.col c).last.toNat) ∧
  at_ 0x151C8 8 = (efrA x.lastFmt x.flagsA).toNat ∧ at_ 0x151D0 8 = x.chain.toNat ∧
  SpecBankRecord x.bankA.fmt (at_ 0x151D8 8) ∧ SpecBankRecord x.bankS.fmt (at_ 0x151E0 8) ∧
  (∀ i, i < 9216 → at_ (0x15400 + 4 * i) 4 = specCellWord (SMap.get Cell.zero x.bankA.cells i) ∧
    at_ (0x1E400 + 4 * i) 4 = specCellWord (SMap.get Cell.zero x.bankS.cells i)) ∧
  (∀ i, i < 18432 → at_ (0x27400 + 8 * i) 8 = (SMap.get 0 x.acc i).toNat) ∧
  (∀ i, i < 260 → at_ (0x4B400 + 16 * i) 16 = leNat (x.qRecord i)) ∧
  (∀ i, i < 256 → at_ (0x4C800 + 8 * i) 8 = (x.qcell i).patch.toNat) ∧
  ∀ k, k < 8 → let p := SMap.get ⟨0, 0, 0, false⟩ x.pairs k
    at_ (0x4D000 + 32 * k) 8 = p.base % 2 ^ 64 ∧ at_ (0x4D008 + 32 * k) 8 = p.alt % 2 ^ 64 ∧
    at_ (0x4D010 + 32 * k) 8 = p.len % 2 ^ 64 ∧ at_ (0x4D018 + 32 * k) 8 = p.pub.toNat

/-- Table TRP-4: what every save writes of a strand, the region's doubleword at an offset being `at_`. -/
def SpecStrandHead (x : Strand) (at_ : Nat → Nat) : Prop :=
  (∀ r : Reg, at_ (8 * r.toNat) = (x.readG r).toNat) ∧ at_ 0x100 = x.pc.toNat ∧
  (∀ i : Reg3, (at_ 0x108).testBit i.toNat = x.readP i) ∧ at_ 0x110 = x.schedTrap.toNat ∧
  at_ 0x118 = (efrV x.lastFmt x.flags).toNat ∧ at_ 0x120 = x.trap.trapst.toNat ∧ at_ 0x128 = x.trap.pc.toNat ∧
  at_ 0x130 = x.trap.trapvec.toNat ∧ at_ 0x138 = x.trap.area % 2 ^ 64 ∧ at_ 0x140 = (loopSE x.loop0).toNat ∧
  at_ 0x148 = (loopCT x.loop0).toNat ∧ at_ 0x150 = (loopSE x.loop1).toNat ∧ at_ 0x158 = (loopCT x.loop1).toNat ∧
  at_ 0x160 + 2 ^ 64 * at_ 0x168 = x.digest.toNat ∧ (at_ 0x170).testBit 0 = x.folding ∧
  (at_ 0x170).testBit 1 = x.node.isSome ∧ (at_ 0x170).testBit 2 = (x.gang == .ganged)

/-- Table TRP-4: what a deep save writes of a strand beside that. -/
def SpecStrandBody (x : Strand) (at_ : Nat → Nat → Nat) : Prop :=
  (∀ i : Fin 16, at_ (0x180 + 8 * i) 8 = x.d[i].toNat) ∧ (∀ i : Fin 8, at_ (0x200 + 8 * i) 8 = x.q[i].toNat ∧
    at_ (0x240 + 8 * i) 8 = x.f[i].toNat ∧ at_ (0x280 + 8 * i) 8 = x.n[i].toNat) ∧
  (∀ r : Reg3, at_ (0x300 + 128 * r.toNat) 128 = (x.readM r).toNat) ∧ ∀ r : Reg, at_ (0x800 + 512 * r.toNat) 512 = (x.readV r).toNat

/-- R314: a tile that was saved runs again from its area, and the area's V is cleared; its engines' status, and of its strands the
owned words, the faults and the number of bundles, which no area holds, are those of the work unit's start. -/
def TileRestored (s t : State) (n : Nat) : Prop :=
  let d := n / 256
  let b := specArea s n
  let deep := dwordAt s d b / 4 % 2 = 1
  let x := t.tile n
  (t.die d).mem.read b = (s.die d).mem.read b &&& 0xFE ∧ x.saved = false ∧ x.saveAt = none ∧
  x.status = x.marks ∧
  (deep → (∀ a, a < 0x200000 → x.scratch.read a = (s.die d).mem.read (b + 0x50000 + a)) ∧
    (∀ (i : Fin 8) (j : Nat), x.a[i].getLsbD j = ((bytesAt s d (b + 0x15000 + 8 * i) 8).testBit j && !specReserved .array i j)) ∧
    x.actL.last.toNat = bytesAt s d (b + 0x15040) 4 ∧ x.outL.last.toNat = bytesAt s d (b + 0x15044) 4 ∧
    (∀ c, c < 96 → (x.col c).last.toNat = bytesAt s d (b + 0x15048 + 4 * c) 4) ∧
    x.chain = (bytesAt s d (b + 0x151D0) 8).testBit 0 ∧
    SpecBankRecord x.bankA.fmt (bytesAt s d (b + 0x151D8) 8) ∧ SpecBankRecord x.bankS.fmt (bytesAt s d (b + 0x151E0) 8) ∧
    (∀ i, i < 18432 → (SMap.get 0 x.acc i).toNat = bytesAt s d (b + 0x27400 + 8 * i) 8) ∧
    (∀ i, i < 256 → (x.qcell i).patch.toNat = bytesAt s d (b + 0x4C800 + 8 * i) 8) ∧
    (∀ i c, i < 9216 → bytesAt s d (b + 0x15400 + 4 * i) 4 = specCellWord c → SMap.get Cell.zero x.bankA.cells i = c) ∧
    ∀ i c, i < 9216 → bytesAt s d (b + 0x1E400 + 4 * i) 4 = specCellWord c → SMap.get Cell.zero x.bankS.cells i = c) ∧
  (¬deep → x.pairs = []) ∧
  ∀ k, k < 4 → let y := t.strand n k
    let r := b + 0x1000 + 0x5000 * k
    y.stopped = .no ∧ y.block = none ∧ y.trap.pend = false ∧ y.owned = [] ∧ y.faults = [] ∧ y.bundles = 0 ∧
    (∀ g : Reg, g ≠ 0 → (y.readG g).toNat = dwordAt s d (r + 8 * g.toNat)) ∧ y.pc.toNat = dwordAt s d (r + 0x100) % 2 ^ 32 ∧
    (∀ i : Reg3, i ≠ 0 → y.readP i = (dwordAt s d (r + 0x108)).testBit i.toNat) ∧
    y.trap.trapst.toNat = dwordAt s d (r + 0x120) % 32 ∧ y.trap.pc.toNat = dwordAt s d (r + 0x128) % 2 ^ 32 ∧
    y.digest.toNat = dwordAt s d (r + 0x160) + 2 ^ 64 * dwordAt s d (r + 0x168) ∧
    (deep → (∀ i : Fin 16, y.d[i].toNat = dwordAt s d (r + 0x180 + 8 * i)) ∧
      (∀ i : Fin 8, y.f[i].toNat = dwordAt s d (r + 0x240 + 8 * i) ∧ y.n[i].toNat = dwordAt s d (r + 0x280 + 8 * i)) ∧
      (∀ m : Reg3, m ≠ 0 → (y.readM m).toNat = bytesAt s d (r + 0x300 + 128 * m.toNat) 128) ∧
      ∀ v : Reg, (y.readV v).toNat = bytesAt s d (r + 0x800 + 512 * v.toNat) 512)

/-- R316 (Table TRP-10): a cluster has its way split, its store and its kiln configuration back from its region, and the region's V
is cleared. -/
def ClusterRestored (s t : State) (c : Nat) : Prop :=
  let d := c / 32
  let b := specRegionAt s c
  let w := dwordAt s d (b + 8)
  let x := t.cluster c
  (t.die d).mem.read b = (s.die d).mem.read b &&& 0xFE ∧ x.cw = min 16 (w % 32) ∧ x.tw = w / 256 % 32 ∧ x.busy = false ∧
  x.seq.toNat = w / 2 ^ 32 ∧ x.saved = false ∧ x.saving = false ∧
  x.kcfg.lr.toNat + 2 ^ 32 * x.kcfg.eps.toNat = dwordAt s d (b + 0x10) ∧
  x.kcfg.c1.toNat + 2 ^ 32 * x.kcfg.c2.toNat = dwordAt s d (b + 0x18) ∧ x.kcfg.decay.toNat = dwordAt s d (b + 0x20) % 2 ^ 16 ∧
  ∀ a, a < (16 - x.cw) * 0x400000 → x.store.read a = (s.die d).mem.read (b + 0x10000 + a)

/-- A save area or a region at a byte of a die's stack is whole (R314, R316). -/
def specWhole (s : State) (d b : Nat) : Prop := dwordAt s d b % 2 = 1

/-! ### The host -/

/-- A host operation is refused: nothing happens but that HOSTERR counts it, up to its largest value (Table SYS-1). -/
def Refused (s t : State) : Prop :=
  { t with hosterr := s.hosterr } = s ∧ t.hosterr.toNat = min (s.hosterr.toNat + 1) (2 ^ 64 - 1)

/-- Something leaves the package, and nothing else happens. -/
def Emits (s t : State) (o : Output) : Prop := t = { s with outputs := s.outputs ++ [o] }

/-- A host read is refused: it returns n zero bytes, and HOSTERR counts it (R335). -/
def RefusedRead (s t : State) (n : Nat) : Prop := ∃ u, Emits s u (.data (List.replicate n 0)) ∧ Refused u t

/-- A package takes a stagger message (R339): WIDTH from the message, unless it is out of range; its slot, while staggering is
on, from its own coordinates. -/
def Staggers (s t : State) (en : Bool) (width : Nat) : Prop :=
  { t with power := s.power } = s ∧ t.power.rate = s.power.rate ∧ t.power.floor = s.power.floor ∧ t.power.stgEn = en ∧
  (1 ≤ width → width ≤ 65535 → t.power.stgWidth.toNat = width) ∧
  (width = 0 ∨ 65535 < width → t.power.stgWidth = s.power.stgWidth) ∧
  (en = false → t.power.stgSlot = s.power.stgSlot) ∧
  (en = true → t.power.stgSlot.toNat =
    (s.coord.toNat % 16 + s.extent.1 * (s.coord.toNat / 16 % 16 + s.extent.2.1 * (s.coord.toNat / 256))) % 4096)

/-- Table SYS-3: the bit of a function. -/
def readyPlace : ReadyFn → Nat
  | .boot => 0 | .mgmt => 1 | .attest => 2 | .loader => 3 | .torus .. => 5
  | .linkdie i => 6 + i % 2 | .die k => 8 + k % 8 | .stack k => 16 + k % 8

/-- R335, R336: whether the stages on which a function depends have run, and its unit serves. -/
def readyAfter (s : State) : ReadyFn → Prop
  | .boot => .link ∈ s.booted ∧ .loader ∈ s.booted ∧ ∀ k, k < 8 → .die k ∈ s.booted
  | .mgmt => True
  | .attest | .torus .. | .linkdie _ => .link ∈ s.booted
  | .loader => .loader ∈ s.booted
  | .die k => .die (k % 8) ∈ s.booted ∧ (s.die (k % 8)).isolated = false
  | .stack k => .die (k % 8) ∈ s.booted

/-- R336: the number of a stage in the measurement log, and the stages before it. -/
def stagePlace : BootStage → Nat × List Nat
  | .link => (0, []) | .die k => (1 + k, [0]) | .loader => (9, List.range 9)

/-- The package answers a request of the attestation protocol (R337) with these bytes once its responder is ready; else it
refuses the request (R335). -/
def Answers (i : Instr) (s : State) (kind : Nat) (good : List Byte → Prop) : Prop :=
  (s.ready.getLsbD 2 = false → ∃ t, exec i s = .next t ∧ Refused s t) ∧
  (s.ready.getLsbD 2 = true → ∃ t bs, exec i s = .next t ∧
    t = { s with outputs := s.outputs ++ [.message kind bs], fresh := s.fresh + 1 } ∧ good bs)

/-- Whether a selector names a counter that the host reaches (R333, R334): its die exists and is ready, and its id lies within
Table CON-4. -/
def HostReaches (s : State) (d id : Nat) : Prop :=
  d < 8 ∧ s.ready.getLsbD (8 + d) = true ∧ id < 65536 + 8192 * (s.die d).ctrNfr

/-- R333, R270: an add of the host stands behind those of every other source of its cc, and nothing else happens. -/
def HostAddQueued (s t : State) (d id : Nat) (inc : DWord) : Prop :=
  { t with agenda := s.agenda } = s ∧
  (keyOf (if s.late then s.cc + 1 else s.cc) slotHost, Event.counterAdd d id inc .host) ∈ t.agenda

/-- Table SYS-1: the package register of an aligned offset, by its selector. -/
def pkgAt (r : SysReg) : Option Nat :=
  match r with
  | .bundlelimit => some (0x1000 + 8 * 0x030) | .stopwin => some (0x1000 + 8 * 0x031)
  | .qcfg q => some (0x1000 + 8 * (0x040 + q.toNat)) | .readymap => some (0x1000 + 8 * 0x050)
  | _ => none

/-- Table SYS-1: the offset of a register of die d. -/
def dieAt (d : Nat) (r : SysReg) : Option Nat :=
  match r with
  | .migthr => some (0x10000 + 0x1000 * d + 8 * 0x021) | .mlrjoin => some (0x10000 + 0x1000 * d + 8 * 0x024)
  | .ctrarea => some (0x10000 + 0x1000 * d + 8 * 0x025) | .memgov => some (0x10000 + 0x1000 * d + 8 * 0x026)
  | .savepool => some (0x10000 + 0x1000 * d + 8 * 0x027)
  | _ => none

/-! ### Tests of units -/

/-- A test of a unit is asked for (R318): it starts in this cc, or inside the next idle superstep. -/
def TestAsked (s t : State) (u : TestUnit) : Prop :=
  t.tests = s.tests ++ [u] ∨ (keyOf s.cc 14, Event.selfTestStart u) ∈ t.agenda

/-- R318: a launch depends on a unit: every launch on the links; on a row of a stack one with a translation of its frame in a cluster
of its own; on a stack, a station or counters one with a cluster on their die; else one that reserves the unit's cluster. -/
def SpecDepends (s : State) (l : Launch) (u : TestUnit) : Prop :=
  let has (c : Nat) : Prop := l.desc.clbase ≤ c ∧ c < l.desc.clbase + l.desc.clcount
  if u.code = 8 then True
  else if u.code = 3 then ∃ c e, has c ∧ e ∈ (s.cluster c).tlb ∧ e.peer = s.peerOf u.die ∧ e.frame ≤ u.index / 65536 ∧
    u.index / 65536 < e.frame + e.pages
  else if u.code = 9 ∨ u.code = 10 then l.desc.clbase < 32 * (u.die + 1) ∧ 32 * u.die < l.desc.clbase + l.desc.clcount
  else has (u.tile / 8)

/-- R316: tile n is the one whose sequencer copies the region of its cluster: no tile of lower position is in service. -/
def SpecCopier (s : State) (n : Nat) : Prop :=
  (s.tile n).retired = false ∧ ∀ m, m / 8 = n / 8 → m < n → (s.tile m).retired = true

/-- A self-test record is pushed into the health queue of its unit's die, which it enters at the end of its cc (R137): what
Table TRP-2 gives it. -/
def TestRecorded (s t : State) (u : TestUnit) (verdict : Nat) : Prop :=
  ∃ p r, (t.die u.die).healthQ.new = (s.die u.die).healthQ.new ++ [(p, r)] ∧ (t.die u.die).healthQ.recs = (s.die u.die).healthQ.recs ∧
    r.length = 64 ∧ leNat r / 2 ^ 320 % 2 ^ 64 = s.cc % 2 ^ 64 ∧ leNat r / 2 ^ 388 % 4 = 2 ∧ leNat r / 2 ^ 390 % 4 = verdict % 4 ∧
    leNat r / 2 ^ 392 % 256 = u.code % 256

end Sys2Proof.Machine
end

