-- ==== Sys2Proof/Certificates/Slice0/Obligations.lean ====
section
/-! DEFINITION. The statements for the provers, family by family in the order of the opcode table. -/
open Sys2Proof Sys2Proof.Machine

/-! ### Class S -/

/-- R140, R141, R142, R143 (Tables COR-3 and WRD-6): every S operation with a register form writes its result at its bound
when its guard holds, and does nothing when it does not. R140, R141: the immediate forms of the same operations, whose second
operand is the immediate with its L words. R28 (Table WRD-4): the value of a signed field of w bits with no, one or two L
words, each of which supplies the bits above those before it. -/
def Obligations.ScalarForms : Prop :=
  (∀ r ∈ scalarRows, ∀ (d a b : Reg) (p : Reg3) (s : State),
     ∃ t, exec (r.reg d a b p) s = .next t ∧
       if s.me.readP p then Posts s t r.bound (.g d (r.fn (s.me.readG a) (s.me.readG b))) else t = s) ∧
  (∀ r ∈ scalarRows, ∀ (d a : Reg) (i : BitVec 10) (ext : List LWord) (s : State),
     ∃ t, exec (r.imm d a i ext) s = .next t ∧ Posts s t r.bound (.g d (r.fn (s.me.readG a) (imm i ext)))) ∧
  (∀ (w : Nat) (f : BitVec w) (x y : LWord), 0 < w →
     imm f [] = f.signExtend 64 ∧ imm f [x] = (x ++ f).signExtend 64 ∧ imm f [x, y] = (y ++ (x ++ f)).signExtend 64)

/-- R41, R140, R141, R143: NOP does nothing; CLZ and POPC count bits; BFI replaces a field of the old destination, bit for
bit; SEL takes ga or gb by its guard field. R144, R145: CMP writes its predicate with the test of its condition, on 64 or on
32 bits; PLOG with its function, negated where the word says so. -/
def Obligations.SinglesAndPredicates : Prop :=
  (∀ (d a b : Reg) (p : Reg3) (i : BitVec 10) (ext : List LWord) (s : State),
     exec .nop s = .next s ∧
     (∃ t, exec (.clz d a p) s = .next t ∧
       if s.me.readP p then Posts s t 1 (.g d (BitVec.ofNat 64 (specClz (s.me.readG a)))) else t = s) ∧
     (∃ t, exec (.popc d a p) s = .next t ∧
       if s.me.readP p then Posts s t 1 (.g d (BitVec.ofNat 64 (specPopc (s.me.readG a)))) else t = s) ∧
     (∃ t v, exec (.bfi d a b p) s = .next t ∧ (if s.me.readP p then Posts s t 1 (.g d v) else t = s) ∧
       ∀ j, j < 64 → v.getLsbD j =
         let f := s.me.readG b
         if specPos f ≤ j ∧ j < specTop f then (s.me.readG a).getLsbD (j - specPos f) else (s.me.readG d).getLsbD j) ∧
     (∃ t v, exec (.bfiImm d a i ext) s = .next t ∧ Posts s t 1 (.g d v) ∧
       ∀ j, j < 64 → v.getLsbD j =
         let f := imm i ext
         if specPos f ≤ j ∧ j < specTop f then (s.me.readG a).getLsbD (j - specPos f) else (s.me.readG d).getLsbD j) ∧
     ∃ t, exec (.sel d a b p) s = .next t ∧ Posts s t 1 (.g d (if s.me.readP p then s.me.readG a else s.me.readG b))) ∧
  (∀ (p x y : Reg3) (k : Cond) (w n : Bool) (a b : Reg) (i : BitVec 8) (ext : List LWord) (f : PFn) (s : State),
     (∃ t v, exec (.cmp p k w a b) s = .next t ∧ Posts s t 1 (.p p v) ∧
       (v = true ↔ specCmp k w (s.me.readG a) (s.me.readG b))) ∧
     (∃ t v, exec (.cmpImm p k w a i ext) s = .next t ∧ Posts s t 1 (.p p v) ∧
       (v = true ↔ specCmp k w (s.me.readG a) (imm i ext))) ∧
     ∃ t v, exec (.plog p x y f n) s = .next t ∧ Posts s t 1 (.p p v) ∧
       ((v != n) = true ↔ match f with
         | .and => s.me.readP x = true ∧ s.me.readP y = true
         | .or => s.me.readP x = true ∨ s.me.readP y = true
         | .xor => s.me.readP x ≠ s.me.readP y
         | .andn => s.me.readP x = true ∧ s.me.readP y = false))

/-- R39, R146, R147 (Table COR-5): STG gives a staging register a copy of ga, RSTG a scalar register a copy of a staging
register, GETI the value of its selector, zero-extended; all at bound 1. -/
def Obligations.StagingAndGeti : Prop :=
  ∀ (d a : Reg) (e : Eng) (x : BitVec 4) (s : State) (l : Launch),
    s.launchOf s.bun.tile = some l →
    (∃ t, exec (.stg e x a) s = .next t ∧ Posts s t 1 (.stg e x (s.me.readG a))) ∧
    (∃ t, exec (.rstg d e x) s = .next t ∧ Posts s t 1 (.g d (s.myTile.readStg s.bun.strand e x))) ∧
    ∀ r ∈ [(GetiSel.strand, s.bun.strand), (.tile, s.bun.tile % 256), (.cluster, s.bun.tile % 256 / 8),
        (.die, s.bun.tile / 256), (.package, s.coord.toNat), (.wuid, l.unit), (.wucount, l.desc.wucount),
        (.cycle, s.cc), (.superstep, l.supers), (.launch, l.desc.launchid.toNat),
        (.panel, s.bun.tile % 8 + if s.me.gang = .ganged then 8 else 0)],
      ∃ t, exec (.geti d r.1) s = .next t ∧ Posts s t 1 (.g d (BitVec.ofNat 64 r.2))

/-- R31, Table COR-1, R167: a pending write reaches its register at its completion, where g0, p0 and m0 discard it and read
as their constants; every other register of the strand, and everything outside the strand, stays. R5, R7 (Tables ARR-3, QLT-6):
a staging register takes the bits that are no reserved field, which stay zero. A pending write of bytes reaches those bytes
alone. -/
def Obligations.PendingWrites : Prop :=
  ∀ (n k : Nat) (s : State),
    (∀ (r : Reg) (w : DWord), ∃ t, exec (.pendingWriteComplete n k (.g r w)) s = .next t ∧
      OnlyStrandOf s t n k ∧ { t.strand n k with g := (s.strand n k).g } = s.strand n k ∧
      ∀ q, (t.strand n k).readG q = if q = 0 then 0 else if q = r then w else (s.strand n k).readG q) ∧
    (∀ (r : Reg3) (w : Bool), ∃ t, exec (.pendingWriteComplete n k (.p r w)) s = .next t ∧
      OnlyStrandOf s t n k ∧ { t.strand n k with p := (s.strand n k).p } = s.strand n k ∧
      ∀ q, (t.strand n k).readP q = if q = 0 then true else if q = r then w else (s.strand n k).readP q) ∧
    (∀ (r : Reg) (w : VWord), ∃ t, exec (.pendingWriteComplete n k (.v r w)) s = .next t ∧
      OnlyStrandOf s t n k ∧ { t.strand n k with v := (s.strand n k).v } = s.strand n k ∧
      ∀ q, (t.strand n k).readV q = if q = r then w else (s.strand n k).readV q) ∧
    (∀ (r : Reg3) (w : MWord), ∃ t, exec (.pendingWriteComplete n k (.m r w)) s = .next t ∧
      OnlyStrandOf s t n k ∧ { t.strand n k with m := (s.strand n k).m } = s.strand n k ∧
      ∀ q, (t.strand n k).readM q = if q = 0 then BitVec.allOnes 1024 else if q = r then w else (s.strand n k).readM q) ∧
    (∀ (e : Eng) (i : BitVec 4) (w : DWord), (e ≠ .stream → i.toNat < 8) →
      ∃ t, exec (.pendingWriteComplete n k (.stg e i w)) s = .next t ∧
        { t with tiles := s.tiles } = s ∧ (∀ m, m ≠ n → t.tile m = s.tile m) ∧
        (∀ j, j ≠ k → t.strand n j = s.strand n j) ∧ (t.tile n).scratch = (s.tile n).scratch ∧
        (t.strand n k).g = (s.strand n k).g ∧ (t.strand n k).pc = (s.strand n k).pc ∧
        ∀ (f : Eng) (j : BitVec 4), (f ≠ .stream → j.toNat < 8) →
          if f = e ∧ j = i then ∀ b, b < 64 → ((t.tile n).readStg k f j).getLsbD b = (w.getLsbD b && !specReserved e i.toNat b)
          else (t.tile n).readStg k f j = (s.tile n).readStg k f j) ∧
    ∀ (a : Nat) (bs : List Byte), ∃ t, exec (.pendingWriteComplete n k (.mem a bs)) s = .next t ∧
      { t with tiles := s.tiles } = s ∧ (∀ m, m ≠ n → t.tile m = s.tile m) ∧
      { t.tile n with scratch := (s.tile n).scratch } = s.tile n ∧
      ((s.tile n).scratch.wf = true → ∀ x, (t.tile n).scratch.read x =
        if h : a ≤ x ∧ x < a + bs.length then bs[x - a]'(by omega) else (s.tile n).scratch.read x)

/-! ### Class M -/

/-- R148, R149 (Tables COR-6 and COR-7): a load from the scratchpad writes its register at bound 4 with the bytes at its
address, sign- or zero-extended; a store leaves the low bytes of its register as a pending write at bound 1 at the physical
byte its address reaches. Both hold for every aligned address within the scratchpad. -/
def Obligations.ScratchpadWords : Prop :=
  ∀ (g b : Reg) (i : BitVec 10) (ext : List LWord) (s : State),
    (∀ r ∈ loadRows, let ea := (memAddr s b r.size i ext).toNat
      ea % r.size = 0 → ea + r.size ≤ 0x200000 →
      ∃ t, exec (r.word g b .scratch i ext) s = .next t ∧
        Posts s t 4 (.g g (specLoaded r.sgn (s.myTile.readBytes ea r.size))) ∧
        (s.myTile.scratch.wf = true → ∀ j, j < r.size →
          (s.myTile.readBytes ea r.size)[j]? = some (s.myTile.scratch.read (s.myTile.phys (ea + j))))) ∧
    ∀ r ∈ storeRows, let ea := (memAddr s b r.size i ext).toNat
      ea % r.size = 0 → ea + r.size ≤ 0x200000 →
      ∃ t, exec (r.word g b .scratch i ext) s = .next t ∧
        Posts s t 1 (.mem (s.myTile.phys ea) ((List.range r.size).map (specByte (s.me.readG g))))

/-- R148 to R150, R85, R260: a load from the cluster store writes its register at bound 48 with the store's bytes as the
strand sees them, under its own writes; a store makes its bytes owned by the strand, which sees them at once, while every
byte of the store itself stays. Both hold for every aligned address below the store's size while no SPLT drains. -/
def Obligations.ClusterStoreWords : Prop :=
  ∀ (g b : Reg) (i : BitVec 10) (ext : List LWord) (s : State),
    (s.cluster s.myCluster).busy = false →
    (∀ r ∈ loadRows, let ea := (memAddr s b r.size i ext).toNat
      ea % r.size = 0 → ea + r.size ≤ (16 - (s.cluster s.myCluster).cw) * 0x400000 →
      ∃ t bs, exec (r.word g b .store i ext) s = .next t ∧ Posts s t 48 (.g g (specLoaded r.sgn bs)) ∧
        bs.length = r.size ∧ ((s.cluster s.myCluster).store.wf = true → ∀ j, j < r.size →
          bs[j]? = some ((s.me.ownWrite true (ea + j)).getD ((s.cluster s.myCluster).store.read (ea + j))))) ∧
    ∀ r ∈ storeRows, let ea := (memAddr s b r.size i ext).toNat
      ea % r.size = 0 → ea + r.size ≤ (16 - (s.cluster s.myCluster).cw) * 0x400000 →
      ∃ t, exec (r.word g b .store i ext) s = .next t ∧ Owns s t true ea r.size (s.me.readG g) ∧ SameBytes s t

/-- R100, R103, R105, R148 to R150, R260: M words of global memory, by the mode of the page that their address reaches, whether
a TLB holds its translation or it needs a walk. A load of MODE 00, or of MODE 10, homed in this package writes its register at
its bound with the bytes at home as the strand sees them; a load of MODE 01 or 11 sends a request for its bytes, its register
watched for twice the transit and 1,024; a load of another package that lies outside the torus faults. A store of MODE 00 makes
its bytes owned; one of MODE 01 or 11 of at least four bytes enters the fabric queue as an entry; a smaller one, and any store
to a read-only page, whatever its MODE, faults by the bound, as does an access whose walk faults. Under a translation that the
TLBs hold, nothing changes but what these clauses name. (That a small store to a read-only page reports RO is log 34.) -/
def Obligations.GlobalWords : Prop :=
  ∀ (g b : Reg) (i : BitVec 10) (ext : List LWord) (s : State),
    (∀ r ∈ loadRows, let ea := memAddr s b r.size i ext
      let page := ea.toNat / 65536
      ea.toNat % r.size = 0 →
      (∀ c l miss, s.coreXlate s.bun.tile ea = .fault c l miss → ∃ t, exec (r.word g b .global i ext) s = .next t ∧
        FaultsBy s t (xlateBound s ea miss) .translate 0 (BitVec.ofNat 32 (c + 16 * l)) ea) ∧
      ∀ e miss, s.coreXlate s.bun.tile ea = .hit e miss → let far := xlateBound s ea miss + 2 * s.transit s.myDie e.peer
        (e.mode ≠ 0 → s.absent e.peer = true → ∃ t, exec (r.word g b .global i ext) s = .next t ∧
          FaultsBy s t far .fabric 5 3 ea) ∧
        (s.entriesOn s.bun.tile s.bun.strand ea.toNat r.size = false →
          (e.mode = 0 ∨ (e.mode = 2 ∧ s.absent e.peer = false) → s.ownPackage e.peer = true →
            s.isBad (stnOf e.peer) (e.offset ea.toNat) r.size = false →
            ∃ t bs, exec (r.word g b .global i ext) s = .next t ∧
              LoadsBy s t (if e.mode = 0 then xlateBound s ea miss else far) g (specLoaded r.sgn bs) ∧
              (e.mode = 0 → s.tileLookup s.bun.tile page = some e → (s.cluster s.myCluster).lookup page = some e →
                (s.die (stnOf e.peer)).bad = [] → (s.die (stnOf e.peer)).wrong = [] → ea.toNat < 2 ^ 52 →
                Posts s t 1024 (.g g (specLoaded r.sgn bs))) ∧
              bs.length = r.size ∧ ∀ j, j < r.size → bs[j]? = some ((s.me.ownWrite false (ea.toNat + j)).getD
                ((s.memRead (stnOf e.peer) (e.offset ea.toNat) r.size).getD j 0))) ∧
          (e.mode = 1 ∨ e.mode = 3 → s.absent e.peer = false →
            ∃ t, exec (r.word g b .global i ext) s = .next t ∧ OtherStrands s t ∧ SameBytes s t ∧
              t.me.board = watchOf (.g g 0) (s.cc + far) ++ s.me.board ∧
              { t.me with board := s.me.board, outst := s.me.outst } = s.me ∧
              t.me.outst = s.me.outst ++ [⟨0, s.me.bundleSeq, false, none, true⟩] ∧
              ∃ q, (keyOf s.cc slotLoad, Event.remoteLoadRequest q) ∈ t.agenda ∧
                q.va = ea ∧ q.peer = e.peer ∧ q.off = e.offset ea.toNat ∧ q.size = r.size ∧ q.signed = r.sgn ∧ q.dest = g ∧
                q.due = s.cc + far))) ∧
    ∀ r ∈ storeRows, let ea := memAddr s b r.size i ext
      let page := ea.toNat / 65536
      ea.toNat % r.size = 0 → s.myTile.fabCount < 16 →
      (∀ c l miss, s.coreXlate s.bun.tile ea = .fault c l miss → ∃ t, exec (r.word g b .global i ext) s = .next t ∧
        FaultsBy s t (xlateBound s ea miss) .translate 0 (BitVec.ofNat 32 (c + 16 * l)) ea) ∧
      ∀ e miss, s.coreXlate s.bun.tile ea = .hit e miss →
        (e.ro = true → ∃ t, exec (r.word g b .global i ext) s = .next t ∧
          FaultsBy s t (xlateBound s ea miss) .translate 0 (BitVec.ofNat 32 (2 + 16 * e.level)) ea) ∧
        (e.ro = false → e.mode = 1 ∨ e.mode = 3 → r.size < 4 → ∃ t, exec (r.word g b .global i ext) s = .next t ∧
          FaultsBy s t (xlateBound s ea miss) .translate 0 (BitVec.ofNat 32 (8 + 16 * e.level)) ea) ∧
        (e.ro = false → e.mode = 1 ∨ e.mode = 3 → 4 ≤ r.size → ∃ t, exec (r.word g b .global i ext) s = .next t ∧
          OtherStrands s t ∧ SameBytes s t ∧
          (∃ data, t.myTile.fq = s.myTile.fq ++ [.entry .store ea data (r.size == 8) (s.origin s.me.seqs.fabric) s.cc] ∧
            data.toNat = (s.me.readG g).toNat % 256 ^ r.size) ∧
          t.me.seqs.fabric = (s.me.seqs.fabric + 1) % 2 ^ 32 ∧
          t.me.outst = s.me.outst ++ [⟨5, s.me.seqs.fabric, true, s.me.node.map (·.index), false⟩] ∧
          { t.me with seqs := s.me.seqs, outst := s.me.outst, digest := s.me.digest } = s.me) ∧
        (e.ro = false → e.mode = 0 → ∃ t, exec (r.word g b .global i ext) s = .next t ∧ OtherStrands s t ∧ SameBytes s t ∧
          OwnsMe s t false ea.toNat r.size (s.me.readG g) ∧
          (s.tileLookup s.bun.tile page = some e → (s.cluster s.myCluster).lookup page = some e → ea.toNat < 2 ^ 52 →
            Owns s t false ea.toNat r.size (s.me.readG g)))

/-- R148, R85, R89, R104 (Table COR-6): where an M word traps before its bundle issues, or waits, and in which order:
alignment first, then the range of its space. ADDR is the address. R90, R268: PREF and LUSE change nothing that any party
reads; DISC drops the strand's owned words of global memory in its line where a page of MODE 00 that may be written maps it, and
nothing else. -/
def Obligations.MemoryTrapsAndHints : Prop :=
  (∀ (w : Reg → Reg → MSpace → BitVec 10 → List LWord → Instr) (n : Nat) (g b : Reg) (i : BitVec 10) (ext : List LWord)
     (s : State), ((∃ r ∈ loadRows, r.word = w ∧ r.size = n) ∨ ∃ r ∈ storeRows, r.word = w ∧ r.size = n) →
     s.bun.checked = false →
     let ea := memAddr s b n i ext
     (∀ sp, ea.toNat % n ≠ 0 → exec (w g b sp i ext) s = .next (s.trapHere .align (some ea) none)) ∧
     (ea.toNat % n = 0 → 0x200000 < ea.toNat + n →
       exec (w g b .scratch i ext) s = .next (s.trapHere .scratchRange (some ea) none)) ∧
     (ea.toNat % n = 0 → (s.cluster s.myCluster).busy = true →
       exec (w g b .store i ext) s = .next (s.trapHere .splitBusy (some ea) none)) ∧
     (ea.toNat % n = 0 → (s.cluster s.myCluster).busy = false → (16 - (s.cluster s.myCluster).cw) * 0x400000 < ea.toNat + n →
       exec (w g b .store i ext) s = .next (s.trapHere .storeRange (some ea) none)) ∧
     (ea.toNat % n = 0 → s.coreXlate s.bun.tile ea = .full →
       exec (w g b .global i ext) s = .next (s.blockOn .walkQueue))) ∧
  (∀ (b : Reg) (i : BitVec 10) (ext : List LWord) (s : State),
     exec (.pref b i ext) s = .next s ∧ exec (.luse b i ext) s = .next s ∧
     ∃ t, exec (.disc b i ext) s = .next t ∧ OnlyMe s t ∧ t.agenda = s.agenda ∧ SameBytes s t ∧
       { t.me with owned := s.me.owned } = s.me ∧
       let line := (s.me.readG b + 128 * imm i ext).toNat / 128
       ∀ o, o ∈ t.me.owned ↔ o ∈ s.me.owned ∧
         ¬((∃ e, s.engXlate s.myCluster (128 * line) = .ok e ∧ e.mode = 0 ∧ e.ro = false) ∧ o.store = false ∧ o.word * 4 / 128 = line))

/-! ### Class B -/

/-- R151: BR transfers when its predicate, inverted by N, holds; JMP and CALL always do, and CALL writes the word index of the
next bundle to g31 at bound 1; JR goes to the word index in ga when its upper half is zero, and traps before its bundle when
it is not. R157, R160, R161, R162: DLY stalls its strand for n + 1 cc; YIELD asks for a switch but in gang mode; HALT ends the
strand at its bundle's end, outside gang mode, and traps in it; TRAP leaves a software trap with its code for the bundle's
end. Nothing else changes. -/
def Obligations.ControlWords : Prop :=
  (∀ (p : Reg3) (n : Bool) (d : BitVec 18) (j : BitVec 22) (a : Reg) (s : State),
     (∃ t, exec (.br p n d) s = .next t ∧ OnlyBundle s t ∧
       t.bun = if s.me.readP p != n then { s.bun with target := some (s.bun.first + d.signExtend 32) } else s.bun) ∧
     (∃ t, exec (.jmp j) s = .next t ∧ OnlyBundle s t ∧
       t.bun = { s.bun with target := some (s.bun.first + j.signExtend 32) }) ∧
     (∃ t, exec (.call j) s = .next t ∧
       Posts s { t with bun := s.bun } 1 (.g 31 ((s.bun.first + BitVec.ofNat 32 s.bun.len).setWidth 64)) ∧
       t.bun = { s.bun with target := some (s.bun.first + j.signExtend 32) }) ∧
     ((s.me.readG a).toNat < 2 ^ 32 → ∃ t, exec (.jr a) s = .next t ∧ OnlyBundle s t ∧
       t.bun = { s.bun with target := some ((s.me.readG a).setWidth 32) }) ∧
     (2 ^ 32 ≤ (s.me.readG a).toNat → s.bun.checked = false → s.bun.follow = false →
       exec (.jr a) s = .next (s.trapHere .fetchRange none none))) ∧
  (∀ (n : BitVec 8) (k : BitVec 16) (s : State),
     (∃ t, exec (.dly n) s = .next t ∧ OnlyBundle s t ∧ t.bun = { s.bun with stall := s.bun.stall + n.toNat + 1 }) ∧
     (∃ t, exec .yield s = .next t ∧ OnlyBundle s t ∧
       t.bun = if s.me.gang = .ganged then s.bun else { s.bun with yields := true }) ∧
     (s.me.gang ≠ .ganged → ∃ t, exec .halt s = .next t ∧ OnlyBundle s t ∧ t.bun = { s.bun with halts := true }) ∧
     (s.me.gang = .ganged → s.bun.checked = false → exec .halt s = .next (s.trapHere .gangState none none)) ∧
     ∃ t, exec (.trap k) s = .next t ∧ OnlyBundle s t ∧ t.bun = { s.bun with soft := some k })

/-- R153, R155, R156: LSET and LSETI deactivate their loop with the loop nested in it, then set its register, or with a count
of zero make the bundle after the body next; they trap where R153 says; LEXIT deactivates an active loop with the loop
nested in it and leaves an inactive one as it is. -/
def Obligations.LoopWords : Prop :=
  ∀ (l : Bool) (g : Reg) (e : BitVec 16) (c : BitVec 12) (e' : BitVec 9) (s : State),
    (loopFits s l (s.me.readG g) e.toNat → ∃ t, exec (.lset l g e) s = .next t ∧ LoopSetup s t l (s.me.readG g) e.toNat) ∧
    (loopFits s l (c.setWidth 64) e'.toNat →
      ∃ t, exec (.lseti l c e') s = .next t ∧ LoopSetup s t l (c.setWidth 64) e'.toNat) ∧
    (s.bun.checked = false → s.bun.follow = false → e.toNat < s.bun.len →
      exec (.lset l g e) s = .next (s.trapHere .illegal none none)) ∧
    (s.bun.checked = false → s.bun.follow = false → e'.toNat < s.bun.len →
      exec (.lseti l c e') s = .next (s.trapHere .illegal none none)) ∧
    (s.bun.checked = false → s.bun.follow = false → s.bun.len ≤ e.toNat →
      0xFFFFFFFF < (s.me.readG g).toNat ∨ loopConflict s l e.toNat →
      exec (.lset l g e) s = .next (s.trapHere .loopRange none none)) ∧
    (s.bun.checked = false → s.bun.follow = false → s.bun.len ≤ e'.toNat → loopConflict s l e'.toNat →
      exec (.lseti l c e') s = .next (s.trapHere .loopRange none none)) ∧
    ∃ t, exec (.lexit l) s = .next t ∧
      if (s.me.loop l).act then SetsLoops s t l { s.me.loop l with act := false } (otherAfter s.me l) else t = s

/-- R25, R151, R153, R154, R157: where a strand goes after its bundle, and when. A transfer goes to its target at +2; a loop
setup with a count of zero to the bundle after the body at +2; the END bundle of one active loop counts down and goes back
to START, or ends the loop, at +1; of two active loops that share an END the nested one comes first, and the other is looked at
only when the nested one has ended; any other bundle goes to the next word at +1; each later by the stall of a DLY. R155: a taken
transfer out of the body of an active loop ends it with the loop nested in it, but for the TRET that restores the loops; one into
the body leaves it active; a bundle beyond the body ends it too. -/
def Obligations.BundleSequence : Prop :=
  ∀ (s : State) (ends : List Bool) (ws : List (Nat × Instr)) (stop : Bool), s.bun.follow = false →
    let t := s.advance ends ws stop
    t.me.transferFrom = some s.bun.first ∧ t.me.bundleSeq = (s.me.bundleSeq + 1) % 2 ^ 32 ∧
    (∀ w, s.bun.target = some w → t.me.pc = w ∧ t.me.nextCc = s.cc + 2 + s.bun.stall) ∧
    (∀ last, s.bun.target = none → s.bun.jump = some last →
      t.me.pc = last + BitVec.ofNat 32 (chainLen (s.image s.bun.tile).code last.toNat) ∧
      t.me.nextCc = s.cc + 2 + s.bun.stall ∧ t.me.loop0 = s.me.loop0 ∧ t.me.loop1 = s.me.loop1) ∧
    (s.bun.target = none → s.bun.jump = none → ends = [] →
      t.me.pc = s.bun.first + BitVec.ofNat 32 s.bun.len ∧ t.me.nextCc = s.cc + 1 + s.bun.stall ∧
      t.me.loop0 = s.me.loop0 ∧ t.me.loop1 = s.me.loop1) ∧
    (∀ l, s.bun.target = none → s.bun.jump = none → ends = [l] → (s.me.loop l).act = true →
      (s.me.loop l).stop = s.bun.first →
      t.me.nextCc = s.cc + 1 + s.bun.stall ∧ (t.me.loop l).count = (s.me.loop l).count - 1 ∧
      if (s.me.loop l).count = 1 then
        t.me.pc = s.bun.first + BitVec.ofNat 32 s.bun.len ∧ (t.me.loop l).act = false
      else t.me.pc = (s.me.loop l).start ∧ (t.me.loop l).act = true ∧ t.me.loop (!l) = s.me.loop (!l)) ∧
    (∀ l, s.bun.target = none → s.bun.jump = none → SharedEnd s.me l s.bun.first → ends = s.me.endsAt s.bun.first →
      t.me.nextCc = s.cc + 1 + s.bun.stall ∧ (t.me.loop l).count = (s.me.loop l).count - 1 ∧
      if (s.me.loop l).count ≠ 1 then
        t.me.pc = (s.me.loop l).start ∧ (t.me.loop l).act = true ∧ t.me.loop (!l) = s.me.loop (!l)
      else (t.me.loop l).act = false ∧ (t.me.loop !l).count = (s.me.loop !l).count - 1 ∧
        if (s.me.loop !l).count ≠ 1 then t.me.pc = (s.me.loop !l).start ∧ (t.me.loop !l).act = true
        else t.me.pc = s.bun.first + BitVec.ofNat 32 s.bun.len ∧ (t.me.loop !l).act = false) ∧
    (∀ w, s.bun.target = some w → s.bun.tret ≠ some true →
      let out (l : Bool) : Prop := (s.me.loop l).act = true ∧ ¬InBody (s.image s.bun.tile).code (s.me.loop l) w
      ∀ l, (out l ∨ (out !l ∧ (s.me.loop l).nest = true) → t.me.loop l = { s.me.loop l with act := false }) ∧
        (¬out l → (out !l → (s.me.loop l).nest = false) → t.me.loop l = s.me.loop l)) ∧
    ∀ (x : Strand) (code : List Word) (l : Bool), (x.loop l).act = true →
      (x.loop l).stop.toNat + chainLen code (x.loop l).stop.toNat ≤ x.pc.toNat → ((x.endPassed code).loop l).act = false

/-- R158, R297, R298: a NODE whose index the image's node table holds and whose predecessors are complete ends the strand's
node and enters its own, whose bound counts from this cc; one that is not in the table, or that a predecessor holds back,
traps. R159, R298: SELS takes an entry of the schedule table at its displacement that fits ga, and in a table whose capacities
rise the one of least capacity; it transfers to that entry's label, and the entry's cycles become the bound of the strand's
node. Where none fits, it traps. -/
def Obligations.NodeWords : Prop :=
  (∀ (n : BitVec 22) (s : State), s.bun.follow = false →
     (∀ e, (s.image s.bun.tile).nodeOf n.toNat = some e → (∀ p ∈ e.preds, s.me.nodeDone p = true) →
       ∃ t r, exec (.node n) s = .next t ∧ OnlyMe s t ∧ SameBytes s t ∧
         { t.me with node := s.me.node, ended := s.me.ended } = s.me ∧ t.me.node = some r ∧ r.index = n ∧
         r.entry.toNat = e.entry % 2 ^ 32 ∧ r.since = s.cc ∧ r.bound = ((s.image s.bun.tile).schedEntry e.sched 0).2.1 ∧
         (keyOf (s.cc + r.bound) 12, Event.overrun s.bun.tile s.bun.strand) ∈ t.agenda ∧
         t.me.ended = (match s.me.node with | none => s.me.ended | some q => q.index :: s.me.ended)) ∧
     (s.bun.checked = false → (s.image s.bun.tile).nodeOf n.toNat = none →
       exec (.node n) s = .next (s.trapHere .nodeRange none none)) ∧
     ∀ e, s.bun.checked = false → (s.image s.bun.tile).nodeOf n.toNat = some e →
       (∃ p ∈ e.preds, s.me.nodeDone p = false) → exec (.node n) s = .next (s.trapHere .predecessor none none)) ∧
  (∀ (g : Reg) (d : BitVec 17) (s : State), s.bun.follow = false →
     let table := (s.bun.first + d.signExtend 32).toNat
     let img := s.image s.bun.tile
     let rows := (List.range (img.schedCount table)).map (img.schedEntry table)
     ((∃ r ∈ rows, (s.me.readG g).toNat ≤ r.2.2) → rows.Pairwise (fun a b => a.2.2 < b.2.2) →
       ∃ t, ∃ r ∈ rows, exec (.sels g d) s = .next t ∧ (s.me.readG g).toNat ≤ r.2.2 ∧
         (∀ q ∈ rows, (s.me.readG g).toNat ≤ q.2.2 → r.2.2 ≤ q.2.2) ∧
         t.bun = { s.bun with target := some r.1 } ∧ OnlyMe s { t with bun := s.bun } ∧ SameBytes s t ∧
         { t.me with node := s.me.node } = s.me ∧
         (∀ n, s.me.node = some n → ∃ m, t.me.node = some m ∧ m.bound = r.2.1 ∧ m.index = n.index ∧ m.since = n.since)) ∧
     (s.bun.checked = false → (∀ r ∈ rows, r.2.2 < (s.me.readG g).toNat) →
       exec (.sels g d) s = .next (s.trapHere .sizeClass none none)))

/-- R163, R165, R207, R319: a GANG enter that has met its partners completes; one that has not waits, on a cluster that is
not degraded and a tile with no other strand waiting or ganged, and traps elsewhere. GANG exit frees its strand and the
held strands of its tile, and clears CHAIN; outside gang mode it traps. -/
def Obligations.GangWords : Prop :=
  ∀ (s : State),
    ((SMap.find s.me.barPassed gangCode).isSome → ∃ t, exec .gangEnter s = .next t ∧ OnlyMe s t ∧ SameBytes s t ∧
      { t.me with barPassed := s.me.barPassed } = s.me ∧ t.me.barPassed = SMap.del s.me.barPassed gangCode) ∧
    (s.bun.checked = false → SMap.find s.me.barPassed gangCode = none →
      exec .gangEnter s = .next (if (tilesOf s.myCluster).any (fun n => (s.tile n).retired) || s.me.gang == .ganged ||
          strandIds.any (fun k => k != s.bun.strand && ((s.strand s.bun.tile k).gang == .waiting ||
            (s.strand s.bun.tile k).gang == .ganged))
        then s.trapHere .gangState none none else s.blockOn .gang)) ∧
    (s.me.gang = .ganged → ∃ t, exec .gangExit s = .next t ∧ t.me.gang = .no ∧ t.myTile.chain = false ∧ SameBytes s t ∧
      { t.me with gang := s.me.gang, gangEnd := s.me.gangEnd, faults := s.me.faults } = s.me ∧ t.me.gangEnd = some s.me.seqs ∧
      (s.bun.tile % 8 ≠ 0 → t.me.faults = s.me.faults) ∧
      ∀ k, k ≠ s.bun.strand → (t.strand s.bun.tile k).gang =
        (if (s.strand s.bun.tile k).gang = .held then .no else (s.strand s.bun.tile k).gang)) ∧
    (s.me.gang ≠ .ganged → s.bun.checked = false → exec .gangExit s = .next (s.trapHere .gangState none none))

/-! ### Class V -/

/-- R170, R171, Table VEC-3: an integer or bitwise vector op writes, at bound 2, a register whose active lanes are its
operator of the source lanes, over integers, and whose other lanes are the old destination's. It raises no flag. R172: a
widening op writes, at bound 3, the g registers of its group: source lane i gives the exact sum or product, added to the old
element by VMADQ, as element i / g of register vd + i mod g; elements of inactive lanes stay. -/
def Obligations.VectorIntegers : Prop :=
  (∀ r ∈ vectorRows, ∀ (t : VType) (d a b : Reg) (m : Reg3) (s : State),
     ∃ u v, exec (r.word t d a b m) s = .next u ∧ Posts s u 2 (.v d v) ∧
       Lanes t v (s.me.readV d) (s.me.readM m) fun i =>
         r.fn t.width (lane t (s.me.readV a) i) (lane t (s.me.readV b) i) (lane t (s.me.readV d) i)) ∧
  (∀ r ∈ widenRows, ∀ (t : VType) (d a b : Reg) (m : Reg3) (s : State), t.width * r.group ≤ 32 →
     ∃ (u : State) (vs : List VWord), exec (r.word t d a b m) s = .next u ∧ vs.length = r.group ∧
       PostsAll s u 3 ((List.range r.group).map fun j => .v (d + BitVec.ofNat 5 j) (vs.getD j 0)) ∧
       ∀ i, i < t.lanes →
         let w := r.group * t.width
         let old : BitVec w := laneAt w (s.me.readV (d + BitVec.ofNat 5 (i % r.group))) (i / r.group)
         laneAt w (vs.getD (i % r.group) 0) (i / r.group) =
           if (s.me.readM m).getLsbD i then
             BitVec.ofInt w (r.fn (lane t (s.me.readV a) i).toInt (lane t (s.me.readV b) i).toInt +
               if r.acc then old.toInt else 0)
           else old)

/-- R170, R173 to R176, R66, R69: a floating-point or log op writes, at its bound, its operator of the active lanes' codes
under the formats of EFR.V, and the flags of the strand rise by the union of those of its active lanes. R49, R50, R173, R175:
for both formats (p bits of significand: 24 for f32, 8 for bf16) in every mode of EFR.V, a result of finite numbers is the exact
one, rounded once, with its flags: sums, differences, products and fused products, reciprocals and reciprocal roots, powers of
two of integers and logarithms of powers of two; an exact zero has the sign of IEEE 754. (Powers and logarithms that are no
integers are rounded from long expansions: log 18.) R174: the smaller and the larger. Table VEC-5: the results that it names.
R176: products and reciprocals of log codes. -/
def Obligations.VectorFloats : Prop :=
  (∀ r ∈ floatRows, ∀ (t : VType) (d a b : Reg) (m : Reg3) (s : State),
     let res (i : Nat) : Flagged Nat := r.fn t s.me.fmt (lane t (s.me.readV a) i).toNat (lane t (s.me.readV b) i).toNat
       (lane t (s.me.readV d) i).toNat
     ∃ u v, exec (r.word t d a b m) s = .next u ∧
       PostsRaise s u r.bound [.v d v] (unionFlags ((actives t (s.me.readM m)).map fun i => (res i).2)) ∧
       Lanes t v (s.me.readV d) (s.me.readM m) fun i => BitVec.ofNat t.width (res i).1) ∧
  ((∀ t ∈ [VType.f32, VType.bf16], ∀ (rm : Rnd) (neg : Bool), let p := precOf t
     fpRcp p rm (fpZero p neg) = (fpInf p neg, .divZero) ∧ fpRcp p rm (fpInf p neg) = (fpZero p neg, .zero) ∧
     fpRsq p rm (fpZero p neg) = (fpInf p neg, .zero) ∧ fpRsq p rm (fpInf p false) = (fpZero p false, .zero) ∧
     fpRsq p rm (fpInf p true) = (fpNaN p, .invalid) ∧
     (fpExp2 p rm (fpZero p neg)).1 = 127 * 2 ^ (p - 1) ∧ (fpExp2 p rm (fpInf p false)).1 = fpInf p false ∧
     (fpExp2 p rm (fpInf p true)).1 = fpZero p false ∧ fpLog2 p rm (fpZero p neg) = (fpInf p true, .divZero) ∧
     fpLog2 p rm (fpInf p false) = (fpInf p false, .zero) ∧ fpLog2 p rm (fpInf p true) = (fpNaN p, .invalid) ∧
     fpLog2 p rm (127 * 2 ^ (p - 1)) = (fpZero p false, .zero) ∧
     fpAdd p rm (fpInf p false) (fpInf p true) = (fpNaN p, .invalid) ∧
     fpFma p rm (fpInf p neg) (fpZero p false) (fpNaN p) = (fpNaN p, .invalid) ∧
     fpPick p false (fpZero p true) (fpZero p false) = (fpZero p true, .zero) ∧
     fpPick p true (fpZero p true) (fpZero p false) = (fpZero p false, .zero)) ∧
   (∀ t ∈ [VType.f32, VType.bf16], ∀ (v : FmtV) (a b d : Nat), let p := precOf t
     let rm := [Rnd.rne, .rtz, .rdn, .rup].getD v.rm.toNat .rne
     let x := codeVal p a
     let y := codeVal p b
     let z := codeVal p d
     v.mode = rm ∧ (codeFinite p a → codeFinite p b → codeFinite p d →
       (∀ r ∈ [(fpAdd p rm a b, x + y), (fpSub p rm a b, x - y), (fpMul p rm a b, x * y), (fpFma p rm a b d, x * y + z)],
         r.2 ≠ 0 → Rounded p rm r.2 r.1) ∧
       (x + y = 0 →
         fpAdd p rm a b = (fpZero p (if x = 0 ∧ codeNeg p a = codeNeg p b then codeNeg p a else rm == .rdn), .zero)) ∧
       (x - y = 0 →
         fpSub p rm a b = (fpZero p (if x = 0 ∧ codeNeg p a ≠ codeNeg p b then codeNeg p a else rm == .rdn), .zero)) ∧
       (x * y = 0 → fpMul p rm a b = (fpZero p (codeNeg p a != codeNeg p b), .zero)) ∧
       (x * y + z = 0 → fpFma p rm a b d =
         (fpZero p (if z = 0 ∧ (codeNeg p a != codeNeg p b) = codeNeg p d then codeNeg p d else rm == .rdn), .zero)) ∧
       (x ≠ 0 → Rounded p rm (1 / x) (fpRcp p rm a)) ∧
       (0 < x → Rounded p rm (1 / √x) (fpRsq p rm a)) ∧ (x < 0 → fpRsq p rm a = (fpNaN p, .invalid)) ∧
       (∀ n : ℤ, x = n → Rounded p rm (2 ^ n) (fpExp2 p rm a)) ∧
       (∀ n : ℤ, x = 2 ^ n → n ≠ 0 → Rounded p rm n (fpLog2 p rm a)) ∧ (x < 0 → fpLog2 p rm a = (fpNaN p, .invalid)) ∧
       (x < y → fpPick p false a b = (a, .zero) ∧ fpPick p false b a = (a, .zero) ∧ fpPick p true a b = (b, .zero) ∧
         fpPick p true b a = (b, .zero)))) ∧
   (∀ t ∈ [VType.l4, VType.l8], ∀ (v : FmtV) (a b : Nat), a < 2 ^ t.width → b < 2 ^ t.width →
     (v.log t).mul a b = specLogMul t.width a b ∧ (v.log t).rcp a = specLogRcp t.width a) ∧
   ∀ (f : LogFmt) (c : Nat), f.sgn = true → 1 < f.bits →
     f.mul f.nar c = (f.nar, .invalid) ∧ f.mul c f.nar = (f.nar, .invalid) ∧ f.rcp f.nar = (f.nar, .invalid) ∧
     f.rcp 0 = (f.nar, .invalid) ∧ (c ≠ f.nar → f.mul 0 c = (0, .zero) ∧ f.mul c 0 = (0, .zero)))

/-- R177, R178: VCMP writes every lane's test to its mask, zeros above the lanes, at bound 2: integer lanes by their signed or
natural order; a floating-point lane with a NaN and a log lane with NaR fail every test but ne. VSEL takes every lane from va
or vb by its mask. R179, Table VEC-7: a reduction writes, at bound 10, a register that holds its result in its low bits and
zeros above. The integer sum is that of the active lanes modulo 2 to the 32; the integer maximum and minimum are those of the
active lanes, or the type's minimum or maximum when there is none; no integer reduction raises a flag. The floating-point
results are those of the fixed pairwise tree over the active lanes, with the union of its nodes' flags. -/
def Obligations.CompareAndReduce : Prop :=
  ((∀ (t : VType) (d : Reg3) (k : Cond) (a b : Reg) (s : State),
     let x (i : Nat) := lane t (s.me.readV a) i
     let y (i : Nat) := lane t (s.me.readV b) i
     let p := precOf t
     let f := s.me.fmt.log t
     ∃ u v fl, exec (.vcmp t d k a b) s = .next u ∧ PostsRaise s u 2 [.m d v] fl ∧
       (∀ i, t.lanes ≤ i → v.getLsbD i = false) ∧
       (t.isInt → fl = .zero ∧ ∀ i, i < t.lanes → (v.getLsbD i = true ↔ match k with
         | .eq => x i = y i
         | .ne => x i ≠ y i
         | .lt => (x i).toInt < (y i).toInt
         | .ge => (y i).toInt ≤ (x i).toInt
         | .ltn => (x i).toNat < (y i).toNat
         | .gen => (y i).toNat ≤ (x i).toNat)) ∧
       (t.isFp → (∀ i, i < t.lanes → (fpRead p (x i).toNat).isNaN || (fpRead p (y i).toNat).isNaN →
           v.getLsbD i = (k == .ne)) ∧
         fl = (if (List.range t.lanes).any fun i => fpRead p (x i).toNat == .nan true || fpRead p (y i).toNat == .nan true
           then .invalid else .zero)) ∧
       (t.isLog → fl = .zero ∧ ∀ i, i < t.lanes → ((x i).toNat = f.nar ∨ (y i).toNat = f.nar →
           v.getLsbD i = (k == .ne)) ∧ ((x i).toNat ≠ f.nar → (y i).toNat ≠ f.nar →
           (k = .eq → v.getLsbD i = (f.ord (x i).toNat == f.ord (y i).toNat)) ∧
           (k = .lt → v.getLsbD i = decide (f.ord (x i).toNat < f.ord (y i).toNat))))) ∧
   ∀ (t : VType) (d a b : Reg) (m : Reg3) (s : State),
     ∃ u v, exec (.vsel t d a b m) s = .next u ∧ Posts s u 2 (.v d v) ∧
       Lanes t v (s.me.readV b) (s.me.readM m) fun i => lane t (s.me.readV a) i) ∧
  (∀ (t : VType) (d a : Reg) (m : Reg3) (s : State),
     let x (i : Nat) : Int := (lane t (s.me.readV a) i).toInt
     let act := actives t (s.me.readM m)
     let nodes : List (Option Nat) := (List.range t.lanes).map fun i =>
       if (s.me.readM m).getLsbD i then some (lane t (s.me.readV a) i).toNat else none
     let fp (f : Nat → Nat → Flagged Nat) (unit : Nat) (u : State) : Prop :=
       let r := tree f t.lanes.log2 nodes
       PostsRaise s u 10 [.v d (BitVec.ofNat 4096 ((r.1.headD none).getD unit))] r.2
     (t.isInt → ∃ u, exec (.vreds t d a m) s = .next u ∧
       Posts s u 10 (.v d ((BitVec.ofInt 32 (act.map x).sum).setWidth 4096))) ∧
     (t.isInt → ∃ u v, exec (.vredx t d a m) s = .next u ∧ Posts s u 10 (.v d ((BitVec.ofInt 32 v).setWidth 4096)) ∧
       (act = [] → v = -(2 ^ (t.width - 1))) ∧ (act ≠ [] → (∃ i ∈ act, v = x i) ∧ ∀ i ∈ act, x i ≤ v)) ∧
     (t.isInt → ∃ u v, exec (.vredn t d a m) s = .next u ∧ Posts s u 10 (.v d ((BitVec.ofInt 32 v).setWidth 4096)) ∧
       (act = [] → v = 2 ^ (t.width - 1) - 1) ∧ (act ≠ [] → (∃ i ∈ act, v = x i) ∧ ∀ i ∈ act, v ≤ x i)) ∧
     (t.isFp → (∃ u, exec (.vreds t d a m) s = .next u ∧ fp (fpAdd (precOf t) s.me.fmt.mode) (fpZero (precOf t) false) u) ∧
       (∃ u, exec (.vredx t d a m) s = .next u ∧ fp (fpPick (precOf t) true) (fpInf (precOf t) true) u) ∧
       ∃ u, exec (.vredn t d a m) s = .next u ∧ fp (fpPick (precOf t) false) (fpInf (precOf t) false) u))

/-! ### Class X -/

/-- R180, R182, R148: where every active element is aligned and in the scratchpad, VLD and VGTH write a register whose active
lanes are the elements at their addresses, at bounds 6 and 12; VST and VSCT of lanes of a byte or more leave writes at bound 1
after which each byte holds the highest lane's that names it and every other byte stays. Else they trap on the first failing
element in lane order, by alignment and then by range, with its address. R180, R167: a unit-stride VST of a 4-bit type writes
the nibbles of its active lanes: each stands in its half of the byte at its address, and every nibble that no active lane
names keeps its value. -/
def Obligations.VectorMemory : Prop :=
  (∀ (t : VType) (v b g : Reg) (m : Reg3) (ext : List LWord) (s : State),
     let act := s.me.readM m
     (ElementsOk t act (specAddr t s b g ext) → ∃ u x, exec (.vld t v b g m ext) s = .next u ∧ Posts s u 6 (.v v x) ∧
       Lanes t x (s.me.readV v) act fun i => BitVec.ofNat t.width (specElement t s.myTile (specAddr t s b g ext i) i)) ∧
     (ElementsOk t act (specIndex t s b g) → ∃ u x, exec (.vgth t v b g m) s = .next u ∧ Posts s u 12 (.v v x) ∧
       Lanes t x (s.me.readV v) act fun i => BitVec.ofNat t.width (specElement t s.myTile (specIndex t s b g i) i)) ∧
     (8 ≤ t.width → ElementsOk t act (specAddr t s b g ext) → ∃ u, exec (.vst t v b g m ext) s = .next u ∧
       StoresLanes s u t (s.me.readV v) act (specAddr t s b g ext)) ∧
     (8 ≤ t.width → ElementsOk t act (specIndex t s b g) → ∃ u, exec (.vsct t v b g m) s = .next u ∧
       StoresLanes s u t (s.me.readV v) act (specIndex t s b g)) ∧
     (∀ i c, s.bun.checked = false → FirstBad t act (specAddr t s b g ext) i c →
       exec (.vld t v b g m ext) s = .next (s.trapHere c (some (specAddr t s b g ext i)) none) ∧
       exec (.vst t v b g m ext) s = .next (s.trapHere c (some (specAddr t s b g ext i)) none)) ∧
     ∀ i c, s.bun.checked = false → FirstBad t act (specIndex t s b g) i c →
       exec (.vgth t v b g m) s = .next (s.trapHere c (some (specIndex t s b g i)) none) ∧
       exec (.vsct t v b g m) s = .next (s.trapHere c (some (specIndex t s b g i)) none)) ∧
  (∀ (t : VType) (v b : Reg) (m : Reg3) (ext : List LWord) (s : State),
     t.width = 4 → s.myTile.pairs = [] → s.myTile.scratch.wf = true →
     (specAddr t s b 0 ext 0).toNat + 512 ≤ 0x200000 →
     ∃ u ws, exec (.vst t v b 0 m ext) s = .next u ∧ PostsAll s u 1 ws ∧
       (∀ i, i < t.lanes → (s.me.readM m).getLsbD i = true →
         ((afterWrites s.myTile.scratch ws).read (specAddr t s b 0 ext i).toNat).extractLsb' (4 * (i % 2)) 4 =
           laneAt 4 (s.me.readV v) i) ∧
       (∀ i, i < t.lanes → (s.me.readM m).getLsbD i = false →
         ((afterWrites s.myTile.scratch ws).read (specAddr t s b 0 ext i).toNat).extractLsb' (4 * (i % 2)) 4 =
           (s.myTile.scratch.read (specAddr t s b 0 ext i).toNat).extractLsb' (4 * (i % 2)) 4) ∧
       ∀ x, (∀ i, i < t.lanes → (specAddr t s b 0 ext i).toNat ≠ x) →
         (afterWrites s.myTile.scratch ws).read x = s.myTile.scratch.read x)

/-- R183 to R187: the register moves of class X, each at its bound: VBC, VIOTA, VPRM and VEXT fill the active lanes; VPUT sets
one lane and keeps the others, VGET reads one; VTRP transposes blocks of eight lanes over eight registers; VCMPR packs the
selected lanes of va before lanes of vb; VMOVM copies between a mask and the low bits of a register. R188 to R191, R64, R72:
VCVT converts the lanes that both types have, and keeps the others; VQNT writes the codes and the scales of its blocks of 32,
VDQNT the values of codes under their blocks' scales; each raises the union of its lanes' flags; VRND writes the kindling
generator's words. R62 to R64, R189 (Table NUM-6): for every pair of types, a converted value is the exact one, rounded as its
target rounds, and saturated or clamped with its flag; the scale of a block puts its largest magnitude at the top code, and a
quantised element is the code of its exponent less the scale's. (The value of a code under a scale is stated for scales of
whole sixteenths of an octave; the others are rounded from long expansions: log 18.) -/
def Obligations.MoveAndConvert : Prop :=
  (∀ (t : VType) (d a b : Reg) (m : Reg3) (l : BitVec 8) (ext : List LWord) (g : BitVec 3) (s : State),
     let act := s.me.readM m
     (∃ u x, exec (.vbc t d a m) s = .next u ∧ Posts s u 2 (.v d x) ∧
       Lanes t x (s.me.readV d) act fun _ => (s.me.readG a).setWidth t.width) ∧
     (∃ u x, exec (.viota t d a m) s = .next u ∧ Posts s u 2 (.v d x) ∧
       Lanes t x (s.me.readV d) act fun i => BitVec.ofNat t.width ((s.me.readG a).toNat + i)) ∧
     (∃ u x, exec (.vprm t d a b m) s = .next u ∧ Posts s u 4 (.v d x) ∧
       Lanes t x (s.me.readV d) act fun i => lane t (s.me.readV a) ((lane t (s.me.readV b) i).toNat % t.lanes)) ∧
     (∃ u x, exec (.vext t d a b m) s = .next u ∧ Posts s u 4 (.v d x) ∧
       Lanes t x (s.me.readV d) act fun i =>
         if i < t.lanes / 2 then lane t (s.me.readV a) i else lane t (s.me.readV b) (i - t.lanes / 2)) ∧
     (laneOk t l ext = true → ∃ u, exec (.vget t d a l ext) s = .next u ∧ Posts s u 2 (.g d
       (if t.isInt then BitVec.ofInt 64 (lane t (s.me.readV a) (laneValue l ext)).toInt
        else BitVec.ofNat 64 (lane t (s.me.readV a) (laneValue l ext)).toNat))) ∧
     (laneOk t l ext = true → ∃ u x, exec (.vput t d a l ext) s = .next u ∧ Posts s u 2 (.v d x) ∧ ∀ i, i < t.lanes →
       lane t x i = if i = laneValue l ext then (s.me.readG a).setWidth t.width else lane t (s.me.readV d) i) ∧
     (g.toNat < 4 → ∃ (u : State) (vs : List VWord), exec (.vtrp t g) s = .next u ∧
       PostsAll s u 8 ((List.range 8).map fun r => .v (BitVec.ofNat 5 (8 * g.toNat + r)) (vs.getD r 0)) ∧
       ∀ k r c, k < t.lanes / 8 → r < 8 → c < 8 → lane t (vs.getD r 0) (8 * k + c) =
         lane t (s.me.readV (BitVec.ofNat 5 (8 * g.toNat + c))) (8 * k + r)) ∧
     (∃ u x, exec (.vcmpr t d a b m) s = .next u ∧ Posts s u 4 (.v d x) ∧ ∀ j, j < t.lanes →
       lane t x j = match (actives t act)[j]? with | some i => lane t (s.me.readV a) i | none => lane t (s.me.readV b) j) ∧
     (∃ u x, exec (.vmovm false d m) s = .next u ∧ Posts s u 2 (.v d x) ∧
       ∀ j, x.getLsbD j = (decide (j < 1024) && act.getLsbD j)) ∧
     ∃ u x, exec (.vmovm true d m) s = .next u ∧ Posts s u 2 (.m m x) ∧
       ∀ j, j < 1024 → x.getLsbD j = (s.me.readV d).getLsbD j) ∧
  (∀ (c t : VType) (d a e k b : Reg) (r : Rnd) (m : Reg3) (bf : Bool) (s : State),
     let act := s.me.readM m
     let p : VType := if bf then .bf16 else .f32
     let f := s.me.fmt.log t
     let block (j : Nat) : List Nat := (List.range 32).map fun i => (lane p (s.me.readV a) (32 * j + i)).toNat
     let conv (i : Nat) := convLane s.me.fmt c t r (lane c (s.me.readV a) i).toNat
     let q (i : Nat) := f.quantise (precOf p) (f.blockExp (precOf p) (block (i / 32))) (lane p (s.me.readV a) i).toNat
     let dq (i : Nat) := f.dequantise (precOf p) (laneAt 32 (s.me.readV e) (i / 32)) (lane t (s.me.readV a) i).toNat
     (∃ u x, exec (.vcvt c d a t r m) s = .next u ∧ PostsRaise s u 4 [.v d x] (unionFlags
         (((List.range (min c.lanes t.lanes)).filter fun i => act.getLsbD i).map fun i => (conv i).2)) ∧
       ∀ i, i < t.lanes → lane t x i =
         if i < min c.lanes t.lanes ∧ act.getLsbD i = true then BitVec.ofNat t.width (conv i).1 else lane t (s.me.readV d) i) ∧
     (t.isLog → ∃ u x y, exec (.vqnt t d a e bf) s = .next u ∧ PostsRaise s u 8 [.v d x, .v e y]
         (unionFlags ((List.range p.lanes).map fun i => (q i).2)) ∧
       (∀ i, i < t.lanes → lane t x i = if i < p.lanes then BitVec.ofNat t.width (q i).1 else lane t (s.me.readV d) i) ∧
       ∀ j, j < 128 → laneAt 32 y j = if j < p.lanes / 32 then f.blockScale (f.blockExp (precOf p) (block j))
         else laneAt 32 (s.me.readV e) j) ∧
     (t.isLog → ∃ u x, exec (.vdqnt t d a e bf) s = .next u ∧ PostsRaise s u 6 [.v d x]
         (unionFlags ((List.range p.lanes).map fun i => (dq i).2)) ∧
       ∀ i, i < p.lanes → lane p x i = BitVec.ofNat p.width (dq i).1) ∧
     ∃ u x, exec (.vrnd d k b m) s = .next u ∧ Posts s u 8 (.v d x) ∧ ∀ i, i < 128 → laneAt 32 x i =
       if act.getLsbD i then kindle (s.me.readG k) (s.me.readG b + BitVec.ofNat 64 i) else laneAt 32 (s.me.readV d) i) ∧
  (∀ k c : DWord, (kindle k c).toNat = specKindle k.toNat c.toNat) ∧
  (∀ (c t : VType) (rm : Rnd) (v : FmtV) (x : Nat), c ≠ t → x < 2 ^ c.width → v.l4f ≠ 3 → v.l8f ≠ 3 →
     let r := convLane v c t rm x
     let i := (BitVec.ofNat c.width x).toInt
     let p := precOf c
     let p' := precOf t
     let F (t : VType) := if t = .l4 then v.l4f.toNat else v.l8f.toNat + 2
     let neg : Bool := 2 ^ (c.width - 1) ≤ x
     let nar := 2 ^ (c.width - 1)
     let toInt (y : ℝ) : Prop := ∃ n : ℤ, RoundsTo rm y n ∧ (BitVec.ofNat t.width r.1).toInt = specSat t.width n ∧
       (specSat t.width n ≠ n → r.2 = .invalid) ∧
       (specSat t.width n = n → { r.2 with nx := false } = .zero ∧ (r.2.nx = true ↔ (n : ℝ) ≠ y))
     let toLog (y : ℝ) : Prop := ∃ e : ℤ, RoundsLog rm neg (y * 2 ^ F t) e ∧ r = logCode t.width neg e
     (c.isInt → t.isInt → (BitVec.ofNat t.width r.1).toInt = specSat t.width i ∧
       r.2 = if specSat t.width i = i then .zero else .clamp) ∧
     (c.isInt → t.isFp → (i = 0 → r = (0, .zero)) ∧ (i ≠ 0 → Rounded p' rm i r)) ∧
     (c.isInt → t.isLog → (i = 0 → r = (0, .zero)) ∧ (i ≠ 0 → toLog (Real.logb 2 |(i : ℝ)|))) ∧
     (c.isFp → codeFinite p x → let y := codeVal p x
       (t.isInt → toInt y) ∧
       (t.isFp → (y = 0 → r = (fpZero p' (codeNeg p x), .zero)) ∧ (y ≠ 0 → Rounded p' rm y r)) ∧
       (t.isLog → (y = 0 → r = (0, .zero)) ∧ (y ≠ 0 → toLog (Real.logb 2 |(y : ℝ)|)))) ∧
     (c.isFp → ¬codeFinite p x → let inf := x % 2 ^ (p - 1) = 0
       (t.isInt → r.2 = .invalid ∧ (¬inf → r.1 = 0) ∧
         (inf → (BitVec.ofNat t.width r.1).toInt = if codeNeg p x then -(2 ^ (t.width - 1)) else 2 ^ (t.width - 1) - 1)) ∧
       (t.isFp → (inf → r = (fpInf p' (codeNeg p x), .zero)) ∧
         (¬inf → r = (fpNaN p', if x / 2 ^ (p - 2) % 2 = 0 then .invalid else .zero))) ∧
       (t.isLog → r = (2 ^ (t.width - 1), .invalid))) ∧
     (c.isLog → (x = 0 → r = (0, .zero)) ∧
       (x = nar → r = if t.isInt then (0, .invalid) else if t.isFp then (fpNaN p', .zero) else (2 ^ (t.width - 1), .zero)) ∧
       (x ≠ 0 → x ≠ nar → (t.isLog → toLog ((logExp c.width x : ℝ) / 2 ^ F c)) ∧
         ∀ y : ℝ, LogIs c.width (F c) x y → (t.isInt → toInt y) ∧ (t.isFp → Rounded p' rm y r)))) ∧
  (∀ (t : VType) (bf : Bool) (v : FmtV) (l : List Nat) (s : Word) (c : Nat), t.isLog → v.l4f ≠ 3 → v.l8f ≠ 3 →
     let p := if bf then 8 else 24
     let f := v.log t
     let F := if t = .l4 then v.l4f.toNat else v.l8f.toNat + 2
     let nar := 2 ^ (t.width - 1)
     ((∀ a ∈ l, codeFinite p a → codeVal p a = 0) → f.blockExp p l = none) ∧
     (∀ M : ℚ, 0 < M → (∃ a ∈ l, codeFinite p a ∧ |codeVal p a| = M) → (∀ a ∈ l, codeFinite p a → |codeVal p a| ≤ M) →
       f.blockExp p l = some (⌈Real.logb 2 M * 2 ^ F⌉ - (2 ^ (t.width - 2) - 1))) ∧
     (∀ e : ℤ, f.blockScale none = 0x80000000 ∧ f.blockScale (some e) = BitVec.ofInt 32 (e * 2 ^ (16 - F))) ∧
     (∀ (a : Nat) (o : Option ℤ), (¬codeFinite p a → f.quantise p o a = (nar, .invalid)) ∧
       (codeFinite p a → codeVal p a = 0 ∨ o = none → f.quantise p o a = (0, .zero)) ∧
       ∀ e : ℤ, o = some e → codeFinite p a → codeVal p a ≠ 0 → ∃ n : ℤ,
         RoundsLog .rne (codeNeg p a) (Real.logb 2 |(codeVal p a : ℝ)| * 2 ^ F - e) n ∧
         f.quantise p o a = logCode t.width (codeNeg p a) n) ∧
     (c < 2 ^ t.width → (s = 0x80000000 → f.dequantise p s c = (if c = nar then fpNaN p else 0, .zero)) ∧
       (s ≠ 0x80000000 → (c = 0 → f.dequantise p s c = (0, .zero)) ∧ (c = nar → f.dequantise p s c = (fpNaN p, .zero)) ∧
         (c ≠ 0 → c ≠ nar → s.toInt % 4096 = 0 →
           ∀ y : ℝ, LogIs t.width F c y → Rounded p .rne (y * 2 ^ ((s.toInt : ℝ) / 65536)) (f.dequantise p s c)))))

/-! ### Classes A and K, the array -/

/-- R199, R71, R201, R207, R208: AFMT writes the format field, which its strand sees from its third bundle on and the others
from the third cc on; ASWP exchanges the banks with their records where the weight and the stream slot are free; AGNG sets
CHAIN where the stream slot is free, and chains only in gang mode; ASTA writes the status to a0 at bound 2 and may clear the
flags. An occupied slot is a schedule-fault trap. R209, R195: a K word gives its latch the low 32 bits of ga plus its
immediate: the row that enters three cc later, and every later one, uses it, while what samples the latches in this cc still
finds the former value. KSW names one column or every column; KCLR clears every latch. Nothing else changes. -/
def Obligations.ArrayRegisters : Prop :=
  (∀ (aw sg ww ws ch clr : Bool) (af wf ns sp : BitVec 2) (s : State),
     (s.det = false ∨ sp = 0 → ∃ t, exec (.afmt aw af sg ww wf ws ns sp) s = .next t ∧ OnlyTilePart s t s.bun.tile ∧
       { t.myTile with fmtALog := s.myTile.fmtALog } = s.myTile ∧
       ∀ (y : Tile) (k cc : Nat), y.fmtALog = t.myTile.fmtALog → y.fmt k cc =
         if (if k = s.bun.strand then s.me.bundles + 3 ≤ (y.strand k).bundles else s.cc + 3 ≤ cc)
         then ⟨aw, af, sg, ww, wf, ws, ns, sp⟩ else ({ y with fmtALog := s.myTile.fmtALog } : Tile).fmt k cc) ∧
     (s.myTile.wFree ≤ s.cc → s.myTile.sFree ≤ s.cc → ∃ t, exec .aswp s = .next t ∧ OnlyTilePart s t s.bun.tile ∧
       { s.myTile with bankA := s.myTile.bankS, bankS := s.myTile.bankA, wFree := s.cc + 1 } = t.myTile) ∧
     (s.bun.checked = false → s.cc < s.myTile.wFree ∨ s.cc < s.myTile.sFree →
       exec .aswp s = .next (s.trapHere .schedule none none)) ∧
     (s.myTile.sFree ≤ s.cc → (ch = true → s.me.gang = .ganged) →
       ∃ t, exec (.agng ch) s = .next t ∧ OnlyTilePart s t s.bun.tile ∧ { s.myTile with chain := ch } = t.myTile) ∧
     (s.bun.checked = false → s.me.gang ≠ .ganged → exec (.agng true) s = .next (s.trapHere .gangState none none)) ∧
     (s.bun.checked = false → s.cc < s.myTile.sFree → exec (.agng false) s = .next (s.trapHere .schedule none none)) ∧
     ∃ t v, exec (.asta clr) s = .next t ∧
       (∃ u, Posts s u 2 (.stg .array 0 v) ∧ t = if clr then u.onMyTile fun x => { x with flagsA := .zero } else u) ∧
       v.extractLsb' 32 32 = s.myTile.arrDone ∧ v.getLsbD 23 = s.myTile.chain ∧
       v.getLsbD 8 = decide (s.cc < s.myTile.wFree) ∧ v.getLsbD 7 = decide (s.cc < s.myTile.sFree) ∧
       v.getLsbD 6 = decide (s.cc < s.myTile.dFree) ∧ v.getLsbD 2 = s.myTile.flagsA.cl ∧
       v.getLsbD 1 = s.myTile.flagsA.ov ∧ v.getLsbD 0 = s.myTile.flagsA.nv ∧
       v.extractLsb' 16 6 = ((BitVec.ofBool s.myTile.bankA.fmt.ww ++ s.myTile.bankA.fmt.wf) ++
         (BitVec.ofBool s.myTile.bankA.fmt.ws ++ s.myTile.bankA.fmt.sp) : BitVec 6)) ∧
  (∀ (a : Reg) (i : BitVec 19) (j : BitVec 12) (c : BitVec 7) (ext : List LWord) (s : State),
     let takes (l l' : Latch) (v : Word) : Prop :=
       l'.last = v ∧ (∀ cc, s.cc + 3 ≤ cc → l'.at cc = v) ∧ l'.at s.cc = l.at s.cc
     (∃ t, exec (.ksa a i ext) s = .next t ∧ OnlyTilePart s t s.bun.tile ∧
       { t.myTile with actL := s.myTile.actL } = s.myTile ∧
       takes s.myTile.actL t.myTile.actL ((s.me.readG a + imm i ext).setWidth 32)) ∧
     (∃ t, exec (.kso a i ext) s = .next t ∧ OnlyTilePart s t s.bun.tile ∧
       { t.myTile with outL := s.myTile.outL } = s.myTile ∧
       takes s.myTile.outL t.myTile.outL ((s.me.readG a + imm i ext).setWidth 32)) ∧
     (∃ t, exec (.ksw a c j ext) s = .next t ∧ OnlyTilePart s t s.bun.tile ∧
       { t.myTile with colL := s.myTile.colL } = s.myTile ∧ ∀ n, n < 96 →
         if c = 127 ∨ c.toNat = n then takes (s.myTile.col n) (t.myTile.col n) ((s.me.readG a + imm j ext).setWidth 32)
         else t.myTile.col n = s.myTile.col n) ∧
     ∃ t, exec .kclr s = .next t ∧ OnlyTilePart s t s.bun.tile ∧
       { t.myTile with actL := s.myTile.actL, outL := s.myTile.outL, colL := s.myTile.colL } = s.myTile ∧
       takes s.myTile.actL t.myTile.actL 0 ∧ takes s.myTile.outL t.myTile.outL 0 ∧
       ∀ n, takes (s.myTile.col n) (t.myTile.col n) 0)

/-- R36, R197, R200, R202, R205, R206: WLD, STRM, DRN and ACLR, with rows that fit and their slot free, put their command in
flight with the staging, the format and the latches of this cc, and occupy their slot for a cc per beat. An occupied slot,
and a misaligned base, is a trap before the bundle issues. -/
def Obligations.ArrayCommandWords : Prop :=
  ∀ (n : BitVec 12) (f7 : BitVec 7) (f : BitVec 8) (zr : Bool) (o : DrnFmt) (s : State),
    let a := s.arrStg
    let beats := n.toNat + 1
    let panel := s.det = false ∨ s.me.gang = .ganged
    (panel → s.myTile.wFree ≤ s.cc → RowsFit (lo32 a[1]) (lo32 a[2]) beats (masterBytes s.fmtA.record) →
      (s.fmtA.sp ≠ 0 → RowsFit (hi32 a[1]) (indexBytes s.fmtA.record) beats (indexBytes s.fmtA.record)) →
      ∃ t c, exec (.wld n f7) s = .next t ∧ ArrayStarts s t c .wld beats f7.toNat (.wldBeat s.bun.tile 0) ∧
        c.addr = lo32 a[1] ∧ c.pitch = lo32 a[2] ∧ c.idx = hi32 a[1] ∧
        (∀ k, k < 96 → SMap.get 0 c.cols k = (s.myTile.col k).at s.cc) ∧ t.myTile.wFree = s.cc + beats ∧
        t.myTile.bankS = { s.myTile.bankS with fmt := s.fmtA.record } ∧ t.myTile.bankA = s.myTile.bankA ∧
        t.myTile.sFree = s.myTile.sFree ∧ t.myTile.dFree = s.myTile.dFree ∧ t.myTile.acc = s.myTile.acc) ∧
    (panel → s.myTile.sFree ≤ s.cc → RowsFit (lo32 a[3]) (hi32 a[3]) (if ringOf a = 0 then beats else min beats (ringOf a))
        (actBytes s.fmtA s.myTile.bankA.fmt) →
      ∃ t c, exec (.strm n f) s = .next t ∧ ArrayStarts s t c .strm beats f.toNat (.strmBeat s.bun.tile 0) ∧
        c.addr = lo32 a[3] ∧ c.pitch = hi32 a[3] ∧ c.ring = ringOf a ∧ c.chain = s.myTile.chain ∧
        c.cred = (if a[5].getLsbD 16 then some (a[5].extractLsb' 40 24).toNat else none) ∧
        t.myTile.sFree = s.cc + beats ∧ t.myTile.wFree = s.myTile.wFree ∧ t.myTile.dFree = s.myTile.dFree ∧
        t.myTile.acc = s.myTile.acc ∧
        (s.myTile.chain = false → c.final = s.cc + beats + 196 ∧
          (keyOf (s.cc + beats + 196) 4, Event.strmRowsFinal s.bun.tile c.id) ∈ t.agenda)) ∧
    (s.myTile.dFree ≤ s.cc → RowsFit (lo32 a[4]) (hi32 a[4]) beats (outBytes s.fmtA o) →
      ∃ t c, exec (.drn n zr o f) s = .next t ∧ ArrayStarts s t c (.drn zr o) beats f.toNat (.drnBeat s.bun.tile 0) ∧
        c.addr = lo32 a[4] ∧ c.pitch = hi32 a[4] ∧ c.so = s.myTile.outL.at s.cc ∧ t.myTile.dFree = s.cc + beats ∧
        t.myTile.wFree = s.myTile.wFree ∧ t.myTile.sFree = s.myTile.sFree ∧ t.myTile.acc = s.myTile.acc ∧
        (keyOf (s.cc + beats + 8) 4, Event.drnOutputFinal s.bun.tile c.id) ∈ t.agenda) ∧
    (s.myTile.dFree ≤ s.cc → ∃ t c, exec (.aclr n f) s = .next t ∧
      ArrayStarts s t c .aclr beats f.toNat (.aclrBeat s.bun.tile 0) ∧ t.myTile.dFree = s.cc + beats ∧
      t.myTile.wFree = s.myTile.wFree ∧ t.myTile.sFree = s.myTile.sFree ∧ t.myTile.acc = s.myTile.acc) ∧
    (s.bun.checked = false → s.cc < s.myTile.dFree → exec (.aclr n f) s = .next (s.trapHere .schedule none none)) ∧
    (s.bun.checked = false → lo32 a[4] % 16 ≠ 0 →
      exec (.drn n zr o f) s = .next (s.trapHere .align (some (BitVec.ofNat 64 (lo32 a[4]))) none)) ∧
    (s.bun.checked = false → lo32 a[4] % 16 = 0 → 0x200000 < lo32 a[4] + outBytes s.fmtA o → (1 < beats → hi32 a[4] % 16 = 0) →
      exec (.drn n zr o f) s = .next (s.trapHere .scratchRange (some (BitVec.ofNat 64 (max (lo32 a[4]) 0x200000))) none))

/-- R54, R56, R57, R61, R65: a term with a zero operand or a zero scale is zero; NaR raises NV and gives its substitute against
a nonzero partner; any other term is the entry of T at its exponent, shifted, truncated or saturated, and then signed, so that
equal magnitudes of opposite signs cancel. A weight of the zero scale loads as zero and NaR as NaR; any other is its master's
exponent less the scale's, rounded to the nearest, even on a tie, and clamped. Zero drains as zero; an entry under a scale that
is a power of two drains to floating point as its exact value, rounded once, with OF alone of the flags; an entry that is a
power of two drains to a log code as its exponent, rounded so; a negative one to an unsigned reading as zero with CL. -/
def Obligations.ArrayArithmetic : Prop :=
  (∀ (fa fw : LogFmt) (a w : Nat) (sa sw : Word) (ns : BitVec 2),
    let z := a = 0 ∨ w = 0 ∨ sa = zeroScale ∨ sw = zeroScale
    let t := productTerm fa a fw w sa sw ns
    ((a = fa.nar ∨ w = fw.nar) → t.fl = ⟨false, false, true⟩ ∧
      t.val = (if z then 0 else if ns = 1 then 2 ^ 62 - 1 else if ns = 2 then -(2 ^ 62 - 1) else 0) ∧
      (t.nar = true ↔ ¬z ∧ ns = 3)) ∧
    (a ≠ fa.nar → w ≠ fw.nar → z → t.val = 0 ∧ t.fl = .zero ∧ t.nar = false) ∧
    (a ≠ fa.nar → w ≠ fw.nar → t.fl.nv = false ∧ t.fl.cl = false ∧ t.nar = false ∧ t.val.natAbs < 2 ^ 63) ∧
    (a ≠ fa.nar → w ≠ fw.nar → ¬z → t.fl.ov = true → t.val.natAbs = 2 ^ 62 - 1) ∧
    (a ≠ fa.nar → w ≠ fw.nar → ¬z → if (fa.neg a != fw.neg w) then t.val ≤ 0 else 0 ≤ t.val)) ∧
  (∀ (fa fw : LogFmt) (a w : Nat) (sa sw : Word) (ns : BitVec 2), ArrayFmt fa → ArrayFmt fw → a < 2 ^ fa.bits → w < 2 ^ fw.bits →
    a ≠ 0 → w ≠ 0 → a ≠ codeTop fa + 1 → w ≠ codeTop fw + 1 → sa ≠ 0x80000000 → sw ≠ 0x80000000 →
    let m := specMag (max fa.F fw.F) (specP fa a fw w sa sw)
    let t := productTerm fa a fw w sa sw ns
    t.val = (if codeMinus fa a != codeMinus fw w then -(m.1 : ℤ) else m.1) ∧ t.fl = ⟨false, m.2, false⟩ ∧ t.nar = false ∧
    (fw.sgn = true → ∀ w', w' < 2 ^ fw.bits → codeM fw w' = codeM fw w → w' ≠ w →
      (productTerm fa a fw w' sa sw ns).val = -t.val)) ∧
  (∀ (f : LogFmt) (sw : Word) (w : Nat),
    weightRound 0x8000 f sw = (f.nar, ⟨false, false, true⟩) ∧ weightRound 0 f sw = (0, .zero) ∧
    (w ≠ 0x8000 → weightRound w f zeroScale = (0, .zero))) ∧
  (∀ (f : LogFmt) (sw : Word) (w : Nat), ArrayFmt f → w < 65536 → w ≠ 0 → w ≠ 0x8000 → sw ≠ 0x80000000 →
    weightRound w f sw = if f.sgn = false ∧ 0x8000 < w then (0, ⟨true, false, false⟩)
      else clampCode f (0x8000 < w) (roundNe (((((w % 0x8000 : Nat) : ℤ) - 16384) * 256 - sw.toInt : ℤ) / 2 ^ (16 - f.F)))) ∧
  (∀ (x : DWord) (so : Word) (f : FmtA) (o : DrnFmt),
    drainConvert 0 so f o = (0, .zero) ∧ drainConvert x zeroScale f o = (0, .zero)) ∧
  ∀ (x : DWord) (so : Word) (f : FmtA), x ≠ 0 → so ≠ 0x80000000 →
    (∀ o ∈ [DrnFmt.f32, .bf16], so.toInt % 65536 = 0 → ∃ r, Rounded (if o = .f32 then 24 else 8) .rne
      ((x.toInt : ℝ) * 2 ^ (-30 + so.toInt / 65536 : ℤ)) r ∧ drainConvert x so f o = (r.1, ⟨false, r.2.ov, false⟩)) ∧
    (f.sgn = false → x.toInt < 0 → drainConvert x so f .log = (0, ⟨true, false, false⟩)) ∧
    ∀ j : Nat, f.af ≠ 3 → x.toInt.natAbs = 2 ^ j → (f.sgn = true ∨ 0 < x.toInt) → drainConvert x so f .log =
      clampCode f.act (x.toInt < 0) (roundNe (((j : ℤ) * 65536 + so.toInt - 30 * 65536 : ℤ) / 2 ^ (16 - f.act.F)))

/-- R200, R202, R205, R206 (Table ARR-2): the beats of array commands. Beat b of WLD fills its row of the shadow bank with
the rounded weights and indices of its master row; beat b of an unchained STRM adds to each column of its accumulator row,
modulo 2^64, the terms of its activation row; beat b of DRN converts its row, and clears it if asked; beat b of ACLR clears
its row. Each raises its flags, leaves every other cell and entry as it was, and is followed by the next beat one cc later. -/
def Obligations.ArrayBeats : Prop :=
  ∀ (n b : Nat) (c : ArrCmd) (s : State), b < c.beats →
    let x := s.tile n
    let row := c.first + b
    (x.beatOf (· == .wld) s.cc b = some c → ∃ t, exec (.wldBeat n b) s = .next t ∧
      (∃ slot, (keyOf (s.cc + 1) slot, Event.wldBeat n (b + 1)) ∈ t.agenda) ∧ (t.tile n).bankA = x.bankA ∧
      (t.tile n).bankS.fmt = x.bankS.fmt ∧ (t.tile n).acc = x.acc ∧
      let r := c.fmt.record
      let w (k h : Nat) := weightRound (leNat (((s.engReadSince n (c.addr + b * c.pitch) (masterBytes r) c.start).drop
        (2 * (k * r.wpc + h))).take 2)) r.wgt (SMap.get 0 c.cols k)
      let i (k h : Nat) : BitVec 3 := if r.sp = 0 then 0
        else ((s.engReadSince n (c.idx + b * indexBytes r) (indexBytes r) c.start).getD (k * r.wpc + h) 0).setWidth 3
      (∀ k, k < 96 → let old := SMap.get Cell.zero x.bankS.cells (96 * row + k)
        SMap.get Cell.zero (t.tile n).bankS.cells (96 * row + k) = ⟨BitVec.ofNat 8 (w k 0).1,
          if r.ww then BitVec.ofNat 8 (w k 1).1 else old.c1, i k 0, if r.ww then i k 1 else old.i1⟩) ∧
      (∀ k, (k < 96 * row ∨ 96 * row + 96 ≤ k) →
        SMap.get Cell.zero (t.tile n).bankS.cells k = SMap.get Cell.zero x.bankS.cells k) ∧
      (t.tile n).flagsA = x.flagsA.or (unionEng ((List.range 96).flatMap fun k =>
        (List.range r.wpc).map fun h => (w k h).2))) ∧
    (x.beatOf (· == .strm) s.cc b = some c → c.chain = false → ∃ t, exec (.strmBeat n b) s = .next t ∧
      (keyOf (s.cc + 1) slotBeat, Event.strmBeat n (b + 1)) ∈ t.agenda ∧
      let bytes := s.engReadSince n (c.addr + (if c.ring = 0 then b else b % c.ring) * c.pitch) (actBytes c.fmt x.bankA.fmt) c.start
      (∀ k, k < 96 → SMap.get 0 (t.tile n).acc (96 * row + k) =
        SMap.get 0 x.acc (96 * row + k) + BitVec.ofInt 64 ((specTerms x c bytes k).map (·.val)).sum) ∧
      (∀ k, (k < 96 * row ∨ 96 * row + 96 ≤ k) → SMap.get 0 (t.tile n).acc k = SMap.get 0 x.acc k) ∧
      (t.tile n).flagsA = x.flagsA.or (unionEng ((List.range 96).flatMap fun k => (specTerms x c bytes k).map (·.fl))) ∧
      (∀ id, c.cred = some id → ∃ k, s.cc * 65536 < k ∧ k ≤ keyOf (s.cc + 64) (slotArray n) ∧
        (k, Event.counterAdd (dieOf n) id 1 (.credit c.org)) ∈ t.agenda)) ∧
    (∀ z o, x.beatOf (fun o => match o with | .drn .. => true | _ => false) s.cc b = some c → c.op = .drn z o →
      ∃ t, exec (.drnBeat n b) s = .next t ∧ (keyOf (s.cc + 1) slotBeat, Event.drnBeat n (b + 1)) ∈ t.agenda ∧
        let codes := (List.range 96).map fun k => drainConvert (SMap.get 0 x.acc (96 * row + k)) c.so c.fmt o
        { c with out := c.out ++ [(c.addr + b * c.pitch, outRow c.fmt o (codes.map (·.1)))] } ∈ (t.tile n).arr ∧
        (t.tile n).flagsA = x.flagsA.or (unionEng (codes.map (·.2))) ∧
        (∀ k, k < 96 → SMap.get 0 (t.tile n).acc (96 * row + k) = if z then 0 else SMap.get 0 x.acc (96 * row + k)) ∧
        ∀ k, (k < 96 * row ∨ 96 * row + 96 ≤ k) → SMap.get 0 (t.tile n).acc k = SMap.get 0 x.acc k) ∧
    (x.beatOf (· == .aclr) s.cc b = some c → ∃ t, exec (.aclrBeat n b) s = .next t ∧
      (∃ slot, (keyOf (s.cc + 1) slot, Event.aclrBeat n (b + 1)) ∈ t.agenda) ∧ (t.tile n).flagsA = x.flagsA ∧
      (∀ k, k < 96 → SMap.get 0 (t.tile n).acc (96 * row + k) = 0) ∧
      ∀ k, (k < 96 * row ∨ 96 * row + 96 ≤ k) → SMap.get 0 (t.tile n).acc k = SMap.get 0 x.acc k)

/-- R202, R204, R205, R208, R58, R270: an STRM whose rows are final and a DRN whose output is final leave the array, are
counted in DONE, and are outstanding no more; the DRN's output bytes then hold what its beats converted, in order. A term
that met NaR under NSUB 3 then gives its strand, outside gang mode, an array-NaR fault, and a refused credit an
array-counter fault with its counter. R211: in a panel that still stands, the first NaR of a command is the whole panel's: due
302 cc after the lead's issue and the beats, 402 if it is chained, with PANEL_FOLLOW for the members without one of their own. -/
def Obligations.ArrayCompletion : Prop :=
  ∀ (n id : Nat) (c : ArrCmd) (s : State), (s.tile n).arr.find? (·.id == id) = some c →
    let left (t : State) : Prop :=
      (t.tile n).arr = (s.tile n).arr.filter (·.id != id) ∧ (t.tile n).arrDone = (s.tile n).arrDone + 1 ∧
      (t.strand c.org.tile c.org.strand).outst = (s.strand c.org.tile c.org.strand).outst.filter
        (fun o => !(o.engine == 2 && o.seq == c.org.seq))
    (∃ t, exec (.strmRowsFinal n id) s = .next t ∧ left t ∧ SameBytes s t ∧
      ((s.strand c.org.tile c.org.strand).inPanel 2 c.org.seq = false → ∃ i j : TrapInfo,
        i.cause = .arrayNar ∧ i.engine = 2 ∧ i.seq = c.org.seq ∧
        j.cause = .arrayCounter ∧ j.engine = 2 ∧ j.seq = c.org.seq ∧ j.addr = BitVec.ofNat 64 (c.cred.getD 0) ∧
        (t.strand c.org.tile c.org.strand).faults = (s.strand c.org.tile c.org.strand).faults ++
          (if c.nar then [(s.cc, i)] else []) ++ if c.refused then [(s.cc, j)] else []) ∧
      let x := s.strand c.org.tile c.org.strand
      let k := c.org.tile / 8
      (x.inPanel 2 c.org.seq = true → c.nar = true → c.refused = false →
        (s.strand (8 * k) ((s.cluster k).gangs.headD 0)).gang = .ganged → ∀ p, (s.cluster k).panel = some p →
        (∀ g ∈ p.traps, ¬(g.2.engine = 2 ∧ g.2.seq = x.relSeq 2 c.org.seq)) → ∃ i f : TrapInfo,
          (t.strand c.org.tile c.org.strand).panelTraps = x.panelTraps ++ [i] ∧ i.cause = .arrayNar ∧ i.engine = 2 ∧
          i.seq = c.org.seq ∧ f.cause = .panelFollow ∧ f.engine = 2 ∧ f.seq = x.relSeq 2 c.org.seq ∧
          (t.strand c.org.tile c.org.strand).faults = x.faults ∧ (t.cluster k).panel = some { p with traps :=
            p.traps ++ [(c.start - specSkew c.org.tile + (c.beats + if c.chain then 402 else 302), f)] })) ∧
    ∃ t, exec (.drnOutputFinal n id) s = .next t ∧ left t ∧
      (∀ a, (t.tile n).scratch.read a = (c.out.foldl (fun x o => x.writeBytes o.1 o.2) (s.tile n)).scratch.read a) ∧
      (∀ m, m ≠ n → (t.tile m).scratch = (s.tile m).scratch) ∧ (t.tile n).acc = (s.tile n).acc

/-! ### Class D, the stream engine -/

/-- R112, R113, R132: with room in the tile's queue, a D word puts its command at the end of it, with its staging registers of
this cc, and the engine looks at its queue in this cc; no byte changes. A full queue blocks the bundle. DSTA writes the
status to d0 at bound 2 and may clear FAULTS and LASTCAUSE. -/
def Obligations.StreamCommandWords : Prop :=
  ∀ (k : Cmpl) (shd clr : Bool) (src dst : DSpace) (pair : BitVec 3) (s : State),
    (∀ r ∈ [(Instr.dcpy k shd src dst, SOp.dcpy), (.dunf k shd src dst, .dunf), (.dfil k shd src dst, .dfil),
        (.dgth k shd src dst, .dgth), (.dpubInit k pair, .dpub true pair.toNat), (.dpub k pair, .dpub false pair.toNat)],
      (s.myTile.sq.length < 16 → ∃ t c, exec r.1 s = .next t ∧
        OnlyTileOf { s with fresh := t.fresh, launches := t.launches } t s.bun.tile ∧ SameLaunches s t ∧
        Numbers s t 3 false ∧ SameBytes s t ∧
        { t.myTile with sq := s.myTile.sq, sNext := s.myTile.sNext, strands := s.myTile.strands } = s.myTile ∧
        (keyOf s.cc slotStart, Event.streamCommandStart s.bun.tile) ∈ t.agenda ∧ t.myTile.sq = s.myTile.sq ++ [c] ∧
        c.op = r.2 ∧ c.cmpl = k ∧ (∀ i : Fin 8, c.d[i] = s.me.d[i]) ∧ c.org = s.origin s.me.seqs.stream) ∧
      (s.bun.checked = false → 16 ≤ s.myTile.sq.length → exec r.1 s = .next (s.blockOn .streamQueue))) ∧
    ∃ t v, exec (.dsta clr) s = .next t ∧
      (∃ u, Posts s u 2 (.stg .stream 0 v) ∧ (clr = false → t = u) ∧
        (clr = true → s.myTile.sNew.1 ≠ s.cc → t = u.onMyTile fun x => { x with sFaults := 0, sCause := 0 })) ∧
      v.extractLsb' 32 32 = s.myTile.sDone ∧ v.extractLsb' 16 16 = BitVec.ofNat 16 s.myTile.sFaults ∧
      v.extractLsb' 8 4 = BitVec.ofNat 4 s.myTile.sCause ∧ v.extractLsb' 5 3 = BitVec.ofNat 3 s.myTile.sp.length ∧
      v.extractLsb' 0 5 = BitVec.ofNat 5 s.myTile.sq.length

/-- R112, R114, R122: the head of a stream queue starts once the command four entries ahead of it has completed and no DPUB is in
progress. A linear command of the own scratchpad then leaves the queue, is in progress, and completes within its bound: 16 cc and
one for each 128 bytes. One whose source or destination passes the end of the scratchpad is abandoned and gives its strand a
stream fault that names the lowest byte outside. -/
def Obligations.StreamStarts : Prop :=
  ∀ (n : Nat) (c : SCmd) (rest : List SCmd) (s : State), (s.tile n).sq = c :: rest →
    ((∃ p ∈ (s.tile n).sp, p.id + 4 ≤ c.id) → exec (.streamCommandStart n) s = .next s) ∧
    ((∀ p ∈ (s.tile n).sp, c.id < p.id + 4 ∧ p.op.isDpub = false) → s.slack = [] → c.d[3] ≠ 0 →
      (LinearScratch c → (c.op = .dfil → c.src = .global) →
        ∃ t q, exec (.streamCommandStart n) s = .next t ∧ (t.tile n).sq = rest ∧ (t.tile n).sp = (s.tile n).sp ++ [q] ∧
          q = { c with start := s.cc, c0 := 0 } ∧ SameBytes s t ∧ (keyOf s.cc slotBegin, Event.streamCommandStart n) ∈ t.agenda ∧
          (keyOf (s.cc + 16 + (c.d[3].toNat + 127) / 128) (slotStream n), Event.streamCommandComplete n c.id) ∈ t.agenda) ∧
      ∀ a, c.op = .dfil ∧ c.src = .global ∨ c.op = .dcpy ∧ c.src = .scratch →
        c.dst = .scratch → c.shd = false → c.cmpl = .none → c.d[2] = 0 →
        (((if c.op = .dcpy then [c.d[0]] else []) ++ [c.d[1]]).filterMap fun x =>
          if 0x200000 < x.toNat + c.d[3].toNat then some (max x.toNat 0x200000) else none).min? = some a →
        ∃ t i, exec (.streamCommandStart n) s = .next t ∧ (t.tile n).sq = rest ∧ StreamLeft s t n c false ∧ SameBytes s t ∧
          (t.strand c.org.tile c.org.strand).faults = (s.strand c.org.tile c.org.strand).faults ++ [(s.cc, i)] ∧
          i.cause = .stream ∧ i.engine = 3 ∧ i.seq = c.org.seq ∧ i.isw = 3 ∧ i.addr = BitVec.ofNat 64 a)

/-- R113, R117, R119, R126, R129: when a linear command of the own scratchpad completes, its destination holds the source's
bytes (DCPY) or the fill value repeated (DFIL), every other byte of every memory stays, and the command has left the engine.
R127, R128: the next row of an unfolding from the own scratchpad waits for its credit; with it, the row's slot of the ring
holds each tap's pixel, or zeros where the tap lies in the padding, and zeros up to the pitch; every other byte stays, and the
next row, or the command's completion, follows. -/
def Obligations.StreamBytes : Prop :=
  (∀ (n id : Nat) (c : SCmd) (s : State), (s.tile n).inProgress id = some c → LinearScratch c → PlainScratch s n →
     (s.strand c.org.tile c.org.strand).rels = [] →
     (c.op = .dcpy → c.d[0].toNat + c.d[3].toNat ≤ c.d[1].toNat ∨ c.d[1].toNat + c.d[3].toNat ≤ c.d[0].toNat) →
     ∃ t, exec (.streamCommandComplete n id) s = .next t ∧ StreamLeft s t n c true ∧
       (∀ m, m ≠ n → (t.tile m).scratch = (s.tile m).scratch) ∧ t.clusters = s.clusters ∧ t.dies = s.dies ∧
       ∀ a, (t.tile n).scratch.read a =
         if c.d[1].toNat ≤ a ∧ a < c.d[1].toNat + c.d[3].toNat then
           (if c.op = .dfil then c.d[7].extractLsb' (8 * ((a - c.d[1].toNat) % 8)) 8
           else (s.tile n).scratch.read (c.d[0].toNat + (a - c.d[1].toNat)))
         else (s.tile n).scratch.read a) ∧
  (∀ (n id : Nat) (c : SCmd) (s : State), (s.tile n).inProgress id = some c → c.op = .dunf → c.src = .scratch →
     c.shd = false → c.cmpl = .none →
     let u := unfoldOf c.desc
     let base := c.d[1].toNat + c.row % u.depth * u.pitch
     let credit := (s.ctrGet (dieOf n) u.cred).toNat
     (u.depth ≤ c.row → credit < c.c0.toNat + c.row - u.depth + 1 → exec (.dunfRow n id c.row) s = .next s) ∧
     (u.ok = true → (c.row < u.depth ∨ c.c0.toNat + c.row - u.depth + 1 ≤ credit) → PlainScratch s n →
       (s.strand c.org.tile c.org.strand).rels = [] → c.d[0].toNat + (u.h - 1) * u.istr + u.w * u.cb ≤ 0x200000 →
       (c.d[0].toNat + (u.h - 1) * u.istr + u.w * u.cb ≤ base ∨ base + u.pitch ≤ c.d[0].toNat) →
       ∃ t, exec (.dunfRow n id c.row) s = .next t ∧ t.clusters = s.clusters ∧ t.dies = s.dies ∧
         (∀ m, m ≠ n → t.tile m = s.tile m) ∧
         (∀ k j, k < u.kh * u.kw → j < u.cb → (t.tile n).scratch.read (base + k * u.cb + j) =
           match specTap u c.d[0].toNat c.row k with
           | some a => (s.tile n).scratch.read (a + j)
           | none => 0) ∧
         (∀ a, base + u.kh * u.kw * u.cb ≤ a → a < base + u.pitch → (t.tile n).scratch.read a = 0) ∧
         (∀ a, (a < base ∨ base + u.pitch ≤ a) → (t.tile n).scratch.read a = (s.tile n).scratch.read a) ∧
         if c.row + 1 = c.d[3].toNat then ∃ k, (k, Event.streamCommandComplete n id) ∈ t.agenda
         else ∃ k, (k, Event.dunfRow n id (c.row + 1)) ∈ t.agenda))

/-- R120: an arrival adds its bytes to COUNT modulo 2^32 and, with a TARGET, takes TARGET from COUNT and adds 1 to GEN while
COUNT reaches it; TARGET and every other byte stay, and a strand that waits for a generation now reached becomes ready. R123,
R124, R131: a DPUB INIT that completes configures its pair, with the region at d0 published, or unconfigures it; a swap
exchanges the two regions of its pair: the bytes of the window and of the alternate range change places for every access by
address, while no physical byte changes. -/
def Obligations.ArriveAndPublish : Prop :=
  (∀ (n addr b : Nat) (s : State), PlainScratch s n →
     let x := s.tile n
     let count := (x.readNat (addr + 4) 4 + b) % 2 ^ 32
     let target := x.readNat addr 4
     ∃ t, exec (.arrival n addr b) s = .next t ∧
       (t.tile n).readNat (addr + 4) 4 = (if target = 0 then count else count % target) ∧
       (t.tile n).readNat (addr + 8) 4 =
         (if target = 0 then x.readNat (addr + 8) 4 else (x.readNat (addr + 8) 4 + count / target) % 2 ^ 32) ∧
       (∀ a, (a < addr + 4 ∨ addr + 12 ≤ a) → (t.tile n).scratch.read a = x.scratch.read a) ∧
       (∀ m, m ≠ n → t.tile m = s.tile m) ∧ t.clusters = s.clusters ∧ t.dies = s.dies ∧
       ∀ k a g, k < 4 → (s.strand n k).block = some (.arrival a g) → (s.strand n k).wake = false →
         genReached ((t.tile n).genAt a) g = true →
         ∃ key, (key, Event.waitSatisfied n k) ∈ t.agenda ∧ key ≤ keyOf (s.cc + 4) 12) ∧
  (∀ (n id k : Nat) (c : SCmd) (s : State), (s.tile n).inProgress id = some c → c.cmpl = .none →
     (s.strand c.org.tile c.org.strand).rels = [] →
     (c.op = .dpub true k → ∃ t, exec (.streamCommandComplete n id) s = .next t ∧ StreamLeft s t n c true ∧ SameBytes s t ∧
       ∀ j, SMap.find (t.tile n).pairs j = if j = k then
         (if c.d[3] = 0 then none else some ⟨c.d[0].toNat, c.d[1].toNat, c.d[3].toNat, false⟩)
         else SMap.find (s.tile n).pairs j) ∧
     ∀ p, c.op = .dpub false k → (s.tile n).pairs = [(k, p)] → (s.tile n).strmReads p s.cc = none →
       p.base + p.len ≤ p.alt ∨ p.alt + p.len ≤ p.base →
       ∃ t, exec (.publishSwap n id) s = .next t ∧ StreamLeft s t n c true ∧ SameBytes s t ∧
         (t.tile n).pairs = [(k, { p with pub := !p.pub })] ∧
         (∀ i, i < p.len → (t.tile n).phys (p.base + i) = (s.tile n).phys (p.alt + i) ∧
           (t.tile n).phys (p.alt + i) = (s.tile n).phys (p.base + i)) ∧
         ∀ a, (a < p.base ∨ p.base + p.len ≤ a) → (a < p.alt ∨ p.alt + p.len ≤ a) → (t.tile n).phys a = (s.tile n).phys a)

/-! ### Class N, the kilns, and the way split -/

/-- R87, R88, R91, R96: with room in the cluster's queue of 8, an N word puts its command at the end of it, with its staging
registers of this cc; a full queue blocks the bundle. UPST writes the status to n0 at bound 2 and may clear the flags.
SPLT takes the new way count and holds its strand while the split drains; a count above 16 or a strand that stands at no
split point traps. -/
def Obligations.KilnWords : Prop :=
  ∀ (mom cnt bf clr : Bool) (a : Reg) (s : State), let my := s.myCluster
    (∀ r ∈ [(Instr.upcf, KOp.upcf, false, false), (.updm mom cnt bf, .updm mom, cnt, bf), (.upmo cnt bf, .upmo, cnt, bf)],
      ((s.cluster my).kq.length < 8 → ∃ t k, exec r.1 s = .next t ∧ Numbers s t 7 false ∧ SameBytes s t ∧
        (∀ m, m ≠ s.bun.tile → t.tile m = s.tile m) ∧ { t.myTile with strands := s.myTile.strands } = s.myTile ∧
        t.dies = s.dies ∧ (∀ c, c ≠ my → t.cluster c = s.cluster c) ∧
        t.cluster my = { s.cluster my with kq := (s.cluster my).kq ++ [k] } ∧
        (keyOf s.cc slotKilnStart, Event.kilnCommandStart my) ∈ t.agenda ∧
        k.op = r.2.1 ∧ k.cnt = r.2.2.1 ∧ k.bf = r.2.2.2 ∧ k.n = s.me.n ∧ k.org = s.origin s.me.seqs.kiln) ∧
      (s.bun.checked = false → 8 ≤ (s.cluster my).kq.length → exec r.1 s = .next (s.blockOn .kilnQueue))) ∧
    (∃ t v, exec (.upst clr) s = .next t ∧
      (∃ u, Posts s u 2 (.stg .kiln 0 v) ∧ (clr = false → t = u) ∧
        (clr = true → (s.cluster my).kNew.1 ≠ s.cc → t = u.onCluster my fun x => { x with kFlags := .zero })) ∧
      v.extractLsb' 32 32 = (s.cluster my).kDone ∧ v.extractLsb' 16 16 = BitVec.ofNat 16 (s.cluster my).kSkip ∧
      v.extractLsb' 8 4 = BitVec.ofNat 4 (s.cluster my).kq.length ∧ v.getLsbD 3 = (s.cluster my).krun.isSome ∧
      v.getLsbD 2 = (s.cluster my).kFlags.cl ∧ v.getLsbD 1 = (s.cluster my).kFlags.ov ∧ v.getLsbD 0 = (s.cluster my).kFlags.nv) ∧
    let ga := s.me.readG a
    let point := ∃ g, s.me.splitGen = some g ∧ ∀ h, (s.cluster my).lastSplitGen = some h → h < g
    (ga.toNat ≤ 16 → point → ∃ t, exec (.splt a) s = .next t ∧ SameBytes s t ∧
      (∀ m, m ≠ s.bun.tile → t.tile m = s.tile m) ∧ { t.myTile with strands := s.myTile.strands } = s.myTile ∧
      (∀ k, k ≠ s.bun.strand → t.strand s.bun.tile k = s.strand s.bun.tile k) ∧
      { t.me with seqs := s.me.seqs, hold := s.me.hold, splitGen := s.me.splitGen } = s.me ∧ t.me.hold = some .split ∧
      (∀ c, c ≠ my → t.cluster c = s.cluster c) ∧ t.cluster my = { s.cluster my with
        tw := ga.toNat, busy := true, split := some ⟨s.origin s.me.seqs.sync, ga.toNat⟩, splits := (s.cluster my).splits + 1,
        lastSplitGen := some s.barCount } ∧
      (keyOf s.cc slotSplit, Event.spltDrain my) ∈ t.agenda) ∧
    (s.bun.checked = false → 16 < ga.toNat → exec (.splt a) s = .next (s.trapHere .splitRange (some ga) none)) ∧
    (s.bun.checked = false → ga.toNat ≤ 16 → ¬point → exec (.splt a) s = .next (s.trapHere .splitOrder (some ga) none))

/-- R91 to R95: the head of a kiln queue starts when no command runs. UPCF loads the configuration and leaves; one with bits
above its decay leaves the configuration and gives its strand a kiln-range fault. A UPDM leaves in each master the value of R94
for its gradient, of f32 or bf16, or for the quotient of its moments; a UPMO leaves in each pair of moments the values of R93;
each keeps every other byte, and completes within its bound: 64 cc and one for each 32 elements without moments, 512 and one for
each 8 with them. Quotients and roots are exact, rounded once (R50). A command whose count is too large has no effect but a
kiln-range fault. A command that completes adds its flags, its skips and 1 to the status, and its increment to its counter, leaves
the engine, and gives its strand its first element fault; an add that the counter cannot take is a fault of its own. -/
def Obligations.KilnRuns : Prop :=
  (∀ a b : Nat, codeFinite 24 a → codeFinite 24 b → let x := codeVal 24 a
    let y := codeVal 24 b
    (x ≠ 0 → y ≠ 0 → Rounded 24 .rne (x / y : ℚ) (fpDiv 24 .rne a b)) ∧
    (x = 0 → y ≠ 0 → fpDiv 24 .rne a b = (fpZero 24 (codeNeg 24 a != codeNeg 24 b), .zero)) ∧
    (x ≠ 0 → y = 0 → fpDiv 24 .rne a b = (fpInf 24 (codeNeg 24 a != codeNeg 24 b), .divZero)) ∧
    (0 < x → Rounded 24 .rne √x (fpSqrt 24 .rne a)) ∧ (x < 0 → fpSqrt 24 .rne a = (fpNaN 24, .invalid))) ∧
  ∀ (c : Nat) (k : KCmd) (rest : List KCmd) (s : State), let x := s.cluster c
    (x.krun = none → x.kq = k :: rest → k.op = .upcf →
      ∃ t, exec (.kilnCommandStart c) s = .next t ∧ KilnLeft s t c k ∧ (t.cluster c).kq = rest ∧ SameBytes s t ∧
        (k.n[2].toNat < 2 ^ 16 → (t.cluster c).kcfg =
          ⟨k.n[0].setWidth 32, k.n[0].extractLsb' 32 32, k.n[1].setWidth 32, k.n[1].extractLsb' 32 32, k.n[2].setWidth 16⟩ ∧
          (t.strand k.org.tile k.org.strand).faults = (s.strand k.org.tile k.org.strand).faults) ∧
        (2 ^ 16 ≤ k.n[2].toNat → (t.cluster c).kcfg = x.kcfg ∧ ∃ i,
          (t.strand k.org.tile k.org.strand).faults = (s.strand k.org.tile k.org.strand).faults ++ [(s.cc, i)] ∧
          i.cause = .kiln ∧ i.engine = 7 ∧ i.seq = k.org.seq ∧ i.isw = 1 ∧ i.addr = k.n[2])) ∧
    (x.krun = none → x.kq = k :: rest → x.busy = false → PlainKiln x k → s.slack = [] →
      (s.strand k.org.tile k.org.strand).rels = [] →
      (k.op = .updm false → ∃ t, exec (.kilnCommandStart c) s = .next t ∧ (t.cluster c).kq = rest ∧ (t.cluster c).krun.isSome ∧
        t.tiles = s.tiles ∧ t.dies = s.dies ∧ (∀ d, d ≠ c → t.cluster d = s.cluster d) ∧
        (keyOf (s.cc + 64 + (k.n[6].toNat + 31) / 32) (slotKiln c), Event.kilnCommandComplete c) ∈ t.agenda ∧
        (∀ i, i < k.n[6].toNat → leNat ((t.cluster c).store.reads (k.n[0].toNat + 2 * i) 2) =
          specMaster x.kcfg.lr.toNat x.kcfg.decay.toNat (leNat (x.store.reads (k.n[0].toNat + 2 * i) 2)) (specGradient x k i)) ∧
        ∀ a, (a < k.n[0].toNat ∨ k.n[0].toNat + 2 * k.n[6].toNat ≤ a) → (t.cluster c).store.read a = x.store.read a) ∧
      ∀ o1 o2 : Nat → Nat, let d := c / 32
        let at_ (o : Nat) : Nat := leNat ((s.die d).mem.reads o 4)
        (k.op = .updm true → MomentsAt s c k false o1 o2 → ∃ t, exec (.kilnCommandStart c) s = .next t ∧
          (t.cluster c).kq = rest ∧ (t.cluster c).krun.isSome ∧ OnlyStore s t c ∧
          (∃ due, due ≤ s.cc + 512 + (k.n[6].toNat + 7) / 8 ∧ (keyOf due (slotKiln c), Event.kilnCommandComplete c) ∈ t.agenda) ∧
          (∀ i, i < k.n[6].toNat → leNat ((t.cluster c).store.reads (k.n[0].toNat + 2 * i) 2) =
            specMaster x.kcfg.lr.toNat x.kcfg.decay.toNat (leNat (x.store.reads (k.n[0].toNat + 2 * i) 2))
              (specUpdate x.kcfg.eps.toNat (at_ (o1 i)) (at_ (o2 i)))) ∧
          ∀ a, (a < k.n[0].toNat ∨ k.n[0].toNat + 2 * k.n[6].toNat ≤ a) → (t.cluster c).store.read a = x.store.read a) ∧
        (k.op = .upmo → MomentsAt s c k true o1 o2 → ∃ t, exec (.kilnCommandStart c) s = .next t ∧
          (t.cluster c).kq = rest ∧ (t.cluster c).krun.isSome ∧
          (∀ n a, (t.tile n).scratch.read a = (s.tile n).scratch.read a) ∧
          (∀ e a, (t.cluster e).store.read a = (s.cluster e).store.read a) ∧
          (∀ e, e ≠ d → ∀ a, (t.die e).mem.read a = (s.die e).mem.read a) ∧
          (∃ due, due ≤ s.cc + 512 + (k.n[6].toNat + 7) / 8 ∧ (keyOf due (slotKiln c), Event.kilnCommandComplete c) ∈ t.agenda) ∧
          (∀ i, i < k.n[6].toNat →
            (leNat ((t.die d).mem.reads (o1 i) 4), leNat ((t.die d).mem.reads (o2 i) 4)) =
              specMoments x.kcfg.c1.toNat x.kcfg.c2.toNat (specGradient x k i) (at_ (o1 i)) (at_ (o2 i))) ∧
          ∀ a, (∀ i, i < k.n[6].toNat → (a < o1 i ∨ o1 i + 4 ≤ a) ∧ (a < o2 i ∨ o2 i + 4 ≤ a)) →
            (t.die d).mem.read a = (s.die d).mem.read a)) ∧
    (x.krun = none → x.kq = k :: rest → x.busy = false → k.op = .updm false → k.n[0].toNat % 2 = 0 →
      k.n[3].toNat % (if k.bf then 2 else 4) = 0 → 16777216 < k.n[6].toNat →
      ∃ t i, exec (.kilnCommandStart c) s = .next t ∧ KilnLeft s t c k ∧ (t.cluster c).kq = rest ∧ SameBytes s t ∧
        (t.cluster c).kDone = x.kDone ∧
        (t.strand k.org.tile k.org.strand).faults = (s.strand k.org.tile k.org.strand).faults ++ [(s.cc, i)] ∧
        i.cause = .kiln ∧ i.engine = 7 ∧ i.isw = 1 ∧ i.addr = k.n[6]) ∧
    (x.krun = some k → k.cnt = false →
      ∃ t, exec (.kilnCommandComplete c) s = .next t ∧ KilnLeft s t c k ∧ SameBytes s t ∧ (t.cluster c).kDone = x.kDone + 1 ∧
        (t.cluster c).kFlags = x.kFlags.or k.fl ∧ (t.cluster c).kSkip = min (x.kSkip + k.skip) 0xFFFF ∧
        (k.err = none → (t.strand k.org.tile k.org.strand).faults = (s.strand k.org.tile k.org.strand).faults) ∧
        ∀ e, k.err = some e → ∃ i,
          (t.strand k.org.tile k.org.strand).faults = (s.strand k.org.tile k.org.strand).faults ++ [(s.cc, i)] ∧
          i.cause = .kiln ∧ i.engine = 7 ∧ i.seq = k.org.seq ∧ i.addr = BitVec.ofNat 64 e.2.2) ∧
    (x.krun = some k → k.cnt = true → k.err = none → (s.strand k.org.tile k.org.strand).rels = [] → c < 256 →
      k.n[7].toNat % 2 ^ 24 < 65536 → let d := c / 32
      let id := k.n[7].toNat % 2 ^ 24
      let inc := k.n[7].toNat / 2 ^ 32
      ∃ t, exec (.kilnCommandComplete c) s = .next t ∧ KilnLeft s t c k ∧ SameBytes s t ∧ (t.cluster c).kDone = x.kDone + 1 ∧
        (∀ j, j ≠ id → t.ctrGet d j = s.ctrGet d j) ∧
        ((s.ctrGet d id).toNat + inc < 2 ^ 64 → (t.ctrGet d id).toNat = (s.ctrGet d id).toNat + inc ∧
          (t.strand k.org.tile k.org.strand).faults = (s.strand k.org.tile k.org.strand).faults) ∧
        (2 ^ 64 ≤ (s.ctrGet d id).toNat + inc → t.ctrGet d id = s.ctrGet d id ∧ ∃ i,
          (t.strand k.org.tile k.org.strand).faults = (s.strand k.org.tile k.org.strand).faults ++ [(s.cc, i)] ∧
          i.cause = .kiln ∧ i.engine = 7 ∧ i.seq = k.org.seq ∧ i.isw = 3 ∧ i.addr = BitVec.ofNat 64 id))

/-- R87, R89: a split drains until no earlier command of the cluster touches the store bytes that change hands, and is
complete 64 cc and 4,096 for each way later. Then CW is the new count, BUSY is 0, SEQ one more, and the strand is held no more.
The store that a growing split adds reads as zero, and so does what a shrinking one leaves; every other byte stays. The commands
that the split held may start. With no split in progress nothing happens. R101: a die that keeps no cache way keeps no copy. -/
def Obligations.SplitRuns : Prop :=
  (∀ (c : Nat) (s : State), (s.cluster c).split = none → exec (.spltDrain c) s = .next s ∧ exec (.spltComplete c) s = .next s) ∧
  ∀ (c : Nat) (p : Split) (s : State), (s.cluster c).split = some p → let x := s.cluster c
    (s.splitWaits c p.wn = true → ∃ t, exec (.spltDrain c) s = .next t ∧ { t with agenda := s.agenda } = s ∧
      (keyOf (s.cc + 1) slotSplit, Event.spltDrain c) ∈ t.agenda) ∧
    (s.splitWaits c p.wn = false → s.slack = [] → ∃ t, exec (.spltDrain c) s = .next t ∧ { t with agenda := s.agenda } = s ∧
      (keyOf (s.cc + 4096 * (max x.cw p.wn - min x.cw p.wn) + 64) (slotKiln c), Event.spltComplete c) ∈ t.agenda) ∧
    ∃ t, exec (.spltComplete c) s = .next t ∧ (t.cluster c).cw = p.wn ∧ (t.cluster c).tw = p.wn ∧
      (t.cluster c).busy = false ∧ (t.cluster c).seq = x.seq + 1 ∧ (t.cluster c).split = none ∧
      (∀ d, d ≠ c → t.cluster d = s.cluster d) ∧ (∀ n, (t.tile n).scratch = (s.tile n).scratch) ∧
      (∀ a, (t.cluster c).store.read a =
        if a < (16 - x.cw) * 0x400000 ∧ a < (16 - p.wn) * 0x400000 then x.store.read a else 0) ∧
      (∀ d, { t.die d with copies := (s.die d).copies } = s.die d) ∧
      (∀ d, d ≠ c / 32 ∨ (∃ i, i < 32 ∧ (t.cluster (32 * d + i)).cw ≠ 0) → t.die d = s.die d) ∧
      ((∀ i, i < 32 → (t.cluster (32 * (c / 32) + i)).cw = 0) → (t.die (c / 32)).copies = []) ∧
      (keyOf s.cc slotBegin, Event.kilnCommandStart c) ∈ t.agenda ∧
      (∀ i, i < 8 → (keyOf s.cc slotBegin, Event.streamCommandStart (8 * c + i)) ∈ t.agenda) ∧
      (t.strand p.org.tile p.org.strand).hold = none ∧
      { t.strand p.org.tile p.org.strand with hold := (s.strand p.org.tile p.org.strand).hold } = s.strand p.org.tile p.org.strand

/-! ### Class Q, the Quilt -/

/-- R212, R216, R222 to R226, R228, R229: with aligned records that lie in the scratchpad and a free slot, QPAT and QLDY take
the slot for one cc a cell, QSAV and QRST for 260 cc, and their first beat falls in this cc; QSTP, whose domains are
configured, takes it for its count of steps of its pacing domain, and its first step cycle falls at the first cc at which
a domain of it steps; QRDV takes it for 1 cc and gives the integrands of half the cells at bound 4. QDOM configures its
domain. QSTA writes the status to q0 at bound 2 and may clear the latest cause. -/
def Obligations.QuiltWords : Prop :=
  ∀ (n : BitVec 12) (first : BitVec 8) (d : BitVec 2) (mask : BitVec 4) (h clr : Bool) (v : Reg) (s : State),
    let x := s.myTile
    let a := (s.me.q[1].setWidth 32).toNat
    let beat := (keyOf s.cc slotBeat, Event.quiltBeat s.bun.tile 0)
    (x.qFree ≤ s.cc → (∀ r ∈ [(Instr.qpat n first, QOp.pat, n.toNat + 1, first.toNat, 8, 8),
        (.qldy n first, .ldy, n.toNat + 1, first.toNat, 8, 8), (.qsav, .sav, 260, 0, 16, 16), (.qrst, .rst, 260, 0, 16, 16)],
      a % r.2.2.2.2.1 = 0 → a + r.2.2.2.2.2 * r.2.2.1 ≤ 0x200000 →
      ∃ t, exec r.1 s = .next t ∧ QuiltStarts s t r.2.1 r.2.2.1 r.2.2.2.1 ∧ beat ∈ t.agenda)) ∧
    (x.qFree ≤ s.cc → (∀ e, e < 4 → e = d.toNat ∨ mask.getLsbD e = true → (x.qdom e).conf = true ∧ 1 ≤ (x.qdom e).div) →
      (n.toNat + 1) * (x.qdom d.toNat).div ≤ 65536 →
      ∃ t m, exec (.qstp n d mask) s = .next t ∧ QuiltStarts s t (.stp d.toNat m) ((n.toNat + 1) * (x.qdom d.toNat).div) 0 ∧
        (∀ e, e < 4 → (m / 2 ^ e % 2 = 1 ↔ e = d.toNat ∨ mask.getLsbD e = true)) ∧
        ∀ o, o < (n.toNat + 1) * (x.qdom d.toNat).div →
          (∃ e, e < 4 ∧ m / 2 ^ e % 2 = 1 ∧ (o + 1) % (x.qdom e).div = 0) →
          (∀ p, p < o → ∀ e, e < 4 → m / 2 ^ e % 2 = 1 → (p + 1) % (x.qdom e).div ≠ 0) →
          (keyOf (s.cc + o) (if o = 0 then slotBeat else slotQuilt), Event.quiltStepCycle s.bun.tile o) ∈ t.agenda) ∧
    (x.qFree ≤ s.cc → ∃ t w, exec (.qrdv h v) s = .next t ∧ QuiltStarts s t .rdv 1 0 ∧
      (keyOf (s.cc + 4) 0, Event.pendingWriteComplete s.bun.tile s.bun.strand (.v v w)) ∈ t.agenda ∧
      ∀ i, i < 128 → lane .i32 w i = (x.qcell (128 * h.toNat + i)).y) ∧
    (x.qFree ≤ s.cc → 1 ≤ s.me.q[3].toNat → s.me.q[3].toNat ≤ 65536 → 8 ≤ s.me.q[4].toNat → s.me.q[4].toNat ≤ 32 →
      ∃ t, exec (.qdom d) s = .next t ∧ OnlyTilePart s t s.bun.tile ∧ t.agenda = s.agenda ∧
        { t.myTile with qdoms := x.qdoms } = x ∧
        ∀ e, t.myTile.qdom e = if e = d.toNat then ⟨true, s.me.q[3].toNat, s.me.q[4].toNat⟩ else x.qdom e) ∧
    (s.bun.checked = false → s.me.q[3].toNat = 0 ∨ 65536 < s.me.q[3].toNat →
      exec (.qdom d) s = .next (s.trapHere .quiltRange (some s.me.q[3]) none)) ∧
    (s.bun.checked = false → s.cc < x.qFree → exec (.qrdv h v) s = .next (s.trapHere .schedule none none)) ∧
    (s.bun.checked = false → a % 16 ≠ 0 →
      exec .qsav s = .next (s.trapHere .align (some (BitVec.ofNat 64 a)) none)) ∧
    (s.bun.checked = false → a % 16 = 0 → 0x200000 < a + 4160 →
      exec .qrst s = .next (s.trapHere .scratchRange (some (BitVec.ofNat 64 (max a 0x200000))) none)) ∧
    ∃ t w, exec (.qsta clr) s = .next t ∧
      (∃ u, Posts s u 2 (.stg .quilt 0 w) ∧ (clr = false → t = u) ∧
        (clr = true → x.qCauseCc ≠ s.cc → t = u.onMyTile fun y => { y with qCause := 0 })) ∧
      w.extractLsb' 32 32 = x.qDone ∧ w.extractLsb' 23 9 = BitVec.ofNat 9 (x.qcells.filter (·.2.frz)).length ∧
      w.extractLsb' 8 4 = BitVec.ofNat 4 x.qCause ∧ w.getLsbD 3 = decide (s.cc < x.qFree)

/-- R215 to R220, R223, R226: a beat of QPAT writes a patch, whose EN it clears when a select is reserved, and QLDY an
integrand and a residue; both clear the cell's counters, OUT and FRZ. A beat of QSAV writes a record, whose old bytes an
array or stream command that had started still reads (R227), and QRST restores one. A step cycle leaves in every cell what
R217 to R219 say. At the end of its time the command completes, and gives its strand its first fault. R221: in a panel that
still stands, the first fault of a command is the whole panel's, due 106 cc after the lead's issue and the command's time. -/
def Obligations.QuiltRuns : Prop :=
  ∀ (n : Nat) (c : QCmd) (s : State), (s.tile n).qcmd = some c → let x := s.tile n
    (∀ b, c.start + b = s.cc → b < c.beats → PlainScratch s n → (c.op = .pat ∨ c.op = .ldy ∨ c.op = .sav ∨ c.op = .rst) →
      ∃ t, exec (.quiltBeat n b) s = .next t ∧ OnlyTilePart s t n ∧
        (b + 1 < c.beats → (keyOf (s.cc + 1) slotBeat, Event.quiltBeat n (b + 1)) ∈ t.agenda) ∧
        (c.op = .pat ∨ c.op = .ldy → (t.tile n).scratch = x.scratch ∧ (t.tile n).qdoms = x.qdoms ∧
          (∀ i, i ≠ c.first + b → (t.tile n).qcell i = x.qcell i) ∧
          let p := (t.tile n).qcell (c.first + b)
          let w : DWord := BitVec.ofNat 64 (x.readNat (c.addr + 8 * b) 8)
          p.cnt = 0 ∧ p.out = 0 ∧ p.frz = false ∧
          (c.op = .pat → p.y = (x.qcell (c.first + b)).y ∧ p.res = (x.qcell (c.first + b)).res ∧
            (∀ j, j < 42 → p.patch.getLsbD j = w.getLsbD j) ∧ (∀ j, 42 < j → p.patch.getLsbD j = false) ∧
            let bad := (List.range 4).any fun k => 0x104 ≤ selOf w k && selOf w k ≤ 0x1FE
            enOf p.patch = (enOf w && !bad) ∧
            ((t.tile n).qcmd = some c ↔ bad = false)) ∧
          (c.op = .ldy → p.patch = (x.qcell (c.first + b)).patch ∧ p.y = w.extractLsb' 0 32 ∧ p.res = w.extractLsb' 32 32)) ∧
        (c.op = .sav → (t.tile n).qcells = x.qcells ∧
          (b < 256 → let q := x.qcell b
            (t.tile n).readNat (c.addr + 16 * b) 16 = q.y.toNat + 2 ^ 32 * q.res.toNat + 2 ^ 64 * q.cnt.toNat +
              2 ^ 76 * q.out.toNat + 2 ^ 78 * q.frz.toNat) ∧
          (∀ a, (a < c.addr + 16 * b ∨ c.addr + 16 * b + 16 ≤ a) → (t.tile n).scratch.read a = x.scratch.read a) ∧
          ((∃ e ∈ s.tiles, e.2.sp ≠ [] ∨ e.2.arr ≠ []) → ∀ since i, since ≤ s.cc → i < 16 →
            t.engReadSince n (c.addr + 16 * b + i) 1 since = [x.scratch.read (c.addr + 16 * b + i)])) ∧
        (c.op = .rst → (t.tile n).scratch = x.scratch ∧ (b < 256 →
          (∀ i, i ≠ b → (t.tile n).qcell i = x.qcell i) ∧
          let q := (t.tile n).qcell b
          let w := x.readNat (c.addr + 16 * b) 16
          q.patch = (x.qcell b).patch ∧ q.y.toNat = w % 2 ^ 32 ∧ q.res.toNat = w / 2 ^ 32 % 2 ^ 32 ∧
          q.out.toNat = (if w / 2 ^ 76 % 4 = 2 then 0 else w / 2 ^ 76 % 4) ∧ q.frz = (w / 2 ^ 78 % 2 == 1)))) ∧
    (∀ o d m, c.op = .stp d m → c.start + o = s.cc → o < c.beats → (∀ e, (x.qdom e).n ≤ 32) →
      let S := (List.range 4).filter fun e => m / 2 ^ e % 2 == 1 && (o + 1) % (x.qdom e).div == 0
      ∃ t, exec (.quiltStepCycle n o) s = .next t ∧ OnlyTilePart s t n ∧ (t.tile n).scratch = x.scratch ∧
        (t.tile n).qdoms = x.qdoms ∧ (∀ i, i < 256 → SpecCell x S i ((t.tile n).qcell i)) ∧
        ((∀ i, i < 256 → specFaults x S i = false) → (t.tile n).qcmd = some c)) ∧
    (c.start + c.beats ≤ s.cc → ∀ f p, c.fault = some f → let y := s.strand c.org.tile c.org.strand
      let k := c.org.tile / 8
      y.inPanel 4 c.org.seq = true → (s.strand (8 * k) ((s.cluster k).gangs.headD 0)).gang = .ganged →
      (s.cluster k).panel = some p → (∀ g ∈ p.traps, ¬(g.2.engine = 4 ∧ g.2.seq = y.relSeq 4 c.org.seq)) →
      ∃ t i g, exec (.quiltCommandComplete n) s = .next t ∧ (t.tile n).qcmd = none ∧
        (t.strand c.org.tile c.org.strand).panelTraps = y.panelTraps ++ [i] ∧ i.cause = .quilt ∧ i.engine = 4 ∧
        i.seq = c.org.seq ∧ i.addr = BitVec.ofNat 64 f.addr ∧ (t.strand c.org.tile c.org.strand).faults = y.faults ∧
        g.cause = .panelFollow ∧ g.engine = 4 ∧ g.seq = y.relSeq 4 c.org.seq ∧ (t.cluster k).panel = some { p with traps :=
          p.traps ++ [(c.start - specSkew c.org.tile + (c.beats + 106), g)] }) ∧
    (c.start + c.beats ≤ s.cc → (s.strand c.org.tile c.org.strand).inPanel 4 c.org.seq = false →
      ∃ t, exec (.quiltCommandComplete n) s = .next t ∧ SameBytes s t ∧ (t.tile n).qcmd = none ∧
        (t.tile n).qDone = x.qDone + 1 ∧ (t.tile n).qcells = x.qcells ∧
        (t.strand c.org.tile c.org.strand).outst = (s.strand c.org.tile c.org.strand).outst.filter
          (fun k => !(k.engine == 4 && k.seq == c.org.seq)) ∧
        (c.fault = none → (t.strand c.org.tile c.org.strand).faults = (s.strand c.org.tile c.org.strand).faults) ∧
        ∀ f, c.fault = some f → ∃ i,
          (t.strand c.org.tile c.org.strand).faults = (s.strand c.org.tile c.org.strand).faults ++ [(s.cc, i)] ∧
          i.cause = .quilt ∧ i.engine = 4 ∧ i.seq = c.org.seq ∧ i.addr = BitVec.ofNat 64 f.addr ∧
          i.isw.extractLsb' 0 4 = BitVec.ofNat 4 f.cause ∧ i.isw.extractLsb' 4 8 = BitVec.ofNat 8 f.cell ∧
          i.isw.extractLsb' 12 2 = BitVec.ofNat 2 f.input ∧ i.isw.extractLsb' 16 16 = BitVec.ofNat 16 (min c.nfault 0xFFFF))

/-! ### Class F, ricks and reductions -/

/-- R237, R239, R246 to R249, R252, R253: with room in its tile's fabric queue of 16, an F word goes to the end of it with
what it reads at issue. An RSW or RAM is an entry of the low word or of all of gb, is numbered and folds into the digest
(R281). An RLD is numbered, and its register is watched for its bound: twice the transit to the home of a page that its die
has at hand, and 1,024; what it finds of its strand's own writes goes with it (P1). An RFL has no number; an MGRP and an MLR
have. A full queue that passes no word in this cc blocks the bundle (R137), and an address that is not aligned traps; under DET so
does a sum of floating-point or log elements without TP (R322). RFQ pops a record into gd and gd + 1, and RSTA writes the status
of Table FAB-7, both with bound 4; a clear keeps what was recorded in its own cc. -/
def Obligations.FabricWords : Prop :=
  ∀ (a b d : Reg) (op : RamOp) (w sg all clr tp cpl : Bool) (slot : BitVec 4) (mop : MlrOp) (ty : MlrType) (s : State),
    let ga := s.me.readG a
    let gb := s.me.readG b
    let n := if w then 8 else 4
    let o := s.origin s.me.seqs.fabric
    let f := s.me.f
    let room := s.myTile.fabCount < 16 ∨ s.fabPops s.bun.tile = true
    let keeps := s.det = true ∧ mop = .sum ∧ ty ≠ .i32 ∧ tp = false
    (∀ r ∈ [(Instr.rsw a b w, EntryKind.store), (.ram a b op w, .ram op)], ga.toNat % n = 0 → room →
      ∃ t, exec r.1 s = .next t ∧ Queued s t (.entry r.2 ga (if w then gb else gb &&& 0xFFFFFFFF#64) w o s.cc)
        { fabNumbered s.me true with digest := (s.me.foldBytes ga.toNat (leBytes n gb.toNat)).digest }) ∧
    (ga.toNat % n = 0 → room → ∃ t due, exec (.rld d a w sg) s = .next t ∧
      Queued s t (.load ga n sg d o due s.me.bundleSeq ((List.range n).map fun i => s.me.ownWrite false (ga.toNat + i)))
        { fabNumbered s.me false with
          outst := s.me.outst ++ [⟨5, s.me.seqs.fabric, false, s.me.node.map (·.index), true⟩]
          board := (if d = 0 then [] else [(.g d, due)]) ++ s.me.board } ∧
      ∀ e, s.xlate s.myCluster ga = .hit e false →
        due = s.cc + (if stnOf e.peer ≤ 7 ∧ s.absent e.peer = false then 2 * s.transit s.myDie e.peer else 0) + 1024) ∧
    (s.bun.checked = false → ∀ i ∈ [Instr.rsw a b w, .ram a b op w, .rld d a w sg],
      (ga.toNat % n ≠ 0 → exec i s = .next (s.trapHere .align (some ga) none)) ∧
      (ga.toNat % n = 0 → ¬room → exec i s = .next (s.blockOn .fabricQueue))) ∧
    (room →
      (∃ t, exec (.rfl a all) s = .next t ∧ Queued s t (.flush all (ga.setWidth 16) (s.origin 0)) s.me) ∧
      (∃ t, exec (.mgrp slot) s = .next t ∧ Queued s t (.group slot f[0] o) (fabNumbered s.me false)) ∧
      (¬keeps → ∃ t m, exec (.mlr mop ty tp cpl) s = .next t ∧ Queued s t (.reduce m) (fabNumbered s.me false) ∧ m.org = o ∧ m.op = mop ∧
        m.type = ty ∧ m.tp = tp ∧ m.cpl = cpl ∧ m.src = f[0] ∧ m.dst = f[1] ∧
        m.n = (if f[2].toNat % 2 ^ 24 = 0 then 2 ^ 24 else f[2].toNat % 2 ^ 24) ∧ m.otype = f[2].toNat / 2 ^ 32 % 8 ∧
        m.exp = f[3] ∧ m.ctr.toNat = f[4].toNat % 2 ^ 24 ∧ m.inc.toNat = f[4].toNat / 2 ^ 32 ∧ m.slot.toNat = f[5].toNat % 16)) ∧
    (s.bun.checked = false → ¬room → ∀ i ∈ [Instr.rfl a all, .mgrp slot, .mlr mop ty tp cpl],
      (i = .mlr mop ty tp cpl → ¬keeps) → exec i s = .next (s.blockOn .fabricQueue)) ∧
    (s.bun.checked = false → keeps → exec (.mlr mop ty tp cpl) s = .next (s.trapHere .illegal none none)) ∧
    (∃ t u lo hi, exec (.rfq d) s = .next t ∧ OnlyRemoteFaults s u ∧ u.myTile.rfq = s.myTile.rfq.tail ∧
      { u.myTile with rfq := s.myTile.rfq } = s.myTile ∧ PostsAll u t 4 [.g d lo, .g (d + 1) hi] ∧
      (s.myTile.rfq = [] → lo = 0 ∧ hi = 0) ∧
      ∀ r, s.myTile.rfq.head? = some r → lo = r.addr ∧ hi.extractLsb' 0 32 = BitVec.ofNat 32 r.seq ∧
        hi.extractLsb' 32 2 = BitVec.ofNat 2 r.strand ∧ hi.extractLsb' 34 16 = r.peer ∧
        hi.extractLsb' 50 4 = BitVec.ofNat 4 r.kind ∧ hi.getLsbD 54 = r.dbl ∧ hi.extractLsb' 55 4 = BitVec.ofNat 4 r.xcause ∧
        hi.extractLsb' 59 4 = BitVec.ofNat 4 r.cause ∧ hi.getLsbD 63 = true) ∧
    ∃ t u v, exec (.rsta d clr) s = .next t ∧ Posts s u 4 (.g d v) ∧ OnlyRemoteFaults u t ∧ t.myTile.rfq = s.myTile.rfq ∧
      (t.myTile.fOvf, t.myTile.fFaults, t.myTile.fCause) =
        (if !clr then (s.myTile.fOvf, s.myTile.fFaults, s.myTile.fCause)
        else if s.myTile.fNew.1 = s.cc then (0, s.myTile.fNew.2, s.myTile.fCause) else (0, 0, 0)) ∧
      v.getLsbD 0 = s.mlrBusy s.bun.tile s.bun.strand ∧ v.extractLsb' 4 4 = BitVec.ofNat 4 s.myTile.fCause ∧
      v.extractLsb' 11 5 = BitVec.ofNat 5 s.myTile.rfq.length ∧ v.extractLsb' 16 16 = BitVec.ofNat 16 s.myTile.fOvf ∧
      v.extractLsb' 32 16 = BitVec.ofNat 16 s.myTile.fFaults ∧
      v.extractLsb' 56 8 = BitVec.ofNat 8 (s.die s.myDie).ricks.length

/-- R237 to R240, R249: a fabric queue passes its head in one cc and no other before the next. An entry whose page its
cluster has at hand goes to its peer's rick of its launch: a store takes the place of the last entry of its address, home and
size when no later entry touches its bytes, any other entry goes to the end, and a new rick departs when its first entry has been
issued for AGELIMIT, or in this cc behind a flush of this cc. A store to a read-only page is skipped and leaves a record (R244,
R245). A flush has the ricks it names depart in this cc. A rick departs as one cord with its entries in order, within the transit
bound, and is free in the next cc. -/
def Obligations.FabricQueues : Prop :=
  (∀ (n : Nat) (s : State), s.cc < (s.tile n).fqCc → exec (.fabricQueueArrival n) s = .next s) ∧
  (∀ (n : Nat) (k : EntryKind) (va data : DWord) (w : Bool) (o : Origin) (issue : Nat) (rest : List FabItem) (e : TlbEntry)
      (s : State), let d := dieOf n
    let en : Entry := ⟨k, va, e.peer, e.offset va.toNat, data, w, o, []⟩
    let mine (r : Rick) : Bool := r.peer == e.peer && r.launch == s.queueOf n && !r.aged s.cc
    (s.tile n).fqCc ≤ s.cc → (s.tile n).fq = .entry k va data w o issue :: rest → (∀ p r, rest.head? ≠ some (.drain p r)) →
    o.tile = n → k ≠ .cadd → s.xlate (clusterOf n) va = .hit e false → stnOf e.peer ≤ 7 → s.absent e.peer = false →
    (e.ro = true → (s.strand n o.strand).rels = []) → ∃ t, exec (.fabricQueueArrival n) s = .next t ∧ (t.tile n).fq = rest ∧ (t.tile n).fqCc = s.cc + 1 ∧ SameBytes s t ∧
      (rest ≠ [] → (keyOf (s.cc + 1) (slotQueue n), Event.fabricQueueArrival n) ∈ t.agenda) ∧
      (e.ro = true → (t.die d).ricks = (s.die d).ricks ∧
        ∃ r, (t.tile n).rfNew = (s.tile n).rfNew ++ [r] ∧ r.cause = 1 ∧ r.xcause = 2 ∧ r.addr = va ∧ r.seq = o.seq ∧
          r.strand = o.strand ∧ r.dbl = w) ∧
      (e.ro = false → (∀ r ∈ (s.die d).ricks, mine r = false) →
        (s.die d).ricks.length + (if (s.die d).freed.1 = s.cc then (s.die d).freed.2 else 0) < 128 → ∃ r p,
        (t.die d).ricks = (s.die d).ricks ++ [r] ∧ r.peer = e.peer ∧ r.launch = s.queueOf n ∧ r.entries = [p] ∧ p.e = en ∧
        p.issue = issue ∧ r.limit = (SMap.get CtxSet.reset (s.die d).sets r.launch).age ∧
        ((if (s.cc, e.peer, s.queueOf n) ∈ (s.die d).flushing then keyOf s.cc slotFlush
          else keyOf (max s.cc (issue + r.limit)) slotAge), Event.rickAgeDeparture d r.id) ∈ t.agenda) ∧
      (∀ r, e.ro = false → (s.die d).ricks = [r] → mine r = true → r.entries.length < 31 →
        (k = .store → ∀ q ∈ r.entries, q.e.kind = .store → q.e.va = va → q.e.off = en.off → q.e.dbl ≠ w) →
        ∃ q, q.e = en ∧ q.issue = issue ∧ (t.die d).ricks = [{ r with entries := r.entries ++ [q] }]) ∧
      ∀ r pre p post, e.ro = false → (s.die d).ricks = [r] → mine r = true → r.entries = pre ++ p :: post →
        k = .store → p.e.kind = .store → p.e.va = va → p.e.off = en.off → p.e.dbl = w →
        (∀ q ∈ post, q.e.kind = .cadd ∨ q.e.off + (if q.e.dbl then 8 else 4) ≤ en.off ∨ en.off + (if w then 8 else 4) ≤ q.e.off) →
        (t.die d).ricks = [{ r with
          entries := pre ++ { p with e := { p.e with data := data, org := o, also := p.e.org :: p.e.also } } :: post }]) ∧
  (∀ (n : Nat) (all : Bool) (peer : BitVec 16) (o : Origin) (rest : List FabItem) (r : Rick) (s : State),
    (s.tile n).fqCc ≤ s.cc → (s.tile n).fq = .flush all peer o :: rest → (∀ p r, rest.head? ≠ some (.drain p r)) → o.tile = n →
    ∃ t, exec (.fabricQueueArrival n) s = .next t ∧ (t.tile n).fq = rest ∧ SameBytes s t ∧
      (∀ m, { t.die m with flushing := (s.die m).flushing } = s.die m) ∧
      (all = false → (s.cc, peer, s.queueOf n) ∈ (t.die (dieOf n)).flushing) ∧
      (r ∈ (s.die (dieOf n)).ricks → (if all then r.holds n o.strand else r.peer == peer && r.launch == s.queueOf n) = true →
        (keyOf s.cc slotFlush, Event.rickAgeDeparture (dieOf n) r.id) ∈ t.agenda)) ∧
  ∀ (d id : Nat) (s : State),
    ((∀ r ∈ (s.die d).ricks, r.id ≠ id) → exec (.rickAgeDeparture d id) s = .next s) ∧
    ∀ r, (s.die d).ricks.find? (·.id == id) = some r → s.slack = [] → ∃ t c, exec (.rickAgeDeparture d id) s = .next t ∧
      { t with agenda := s.agenda, dies := s.dies, cordNext := s.cordNext, ports := s.ports, fresh := s.fresh } = s ∧
      (∀ m, m ≠ d → t.die m = s.die m) ∧
      t.die d = { s.die d with
        ricks := (s.die d).ricks.filter (·.id ≠ id)
        freed := (s.cc, if (s.die d).freed.1 = s.cc then (s.die d).freed.2 + 1 else 1) } ∧
      (keyOf (s.cc + s.transit d r.peer) slotRing, Event.ringSlotArrival (.cord c) 1 false) ∈ t.agenda ∧
      c.entries = r.entries.map (·.e) ∧ c.peer = r.peer ∧ c.die = d ∧ c.id = s.cordNext ∧ c.due = s.cc + s.transit d r.peer

/-- R231 to R234, R240, R247, R248: a refused packet, cord or remote load, arrives once more, by its bound, and is then accepted;
the home serves a source's packets in the order they left, and each entry of a cord in its place: the value of each stands in its
bytes, a later one over an earlier one, and no other byte changes. A load reads its home so, with its strand's own writes over a
page of its own memory, and its register is written at its bound. A packet leaves the package by the port of its route: along X,
then Y, then Z, the shorter way, the positive one of two equal ones (the numbers of the ports are the model's: log 43). A flit
that fails is retried three times; at the fourth failure the launches whose traffic goes through that port are held on it, and its
lanes are tested. -/
def Obligations.FabricHomes : Prop :=
  (∀ (p : Packet) (lap : Nat) (refused : Bool) (s : State), ∃ t, exec (.ringSlotArrival p lap refused) s = .next t ∧
    { t with agenda := s.agenda, slack := s.slack } = s ∧
    if refused = true ∧ lap = 1 ∧ s.cc < packetDue p then ∃ due, s.cc < due ∧ due ≤ packetDue p ∧
      t.agenda = insertKey (keyOf due slotRing) (.ringSlotArrival p 2 false) s.agenda
    else t.agenda = match p with
      | .cord c => insertKey (keyOf s.cc slotRing) (.cordPerform c) s.agenda
      | .load r => insertKey (keyOf s.cc slotLoad) (.remoteLoadRequest r) s.agenda) ∧
  (∀ (p b : Packet) (x : Nat × Event) (s : State), x ∈ s.agenda → packetOf x.2 = some b → packetDie b = packetDie p →
    packetPeer b = packetPeer p → packetId b < packetId p →
    (∀ c, p = .cord c → ∃ t, exec (.cordPerform c) s = .next t ∧ { t with agenda := s.agenda } = s ∧
      t.agenda = insertKey (keyOf (s.cc + 1) slotRing) (.cordPerform c) s.agenda) ∧
    ∀ r, p = .load r → r.sent.isSome → ∃ t, exec (.remoteLoadRequest r) s = .next t ∧ { t with agenda := s.agenda } = s ∧
      t.agenda = insertKey (keyOf (s.cc + 1) slotLoad) (.remoteLoadRequest r) s.agenda) ∧
  (∀ (c : Cord) (s : State), let d := stnOf c.peer
    (∀ x ∈ s.agenda, packetOf x.2 = none) → s.ownPackage c.peer = true → (s.die d).bad = [] → (s.die d).mem.wf = true →
    (∀ e ∈ c.entries, e.kind ≠ .cadd ∧ e.also = [] ∧ s.shared d e.off = false ∧ (s.strand e.org.tile e.org.strand).rels = []) →
    ∃ t, exec (.cordPerform c) s = .next t ∧
      (∀ e ∈ c.entries, ∀ o ∈ (t.strand e.org.tile e.org.strand).outst, ¬(o.engine = 5 ∧ o.seq = e.org.seq)) ∧
      (∀ a, (t.die d).mem.read a = specCord c.entries (s.die d).mem.read a) ∧
      (∀ m, m ≠ d → t.die m = s.die m) ∧ t.clusters = s.clusters ∧ ∀ m, (t.tile m).scratch = (s.tile m).scratch) ∧
  (∀ (r : RemoteLoad) (s : State), let d := stnOf r.peer
    let old := (s.strand r.org.tile r.org.strand)
    (r.sent = none → s.slack = [] → ∃ t, exec (.remoteLoadRequest r) s = .next t ∧
      { t with agenda := s.agenda, cordNext := s.cordNext, ports := s.ports, fresh := s.fresh } = s ∧
      let due := s.cc + s.transit (dieOf r.org.tile) r.peer
      (keyOf due slotRing, Event.ringSlotArrival (.load { r with sent := some (s.cordNext, due) }) 1 false) ∈ t.agenda) ∧
    (r.sent.isSome → (∀ x ∈ s.agenda, packetOf x.2 = none) → s.ownPackage r.peer = true → (s.die d).bad = [] →
      (s.die d).mem.wf = true → 1 ≤ r.size → ∃ t, exec (.remoteLoadRequest r) s = .next t ∧ Leaves s t r.org r.engine ∧ SameBytes s t ∧
        (t.strand r.org.tile r.org.strand).faults = old.faults ∧
        let bs := (List.range r.size).map fun i => (if r.mode = 0 then (r.own[i]?).getD none else none).getD ((s.die d).mem.read (r.off + i))
        (keyOf (max s.cc r.due) 0, Event.pendingWriteComplete r.org.tile r.org.strand (.g r.dest (specLoaded r.signed bs))) ∈
          t.agenda)) ∧
  (∀ (p : BitVec 16) (s : State), s.absent p = false → s.absent (s.peerOf 0) = false → s.portTo p = specPort s p) ∧
  ∀ (port tries : Nat) (s : State),
    (tries < 4 → exec (.flitCrcFailure port tries) s = .next s) ∧
    (4 ≤ tries → ∃ t, exec (.flitCrcFailure port tries) s = .next t ∧
      { t with ports := s.ports, tests := s.tests, agenda := s.agenda } = s ∧
      (∀ i, i ≠ port → SMap.find t.ports i = SMap.find s.ports i) ∧
      (∀ q, q ∈ SMap.get [] t.ports port ↔ q ∈ SMap.get [] s.ports port ∨ ThroughPort s port q) ∧
      if s.launches.any fun l => l.2.phase == .running || l.2.phase == .between then t.tests = s.tests ++ [⟨8, 0, 0, port⟩]
      else (keyOf s.cc 14, Event.selfTestStart ⟨8, 0, 0, port⟩) ∈ t.agenda)

/-- R252 to R258: MGRP and MLR leave their strand when they complete. A member that joins waits, with its deadline, for the
others of its reduction: those of its group under its tag and number, not those of another group (R253); when the last has joined
and they agree, each completes within one or two phases of the largest transit. A member that still waits at its deadline fails with PEER_ABSENT and takes the fabric-fault trap, with no byte
written. At its completion a member of an i32 sum holds, from f1 on, the exact sums of all members, saturated. -/
def Obligations.CollectiveRuns : Prop :=
  (∀ (o : Origin) (slot : BitVec 4) (addr : DWord) (s : State), ∃ t, exec (.mgrpComplete o slot addr) s = .next t ∧
    Leaves s t o 5 ∧ SameBytes s t ∧ t.dies = s.dies ∧ t.clusters = s.clusters ∧ t.mlrs = s.mlrs) ∧
  (∀ (m : MlrMember) (s : State), let m' : MlrMember := { m with id := s.mlrNext, start := s.cc, phase := .joined }
    let parts := specParts (s.mlrs ++ [m']) m'
    ∃ t, exec (.mlrJoin m) s = .next t ∧ t.mlrNext = s.mlrNext + 1 ∧ t.tiles = s.tiles ∧ t.clusters = s.clusters ∧
      t.dies = s.dies ∧ (keyOf (s.cc + m.window) slotDeadline, Event.mlrJoinDeadline s.mlrNext) ∈ t.agenda ∧
      (∀ p ∈ m.members, (∀ x ∈ s.mlrs ++ [m'], x.tag = m.tag → x.round = m.round → x.phase = .failed ∨ x.peer ≠ p) →
        t.mlrs = s.mlrs ++ [m']) ∧
      (s.slack = [] → MlrTogether (s.mlrs ++ [m']) m' → (∀ x ∈ parts, x.phase = .joined) →
        (∀ p ∈ m.members, ∃ y ∈ parts, y.peer = p) → (∀ x ∈ parts, ∀ y ∈ parts, mlrAgrees x y = true) →
        (∀ p ∈ m.members, (p, m.tag, m.round) ∉ s.mlrFailed) → ∀ x ∈ parts, { x with phase := .resolved, fail := none } ∈ t.mlrs ∧
          (x.local_ = true → ∃ b, (keyOf (s.cc + b) slotFabric, Event.mlrComplete x.id) ∈ t.agenda ∧
            ((∀ p ∈ x.members, ∀ q ∈ x.members, s.between p q ≤ 128) →
              b ≤ (if x.op = .sum ∧ x.tp = true then 2 else 1) * (2 * 128 + 512 + (x.n + 31) / 32))))) ∧
  (∀ (m : MlrMember) (s : State), s.mlrs.find? (·.id == m.id) = some m →
    (m.phase ≠ .joined → exec (.mlrJoinDeadline m.id) s = .next s) ∧
    (m.phase = .joined → m.local_ = true → ∃ t, exec (.mlrJoinDeadline m.id) s = .next t ∧
      { t with agenda := s.agenda, mlrs := s.mlrs, mlrFailed := s.mlrFailed } = s ∧
      t.mlrs = s.mlrs.map (fun x => if x.id = m.id then { x with phase := .resolved, fail := some (3, 0, x.src) } else x) ∧
      (∀ f, f ∈ t.mlrFailed ↔ f = (m.peer, m.tag, m.round) ∨ f ∈ s.mlrFailed) ∧
      (keyOf (s.cc + 1) slotFabric, Event.mlrComplete m.id) ∈ t.agenda)) ∧
  ∀ (m : MlrMember) (s : State), s.mlrs.find? (·.id == m.id) = some m → m.local_ = true → m.cpl = false →
    (∀ f, m.phase = .resolved ∨ m.phase = .failed → m.fail = some f → ∃ t, exec (.mlrComplete m.id) s = .next t ∧
      Leaves s t m.org 5 ∧ SameBytes s t ∧ (t.tile m.org.tile).fCause = f.1 ∧
      FaultsOf s t m.org .fabric 5 (BitVec.ofNat 32 (f.1 % 16 + f.2.1 % 16 * 16 + m.slot.toNat * 256)) f.2.2) ∧
    ∀ e : TlbEntry, let d := dieOf m.org.tile
      let off := e.offset m.dst.toNat
      m.phase = .resolved → m.fail = none → m.op = .sum → m.type = .i32 → m.otype = 0 → m.dst.toNat % 4 = 0 →
      MlrTogether s.mlrs m →
      (∀ i, i < m.n → s.xlate (clusterOf m.org.tile) (BitVec.ofNat 64 (m.dst.toNat + 4 * i)) = .hit e false) →
      m.dst.toNat + 4 * m.n ≤ 2 ^ 52 → e.mode = 0 → e.ro = false → s.ownPackage e.peer = true → s.absent e.peer = false →
      stnOf e.peer = d → (s.die d).holders = [] → (s.die d).bad = [] → (s.die d).mem.wf = true →
      ∃ t, exec (.mlrComplete m.id) s = .next t ∧ Leaves s t m.org 5 ∧
        (t.strand m.org.tile m.org.strand).faults = (s.strand m.org.tile m.org.strand).faults ∧
        (∀ i, i < m.n → leNat ((t.die d).mem.reads (off + 4 * i) 4) =
          let sum := ((specParts s.mlrs m).map fun x => (x.data.getD i 0).toInt).sum
          (BitVec.ofInt 32 (max (-2 ^ 31) (min (2 ^ 31 - 1) sum))).toNat) ∧
        (∀ a, (a < off ∨ off + 4 * m.n ≤ a) → (t.die d).mem.read a = (s.die d).mem.read a) ∧
        (∀ k, k ≠ d → t.die k = s.die k) ∧ t.clusters = s.clusters ∧ ∀ k, (t.tile k).scratch = (s.tile k).scratch

/-! ### Class Y, counters, barriers, digests -/

/-- R273 to R281: a Y word takes a number of its strand. A local CADD enters its tile's queue of 8, and its add falls due
within the bound of its counter unless a release before it is not complete; a remote CADD is an entry of the fabric queue; an
id out of range traps, a full queue blocks. CWT passes when its counter has reached its value and CRD reads it with its
bound. AARM sets TARGET and COUNT of an arrival word, and AWT passes when GEN has reached its value, with wraparound. BAR
passes when its generation has; FEN when its strand has no command outstanding on a selected engine. DGS starts, stops, reads
and folds. A word that does not pass blocks. -/
def Obligations.SyncWords : Prop :=
  ∀ (a b d : Reg) (acq ss : Bool) (sc : Scope) (mask : BitVec 8) (peer : LWord) (s : State),
    let ga := s.me.readG a
    let gb := s.me.readG b
    let id := ga.toNat % 2 ^ 24
    let my := s.bun.tile
    let aw := ga.toNat
    let gen := BitVec.ofNat 32 (s.myTile.readNat (aw + 8) 4)
    let seen := (gen - gb.setWidth 32).toNat < 2 ^ 31
    (s.ctrOk s.myDie id = true → s.myTile.yq.length < 8 → ∃ t o, exec (.cadd a b false) s = .next t ∧ OnlyTileOf s { t with slack := s.slack } my ∧
      SameBytes s t ∧ t.me = addIssued s.me ∧ (∀ k, k ≠ s.bun.strand → t.strand my k = s.strand my k) ∧
      { t.myTile with strands := s.myTile.strands, yq := s.myTile.yq } = s.myTile ∧ o = s.origin s.me.seqs.sync ∧
      t.myTile.yq = s.myTile.yq ++ [⟨id, gb, o, (s.me.rels.map (·.id)).getLast?, s.me.rels.isEmpty⟩] ∧
      (s.me.rels = [] → t.agenda = insertKey (keyOf (s.dueCc (if id < 65536 then 64 else 1024)) (slotCore my))
        (.counterAdd s.myDie id gb (.cadd o)) s.agenda) ∧ (s.me.rels ≠ [] → t.agenda = s.agenda)) ∧
    (s.bun.checked = false → s.ctrOk s.myDie id = false → ∀ i ∈ [Instr.cadd a b acq, .cwt a b acq, .crd a d],
      exec i s = .next (s.trapHere .counterRange (some (BitVec.ofNat 64 id)) none)) ∧
    (s.bun.checked = false → s.ctrOk s.myDie id = true → 8 ≤ s.myTile.yq.length →
      exec (.cadd a b acq) s = .next (s.blockOn .syncQueue)) ∧
    ((s.myTile.fabCount < 16 ∨ s.fabPops my = true) → ∃ t, exec (.caddRemote a b false peer) s = .next t ∧
      Queued s t (.remoteAdd id gb (peer.setWidth 16) (s.origin s.me.seqs.fabric) s.cc (s.me.rels.map (·.id)).getLast?)
        (fabNumbered (yStrand s.me) true)) ∧
    (s.bun.checked = false → 16 ≤ s.myTile.fabCount → s.fabPops my = false →
      exec (.caddRemote a b acq peer) s = .next (s.blockOn .fabricQueue)) ∧
    (s.ctrOk s.myDie id = true → let v := s.ctrGet s.myDie id;
      (gb.toNat ≤ v.toNat → ∃ t, exec (.cwt a b acq) s = .next t ∧ OnlyMeIs s t (yStrand s.me)) ∧
      (s.bun.checked = false → v.toNat < gb.toNat → exec (.cwt a b acq) s = .next (s.blockOn (.counter id gb))) ∧
      let bound := if id < 65536 then 64 else 1024
      (∃ t, exec (.crd a d) s = .next t ∧ OtherStrands s t ∧ SameBytes s t ∧ { t.me with board := s.me.board } = yStrand s.me ∧
        (keyOf (s.cc + bound) 0, Event.pendingWriteComplete my s.bun.strand (.g d v)) ∈ t.agenda) ∧
      ((id < 65536 ∨ ((s.die s.myDie).bad = [] ∧ (s.die s.myDie).wrong = [])) → ∃ t u, exec (.crd a d) s = .next t ∧
        OnlyMeIs s u (yStrand s.me) ∧ Posts u t bound (.g d v))) ∧
    (s.bun.checked = false → ∀ i ∈ [Instr.aarm a b, .awt a b acq],
      (aw % 16 ≠ 0 → exec i s = .next (s.trapHere .align (some ga) none)) ∧
      (aw % 16 = 0 → 0x200000 < aw + 16 → exec i s = .next (s.trapHere .scratchRange (some ga) none))) ∧
    (aw % 16 = 0 → aw + 16 ≤ 0x200000 →
      (s.myTile.pairs = [] → s.myTile.scratch.wf = true → ∃ t, exec (.aarm a b) s = .next t ∧
        OnlyTileOf s t my ∧ t.agenda = s.agenda ∧ { t.myTile with strands := s.myTile.strands, scratch := s.myTile.scratch } = s.myTile ∧
        t.me = yStrand s.me ∧ (∀ k, k ≠ s.bun.strand → t.strand my k = s.strand my k) ∧
        t.myTile.readNat aw 4 = gb.toNat % 2 ^ 32 ∧ t.myTile.readNat (aw + 4) 4 = 0 ∧
        ∀ p, (p < aw ∨ aw + 8 ≤ p) → t.myTile.scratch.read p = s.myTile.scratch.read p) ∧
      (seen → ∃ t, exec (.awt a b acq) s = .next t ∧ OnlyMeIs s t (yStrand s.me)) ∧
      (s.bun.checked = false → ¬seen → exec (.awt a b acq) s = .next (s.blockOn (.arrival aw (gb.setWidth 32))))) ∧
    (∃ t, exec (.phs false acq sc) s = .next t ∧ OnlyMeIs s t (yStrand s.me)) ∧
    (∀ g, SMap.find s.me.barPassed (Machine.scopeCode sc) = some g → s.me.mismatch = false → ∃ t, exec (.bar ss sc) s = .next t ∧
      OnlyMeIs s t { yStrand s.me with
        splitGen := some g, mismatch := false, barPassed := SMap.del s.me.barPassed (Machine.scopeCode sc) }) ∧
    (s.bun.checked = false → SMap.find s.me.barPassed (Machine.scopeCode sc) = none →
      exec (.bar ss sc) s = .next (s.blockOn (.barrier sc ss))) ∧
    (let busy := (∃ o ∈ s.me.outst, o.load = false ∧ ∃ i < 6, mask.getLsbD i = true ∧ o.engine = fenEngine i);
      (¬busy → ∃ t, exec (.fen mask) s = .next t ∧ OnlyMeIs s t (yStrand s.me)) ∧
      (s.bun.checked = false → busy → exec (.fen mask) s = .next (s.blockOn (.engines mask)))) ∧
    (∃ t, exec .dgsOn s = .next t ∧ OnlyMeIs s t { yStrand s.me with folding := true }) ∧
    (∃ t, exec .dgsOff s = .next t ∧ OnlyMeIs s t { yStrand s.me with folding := false }) ∧
    (∃ t u, exec (.dgsRd d) s = .next t ∧ OnlyMeIs s u (yStrand s.me) ∧
      PostsAll u t 4 [.g d (s.me.digest.extractLsb' 0 64), .g (d + 1) (s.me.digest.extractLsb' 64 64)]) ∧
    ∃ t, exec (.dgsFold a b) s = .next t ∧
      OnlyMeIs s t { yStrand s.me with digest := s.me.digest + digestH aw (gb.setWidth 32) }

/-- R262, R263, R278, R84: a release puts the words its strand owns on their way to their homes, where they are performed within
4,096 cc; it folds the global ones and waits for the entries before it, which depart. When they are performed, the homes hold
the bytes that the strand wrote, those of the store only within its size, every other byte stays, and a release without entries
is complete. -/
def Obligations.Releases : Prop :=
  (∀ (acq : Bool) (sc : Scope) (s : State), s.me.owned ≠ [] → s.slack = [] → s.myTile.fq = [] →
    (∀ r ∈ s.me.rels, (r.written && r.entries.isEmpty) = false) → ∃ t r, exec (.phs true acq sc) s = .next t ∧ SameBytes s t ∧
      t.me.owned = [] ∧ t.me.rels = s.me.rels ++ [r] ∧ r.id = s.me.relNext ∧ t.me.relNext = s.me.relNext + 1 ∧
      r.words = s.me.owned ∧ r.written = false ∧ r.entries = (s.me.outst.filter (·.entry)).map (·.seq) ∧
      t.me.digest = digestAfter s.me ∧ t.me.splitGen = none ∧ t.me.seqs.sync = (s.me.seqs.sync + 1) % 2 ^ 32 ∧
      (keyOf (s.cc + 4096) 3, Event.releaseComplete s.bun.tile s.bun.strand r.id) ∈ t.agenda ∧
      (∀ q ∈ (s.die s.myDie).ricks, q.holds s.bun.tile s.bun.strand = true →
        (keyOf s.cc slotFlush, Event.rickAgeDeparture s.myDie q.id) ∈ t.agenda) ∧
      (∀ k, k ≠ s.bun.strand → t.strand s.bun.tile k = s.strand s.bun.tile k) ∧ ∀ m, m ≠ s.bun.tile → t.tile m = s.tile m) ∧
  ∀ (n k d : Nat) (r : Release) (s : State), (s.strand n k).rels = [r] → r.written = false → r.entries = [] → r.halts = false →
    s.bars = [] → (s.tile n).yq = [] → (s.die d).mem.wf = true → (s.die d).bad = [] → (s.die d).holders = [] →
    (s.cluster (clusterOf n)).store.wf = true →
    ((∀ w ∈ r.words, w.store = false ∧ w.die = d) → ∃ t, exec (.releaseComplete n k r.id) s = .next t ∧ (t.strand n k).rels = [] ∧
      (∀ a, (t.die d).mem.read a = publishedAt (·.off) r.words a ((s.die d).mem.read a)) ∧
      (∀ m, m ≠ d → t.die m = s.die m) ∧ t.clusters = s.clusters ∧ ∀ m, (t.tile m).scratch = (s.tile m).scratch) ∧
    ((∀ w ∈ r.words, w.store = true) → ∃ t, exec (.releaseComplete n k r.id) s = .next t ∧ (t.strand n k).rels = [] ∧
      (∀ a, let x := s.cluster (clusterOf n)
        (t.cluster (clusterOf n)).store.read a = if a < x.storeSize then publishedAt (4 * ·.word) r.words a (x.store.read a)
          else x.store.read a) ∧
      t.dies = s.dies ∧ (∀ c, c ≠ clusterOf n → t.cluster c = s.cluster c) ∧ ∀ m, (t.tile m).scratch = (s.tile m).scratch)

/-- R270, R273, R274, R279, R104: a wait that is satisfied makes its strand ready, and an idle core looks again by the next
cc. An add raises its counter by its increment, and no other; strands that wait for a value now reached become ready within
64 cc. An add that would pass 2^64 - 1 or whose id lies beyond the die's counters leaves every counter, and its strand takes
the counter-fault trap. A barrier whose participants have all joined and released completes within the bound of its scope,
and its participants are ready; what the homes refused of their releases is then a fault of theirs (R111). Completions are numbered in their
order (R88). A page walk that found a leaf puts it into its cluster's TLB, pinned if it maps part of the reservation (R105). -/
def Obligations.SyncRuns : Prop :=
  (∀ (n k : Nat) (s : State), ∃ t, exec (.waitSatisfied n k) s = .next t ∧ { t with tiles := s.tiles } = s ∧
    (∀ m, m ≠ n → t.tile m = s.tile m) ∧ { t.tile n with strands := (s.tile n).strands, act := (s.tile n).act } = s.tile n ∧
    (∀ j, j ≠ k → t.strand n j = s.strand n j) ∧
    (let x := s.strand n k;
      t.strand n k = { x with
        wake := x.wake || x.block.isSome, cleared := if x.block.isSome then x.cleared.or (some s.cc) else x.cleared }) ∧
    ((s.tile n).running = none → ∃ c, (t.tile n).act = some c ∧ c ≤ s.cc + 1)) ∧
  (∀ (d id : Nat) (inc : DWord) (o : Origin) (s : State), let v := s.ctrGet d id
    (id < 65536 → v.toNat + inc.toNat < 2 ^ 64 → ∃ t u, exec (.counterAdd d id inc .silent) s = .next t ∧
      exec (.counterAdd d id inc (.cadd o)) s = .next u ∧ Leaves s u o 6 ∧
      (∀ x ∈ [t, u], (x.ctrGet d id).toNat = v.toNat + inc.toNat ∧ SameBytes s x ∧
        ∀ e j, j < 65536 → (e, j) ≠ (d, id) → x.ctrGet e j = s.ctrGet e j) ∧
      (∀ n, { t.tile n with strands := (s.tile n).strands } = s.tile n) ∧
      (∀ n k, { t.strand n k with cleared := (s.strand n k).cleared } = s.strand n k) ∧
      ∀ n k w, (s.strand n k).block = some (.counter id w) → (s.strand n k).wake = false → dieOf n = d →
        w.toNat ≤ v.toNat + inc.toNat → (t.strand n k).cleared = (s.strand n k).cleared.or (some s.cc) ∧
          ∃ key, (key, Event.waitSatisfied n k) ∈ t.agenda ∧ key ≤ keyOf (s.cc + 64) 12) ∧
    ((s.ctrOk d id = false ∨ 2 ^ 64 ≤ v.toNat + inc.toNat) → exec (.counterAdd d id inc .silent) s = .next s ∧
      ∃ t, exec (.counterAdd d id inc (.cadd o)) s = .next t ∧ Leaves s t o 6 ∧ t.dies = s.dies ∧
        FaultsOf s t o .counter 6 (BitVec.ofNat 32 ((s.peerOf d).toNat * 65536 + if s.ctrOk d id then 2 else 1))
          (BitVec.ofNat 64 id))) ∧
  (∀ (b : Barrier) (s : State), s.bars.find? (·.id == b.id) = some b → s.parked b.launch = false → b.gang = false →
    (b.full = false → (∃ p ∈ s.participants b, ∀ j ∈ b.joined, (j.1, j.2.1) ≠ p) →
      exec (.barrierComplete b.id) s = .next s) ∧
    (b.full = true → b.due = none → s.slack = [] → (∀ j ∈ b.joined, (s.strand j.1 j.2.1).rels = []) →
      ∃ t, exec (.barrierComplete b.id) s = .next t ∧ { t with agenda := s.agenda, bars := s.bars } = s ∧
        t.bars = s.bars.map (fun c => if c.id = b.id then { c with due := some (s.cc + barBound b.scope) } else c) ∧
        (keyOf (s.cc + barBound b.scope) 11, Event.barrierComplete b.id) ∈ t.agenda) ∧
    (∀ due l, b.full = true → b.due = some due → due ≤ s.cc → s.launch b.launch = some l →
      (∀ j ∈ b.joined, j.2.2 = false) → ∃ t, exec (.barrierComplete b.id) s = .next t ∧
        t.bars = s.bars.filter (·.id ≠ b.id) ∧ SameBytes s t ∧ t.barCount = s.barCount + 1 ∧ ∀ j ∈ b.joined,
          let x := s.strand j.1 j.2.1
          let y := t.strand j.1 j.2.1
          SMap.find y.barPassed (Machine.scopeCode b.scope) = some (s.barCount + 1) ∧ y.mismatch = false ∧
          (x.block = some (.barrier b.scope false) → y.wake = true) ∧ y.barFaults = [] ∧
          y.faults = x.faults ++ x.barFaults.map fun i => (s.cc, i))) ∧
  ∀ (c page : Nat) (w : Walk) (s : State), (s.cluster c).walks.find? (·.page == page) = some w →
    ∃ t, exec (.pageWalkComplete c page) s = .next t ∧ SameBytes s t ∧
      { t with clusters := s.clusters, tiles := s.tiles, agenda := s.agenda, slack := s.slack } = s ∧
      (∀ m, m ≠ c → t.cluster m = s.cluster m) ∧ (t.cluster c).walks = (s.cluster c).walks.erase w ∧
      (w.res = none → (t.cluster c).tlb = (s.cluster c).tlb) ∧
      ∀ e, w.res = some e → let held := ∃ f ∈ (s.cluster c).tlb, f.ctx = e.ctx ∧ f.page ≤ page ∧ page < f.page + f.pages
        (held → (t.cluster c).tlb = (s.cluster c).tlb) ∧
        (¬held → (s.cluster c).tlb.length < 4096 →
          (t.cluster c).tlb = (s.cluster c).tlb ++ [{ e with pinned := s.reserved c e.page e.pages }])

/-! ### Class Z -/

/-- R40, R323: a Z word of unprivileged code traps, but for SRD of WAYPART. R324: SRD gives its register the system register
within 2 cc; SWR's word is in the strand's registers by its next bundle. R325: TRET restores privilege, leaves the handler and
transfers to TRAPPC; outside a handler it is illegal. R326: STOP sets the flags of the strands that it names within 1,024 cc.
R328: SLP passes once its deadline is reached, a selected queue holds a record, or its stop is requested; else it blocks.
R329: SFLT pops the oldest record to 64 aligned bytes of scratchpad, and gives whether there was one and how many were
dropped. -/
def Obligations.SystemWords : Prop :=
  ∀ (g b : Reg) (r : SysReg) (loops deep cnt all : Bool) (kind : StopKind) (mask : BitVec 5) (size : BitVec 5) (sc : Scope)
    (q : RecQueue) (s : State),
    let me := s.me
    let va := me.readG g
    let at_ := me.readG b
    (s.bun.checked = false → me.trap.priv = false → (r ≠ .waypart → exec (.srd g r) s = .next (s.trapHere .privileged none none)) ∧
      ∀ i ∈ [Instr.swr g r, .tret loops, .tlbi g b cnt all sc, .shot g b size cnt all sc, .csav g, .crst g, .stop g deep kind,
        .slp g mask, .sflt g b q], exec i s = .next (s.trapHere .privileged none none)) ∧
    (me.trap.priv = true ∨ r = .waypart → ∃ t, exec (.srd g r) s = .next t ∧
      Posts s t 2 (.g g (s.sysRead s.bun.tile s.bun.strand r))) ∧
    (me.trap.priv = true →
      (∃ t, exec (.swr g r) s = .next t ∧ { t with agenda := s.agenda, tiles := s.tiles } = s ∧ SameBytes s t ∧
        (keyOf (s.cc + 1) 0, Event.systemRegisterPropagate s.bun.tile s.bun.strand r va) ∈ t.agenda ∧
        (r ≠ .efrv → r ≠ .efra → t.tiles = s.tiles)) ∧
      (s.bun.checked = false → me.trap.inh = false → exec (.tret loops) s = .next (s.trapHere .illegal none none)) ∧
      (me.trap.inh = true → ∃ t, exec (.tret loops) s = .next t ∧ OnlyMeIs s { t with bun := s.bun }
        { me with trap := { me.trap with priv := me.trap.ppriv, inh := false } } ∧
        t.bun = { s.bun with target := some me.trap.pc, tret := some loops }) ∧
      (∃ t, exec (.stop g deep kind) s = .next t ∧ { t with agenda := s.agenda } = s ∧
        (∀ n k, specStops s kind va n k → s.slack = [] → (keyOf (s.cc + 1024) 14, Event.stopFlagSet n k deep) ∈ t.agenda) ∧
        ∀ e ∈ t.agenda, e ∉ s.agenda → ∃ n k, specStops s kind va n k ∧ e.2 = .stopFlagSet n k deep ∧ e.1 ≤ keyOf (s.cc + 1024) 14) ∧
      (let wakes := va.toNat ≤ s.cc ∨ s.queueReady s.bun.tile mask = true ∨ (mask.getLsbD 4 = true ∧ me.trap.pend = true);
        (wakes → exec (.slp g mask) s = .next s) ∧
        (s.bun.checked = false → ¬wakes → exec (.slp g mask) s = .next (s.blockOn (.sleep va mask)))) ∧
      (s.bun.checked = false → (at_.toNat % 64 ≠ 0 → exec (.sflt g b q) s = .next (s.trapHere .align (some at_) none)) ∧
        (at_.toNat % 64 = 0 → 0x200000 < at_.toNat + 64 → exec (.sflt g b q) s = .next (s.trapHere .scratchRange (some at_) none))) ∧
      (at_.toNat % 64 = 0 → at_.toNat + 64 ≤ 0x200000 →
        let x := s.die s.myDie
        let pop (l : List (List Byte)) (drops : Nat) (u : State) : Prop := ∃ t, exec (.sflt g b q) s = .next t ∧
          PostsAll u t 64 [.mem (s.myTile.phys at_.toNat) (match l with
            | [] => List.replicate 64 0
            | bs :: _ => bs ++ List.replicate (64 - bs.length) 0),
            .g g (BitVec.ofNat 64 ((if l = [] then 0 else 1) + 2 ^ 32 * (drops % 2 ^ 32)))];
        (q = .memory → pop x.memQ.recs x.memQ.drops (s.onDie s.myDie fun y => { y with
          memQ := { x.memQ with recs := x.memQ.recs.tail, drops := 0, popped := s.cc + 1 } })) ∧
        (q = .migration → pop x.migQ.recs x.migQ.drops (s.onDie s.myDie fun y => { y with
          migQ := { x.migQ with recs := x.migQ.recs.tail, drops := 0, popped := s.cc + 1 } })) ∧
        (q = .health → pop x.healthQ.recs x.healthQ.drops (s.onDie s.myDie fun y => { y with
          healthQ := { x.healthQ with recs := x.healthQ.recs.tail, drops := 0, popped := s.cc + 1 } })) ∧
        (q = .remote → pop (s.myTile.rfq.map fun e => leBytes 32 e.word) s.myTile.rfDrop
          (s.onMyTile fun y => { y with rfq := y.rfq.tail, rfDrop := 0 }))))

/-- R5, R323, R324: when a write of a system register takes effect, its fields read as they were written, but for values that
are out of range and fields that are read-only, which keep theirs; a one written to a flag clears it. A register of a strand
changes nothing else; no write changes a byte of memory. R71: the format fields of EFR.V and EFR.A read as they were written from
the strand's third bundle on, for another strand of the tile from the third cc on; codes that R52 and R69 refuse leave theirs. -/
def Obligations.RegisterWrites : Prop :=
  (∀ (n k : Nat) (r : SysReg) (w : DWord) (s : State), clusterOf n ∈ s.launchClusters n →
    let old := s.sysRead n k r
    ∃ t, exec (.systemRegisterPropagate n k r w) s = .next t ∧ SameBytes s t ∧ (ofStrand r = true → OnlyStrandOf s t n k) ∧
      (ofStrand r = false → r ≠ .stopflag → ∀ m j, t.strand m j = s.strand m j) ∧
      (∀ f ∈ sysFields r, (t.sysRead n k r).extractLsb' f.lo f.n = (if f.ok w then w else old).extractLsb' f.lo f.n) ∧
      (∀ f ∈ sysKept r, (t.sysRead n k r).extractLsb' f.1 f.2 = old.extractLsb' f.1 f.2) ∧
      (r = .efrv → t.sysRead n k r = old &&& ~~~(w &&& 0x3F)) ∧ (r = .efra → t.sysRead n k r = old &&& ~~~(w &&& 7))) ∧
  ∀ (g : Reg) (s : State), s.me.trap.priv = true →
    let w := s.me.readG g
    let n := s.bun.tile
    let k := s.bun.strand
    let x := s.me
    (∃ t, exec (.swr g .efrv) s = .next t ∧ ∀ i, (∀ e ∈ x.fmtVLog, e.fromBundle ≤ x.bundles + 3) →
      let at_ (u : State) : DWord := (u.onStrand n k fun y => { y with bundles := x.bundles + i }).sysRead n k .efrv
      (i < 3 → at_ t = at_ s) ∧ (3 ≤ i → ∀ f ∈ formatFields .efrv,
        (at_ t).extractLsb' f.lo f.n = (if f.ok w then w else at_ s).extractLsb' f.lo f.n)) ∧
    ∃ t, exec (.swr g .efra) s = .next t ∧
      (∀ i, (∀ e ∈ s.myTile.fmtALog, if e.strand = k then e.fromBundle ≤ x.bundles + 3 else e.fromCc ≤ s.cc) →
        let at_ (u : State) : DWord := (u.onStrand n k fun y => { y with bundles := x.bundles + i }).sysRead n k .efra
        (i < 3 → at_ t = at_ s) ∧ (3 ≤ i → ∀ f ∈ formatFields .efra,
          (at_ t).extractLsb' f.lo f.n = (if f.ok w then w else at_ s).extractLsb' f.lo f.n)) ∧
      ∀ j c, j ≠ k → (∀ e ∈ s.myTile.fmtALog, if e.strand = j then e.fromBundle ≤ (s.strand n j).bundles else e.fromCc ≤ s.cc + 3) →
        let at_ (u : State) : DWord := { u with cc := c }.sysRead n j .efra
        (c < s.cc + 3 → at_ t = at_ s) ∧ (s.cc + 3 ≤ c → ∀ f ∈ formatFields .efra,
          (at_ t).extractLsb' f.lo f.n = (if f.ok w then w else at_ s).extractLsb' f.lo f.n)

/-- R106 to R109, R101: TLBI and SHOT check their address and their tile's queue of 4, and are numbered. SHOT raises its context's
generation on the issuing die and leaves for every die. TLBI drops what it covers in its scope and completes within its bound;
a shoot-down that reaches a die sets its generation and drops translations and copies there; an owned word that it covers is
translated anew, or is a late-core trap of its strand (log 38). A home counts the dies that hold copies of a frame. A command that
completes leaves its queue, and adds to its counter behind the releases issued before it; its entries go at its bound all the
same. -/
def Obligations.TranslationCommands : Prop :=
  (∀ (a b : Reg) (size : BitVec 5) (cnt all : Bool) (sc : Scope) (s : State),
    let va := s.me.readG a
    let w := s.me.readG b
    let ok (n : Nat) := all = true ∨ (va.toNat < 2 ^ 52 ∧ va.toNat % 2 ^ n = 0)
    s.me.trap.priv = true →
    (s.bun.checked = false → (¬ok 0 → exec (.tlbi a b cnt all sc) s = .next (s.trapHere .invalidateRange (some va) (some 0x37))) ∧
      (¬ok (16 + size.toNat) → exec (.shot a b size cnt all sc) s = .next (s.trapHere .invalidateRange (some va) (some 0x37))) ∧
      (4 ≤ s.myTile.tq → (ok 0 → exec (.tlbi a b cnt all sc) s = .next (s.blockOn .transQueue)) ∧
        (ok (16 + size.toNat) → exec (.shot a b size cnt all sc) s = .next (s.blockOn .transQueue)))) ∧
    (s.myTile.tq < 4 →
      (ok 0 → ∃ t c key, exec (.tlbi a b cnt all sc) s = .next t ∧ TransStarts s t c va w false 0 cnt all sc ∧ t.dies = s.dies ∧
        key ≤ keyOf (s.cc + match sc with | .cluster => 64 | .die => 512 | _ => 2048) slotTrans ∧ (key, Event.tlbiComplete c) ∈ t.agenda) ∧
      (ok (16 + size.toNat) → ∃ t c, exec (.shot a b size cnt all sc) s = .next t ∧ TransStarts s t c va w true size.toNat cnt all sc ∧
        (∀ d, (t.die d).xgen = if d = s.myDie then SMap.put (s.die d).xgen c.ctx.toNat c.xgen else (s.die d).xgen) ∧
        c.xgen = s.xgenOf s.myDie c.ctx + 1 ∧ (∀ e, e < 8 → ∃ key, (key, Event.shootdownArrival e c) ∈ t.agenda) ∧
        ∃ key, (key, Event.shotComplete c) ∈ t.agenda))) ∧
  (∀ (c : TransCmd) (s : State),
    let inScope (k : Nat) : Bool := match c.scope with
      | .cluster => k == clusterOf c.org.tile
      | .die => k / 32 == dieOf c.org.tile
      | _ => k < 256
    let drops (k : Nat) : Bool := inScope k && !c.dropped
    let waits := c.cnt = true ∧ ∃ x ∈ (s.strand c.org.tile c.org.strand).rels, x.id < c.gate
    ∃ t, exec (.tlbiComplete c) s = .next t ∧ (c.cnt = false ∨ c.ctr.toNat < 65536 → SameBytes s t) ∧
      (∀ k, (drops k = true → Drops (s.cluster k) (t.cluster k) c) ∧ (drops k = false → t.cluster k = s.cluster k)) ∧
      (∀ n, DropsTile (s.tile n) (t.tile n) c (drops (n / 8) = true) ∧
        (n ≠ c.org.tile → { t.tile n with tlb := (s.tile n).tlb, strands := (s.tile n).strands } = s.tile n)) ∧
      (waits → (t.tile c.org.tile).tq = (s.tile c.org.tile).tq ∧
        (keyOf (s.cc + 1) slotTrans, Event.tlbiComplete { c with dropped := true }) ∈ t.agenda) ∧
      (¬waits → Leaves s t c.org 8 ∧ (t.tile c.org.tile).tq = (s.tile c.org.tile).tq - 1 ∧
        (c.cnt = true → c.ctr.toNat < 65536 → (s.ctrGet (dieOf c.org.tile) c.ctr.toNat).toNat + 1 < 2 ^ 64 →
          (t.ctrGet (dieOf c.org.tile) c.ctr.toNat).toNat = (s.ctrGet (dieOf c.org.tile) c.ctr.toNat).toNat + 1))) ∧
  (∀ (d : Nat) (c : TransCmd) (s : State),
    let covered (n k : Nat) : Prop := n / 256 = d ∧ ∃ w ∈ (s.strand n k).owned, specCoversWord s c n w
    ∃ t, exec (.shootdownArrival d c) s = .next t ∧
      (t.die d).xgen = SMap.put (s.die d).xgen c.ctx.toNat c.xgen ∧
      (t.die d).copies = (s.die d).copies.filter (fun x => !specCovers c x.ctx x.page 1) ∧
      (∀ y ∈ (s.die d).copies, s.ownPackage y.peer = true → (∀ z ∈ (t.die d).copies, z.peer = y.peer → z.frame ≠ y.frame) →
        specCovers c y.ctx y.page 1 = true → ∃ key, key ≤ keyOf (s.cc + s.transit d y.peer) slotRing ∧
          (key, Event.holderCountUpdate (stnOf y.peer) y.frame (s.peerOf d).toNat false) ∈ t.agenda) ∧
      (∀ k, k / 32 = d → Drops (s.cluster k) (t.cluster k) c) ∧ (∀ k, k / 32 ≠ d → t.cluster k = s.cluster k) ∧
      (∀ n, DropsTile (s.tile n) (t.tile n) c (n / 256 = d)) ∧
      (∀ q ∈ (s.die d).ricks, (∃ e ∈ q.entries, e.ctx = c.ctx ∧ e.xgen ≠ c.xgen) →
        (keyOf s.cc slotFlush, Event.rickAgeDeparture d q.id) ∈ t.agenda) ∧
      ((∀ n k, ¬covered n k) → SameBytes s t ∧ (∀ n, { t.tile n with tlb := (s.tile n).tlb } = s.tile n) ∧
        ((∀ e, (s.die e).bad = [] ∧ (s.die e).wrong = []) → ∀ e, e ≠ d → t.die e = s.die e)) ∧
      ∀ n k w, (s.strand n k).owned = [w] → covered n k → (∀ m j, covered m j → m = n ∧ j = k) → let va := 4 * w.word
        (∀ e, t.engXlate (n / 8) va = .ok e → e.ro = false → e.mode = 0 →
          (t.strand n k).owned = [{ w with die := stnOf e.peer, off := e.offset va }]) ∧
        ∀ f, t.engXlate (n / 8) va = .error f → (t.strand n k).owned = [] ∧ ∃ i, (s.cc, i) ∈ (t.strand n k).faults ∧
          i.cause = .translate ∧ i.engine = 0 ∧ i.isw = BitVec.ofNat 32 (f.1 + 16 * f.2) ∧ i.addr = BitVec.ofNat 64 va) ∧
  (∀ (h f d : Nat) (add : Bool) (s : State), ∃ t, exec (.holderCountUpdate h f d add) s = .next t ∧
    { t with dies := s.dies } = s ∧ (∀ e, e ≠ h → t.die e = s.die e) ∧ { t.die h with holders := (s.die h).holders } = s.die h ∧
    (∀ x, x ∈ SMap.get [] (t.die h).holders f ↔ if add then x = d ∨ x ∈ SMap.get [] (s.die h).holders f
      else x ≠ d ∧ x ∈ SMap.get [] (s.die h).holders f) ∧
    ∀ g, g ≠ f → SMap.get [] (t.die h).holders g = SMap.get [] (s.die h).holders g) ∧
  ∀ (c : TransCmd) (s : State),
    let waits := c.cnt = true ∧ ∃ x ∈ (s.strand c.org.tile c.org.strand).rels, x.id < c.gate
    (waits → ∃ t, exec (.shotComplete c) s = .next t ∧ { t with agenda := s.agenda } = s ∧
      (keyOf (s.cc + 1) slotTrans, Event.shotComplete c) ∈ t.agenda) ∧
    (¬waits → ∃ t, exec (.shotComplete c) s = .next t ∧
      (∀ e ∈ t.agenda, ∀ d, e.2 ≠ .shootdownArrival d c) ∧
      (s.agenda = [] → (∀ n k, (s.strand n k).rels = []) → t.clusters = s.clusters ∧ Leaves s t c.org 8 ∧
        (t.tile c.org.tile).tq = (s.tile c.org.tile).tq - 1 ∧ (c.cnt = false → SameBytes s t ∧ t.dies = s.dies) ∧
        (c.cnt = true → c.ctr.toNat < 65536 → (s.ctrGet (dieOf c.org.tile) c.ctr.toNat).toNat + 1 < 2 ^ 64 → SameBytes s t ∧
          (t.ctrGet (dieOf c.org.tile) c.ctr.toNat).toNat = (s.ctrGet (dieOf c.org.tile) c.ctr.toNat).toNat + 1)))

/-- R327: CSAV writes the strand's region at its home, for an address of 128 bytes alignment; within one page that a writable
entry maps to a stack of this package, the region there holds the registers of Table TRP-4, and V is 1; other bytes stay; one that
maps it read-only is a late-core trap. CRST takes the region as it stands, needs V, and restores every register but those of
traps, and how long the strand has been in its node. Both block their bundle until their bytes are performed or read. A word that
is not aligned traps. -/
def Obligations.RegionWords : Prop :=
  (∀ (g : Reg) (e : TlbEntry) (s : State),
    let va := s.me.readG g
    let h := stnOf e.peer
    let off := e.offset va.toNat
    s.me.trap.priv = true →
    (s.bun.checked = false → va.toNat % 128 ≠ 0 → ∀ i ∈ [Instr.csav g, .crst g], exec i s = .next (s.trapHere .align (some va) none)) ∧
    let waited := ∃ c, s.me.regionDue = some c ∧ c ≤ s.cc
    (s.bun.checked = false → va.toNat % 128 = 0 → ¬waited → exec (.csav g) s = .next (s.blockOn .region)) ∧
    (va.toNat % 128 = 0 → va.toNat < 2 ^ 52 → va.toNat % 65536 + 0x4800 ≤ 65536 →
      (s.cluster s.myCluster).lookup (va.toNat / 65536) = some e → e.mode = 0 → s.ownPackage e.peer = true → s.absent e.peer = false →
      (s.die h).bad = [] → (s.die h).holders = [] → (s.die h).mem.wf = true →
      (e.ro = false → waited → ∃ t, exec (.csav g) s = .next t ∧ t.bun = { s.bun with csav := some va } ∧
        (∀ x, (x < off ∨ off + 0x4800 ≤ x) → (t.die h).mem.read x = (s.die h).mem.read x) ∧ (∀ d, d ≠ h → t.die d = s.die d) ∧
        (∀ p ∈ specRegion s.me s.cc s.after, leNat ((t.die h).mem.reads (off + p.1) 8) = p.2.toNat) ∧
        leNat ((t.die h).mem.reads (off + 0x170) 8) / 2 ^ 63 = 1 ∧
        (∀ i, i < 8 → leNat ((t.die h).mem.reads (off + 0x300 + 128 * i) 128) = (s.me.readM (BitVec.ofNat 3 i)).toNat) ∧
        ∀ i, i < 32 → leNat ((t.die h).mem.reads (off + 0x800 + 512 * i) 512) = (s.me.readV (BitVec.ofNat 5 i)).toNat) ∧
      (e.ro = true → waited → ∃ t i, exec (.csav g) s = .next t ∧ SameBytes s t ∧ t.bun = s.bun ∧
        t.me.faults = s.me.faults ++ [(s.cc, i)] ∧ i.cause = .translate ∧ i.engine = 0 ∧ i.isw.toNat % 16 = 2 ∧ i.addr = va) ∧
      let bs := (s.die h).mem.reads off 0x4800;
      let marked := (bs.getD 0x177 0).getLsbD 7 = true;
      (s.bun.checked = false → ¬marked → exec (.crst g) s = .next (s.trapHere .restore none none)) ∧
      (s.bun.checked = false → marked → ¬waited → exec (.crst g) s = .next (s.blockOn .region)) ∧
      (marked → waited → ∃ t, exec (.crst g) s = .next t ∧ SameBytes s t ∧ t.bun = { s.bun with crst := some bs }))) ∧
  ∀ (x y : Strand) (g : Image) (cc now : Nat) (pc : Word),
    let z := x.restoreAll g (regionList (strandHead y cc true pc ++ strandBody y)) now
    z.g = Vector.ofFn (fun i => y.readG (BitVec.ofNat 5 i)) ∧ z.pc = pc ∧ z.d = y.d ∧ z.f = y.f ∧ z.n = y.n ∧
    (∀ (i : Fin 8) (b : Nat), z.q[i].getLsbD b = (y.q[i].getLsbD b && !specReserved .quilt i b)) ∧
    (∀ i, i < 8 → z.readM (BitVec.ofNat 3 i) = y.readM (BitVec.ofNat 3 i)) ∧ (∀ i, i < 32 → z.readV (BitVec.ofNat 5 i) = y.readV (BitVec.ofNat 5 i)) ∧
    z.loop0 = y.loop0 ∧ z.loop1 = y.loop1 ∧ z.digest = y.digest ∧ z.schedTrap = y.schedTrap ∧ z.folding = y.folding ∧
    z.flags = y.flags ∧ (y.lastFmt.l4f ≠ 3 → y.lastFmt.l8f ≠ 3 → z.fmt = y.lastFmt) ∧ z.trap = x.trap ∧
    (∀ i : Reg3, z.readP i = y.readP i) ∧ (y.node = none → z.node = none) ∧
    ∀ m, y.node.isSome → x.node = some m → y.counted cc < 2 ^ 64 → z.node = some { m with since := now - y.counted cc, pause := none }

/-- R309, R298, R136, R138: taking a trap writes its 64-byte record at TRAPREC; in a strand with a handler that is not in it, it
saves what TRAPPC names, the loops' activity and the privilege, and goes to ENTRY as a privileged handler two cc later, with
both loops inactive; else it is unhandled: the strand halts, the record is also posted as a health record of kind 1, and the launch
ends. A strand that waits for a panel has then joined none. A node that reaches its bound takes the overrun in that cc; one whose
strand a SPLT holds or a thermal stop awaits takes it next, and that of a panel's lead is the panel's. The core gives the first ready strand behind the last one the next cc. A
placed extent lets its strand go on. -/
def Obligations.Traps : Prop :=
  (∀ (n k : Nat) (i : TrapInfo) (s : State), let f := s.flush n k
    let x := f.strand n k
    (f.tile n).pairs = [] → (f.tile n).scratch.wf = true →
    ∃ t, exec (.takeTrap n k i) s = .next t ∧
      SpecRecord ((t.tile n).scratch.reads x.trap.area 64) f.cc n k 0 i ∧
      (∀ a, (a < x.trap.area ∨ x.trap.area + 64 ≤ a) → (t.tile n).scratch.read a = (f.tile n).scratch.read a) ∧
      (∀ e ∈ t.agenda, ∀ w, e.2 ≠ .pendingWriteComplete n k w) ∧
      (∀ j, j ≠ k → t.strand n j = f.strand n j) ∧ (∀ m, m ≠ n → t.tile m = f.tile m) ∧
      (x.gang ≠ .waiting → t.bars = f.bars) ∧
      (x.gang = .waiting → ∀ b ∈ t.bars, b.gang = true → ∀ j ∈ b.joined, (j.1, j.2.1) ≠ (n, k)) ∧
      (x.trap.inh = false → x.trap.en = true → { t with tiles := f.tiles, bars := f.bars } = f ∧ t.strand n k = { x with
        trap := { x.trap with
          pc := if namesBundle i.cause then i.resume else x.pc, lact1 := x.loop1.act, lact0 := x.loop0.act, ppriv := x.trap.priv,
          priv := true, inh := true }
        loop0 := { x.loop0 with act := false }, loop1 := { x.loop1 with act := false }
        pc := x.trap.entry, block := none, wake := false, cleared := none, regionDue := none
        gang := if x.gang = .waiting then .no else x.gang, nextCc := f.cc + 2, transferFrom := none }) ∧
      ((x.trap.inh = true ∨ x.trap.en = false) → t.strand n k = { x with
          halted := true, block := none, hold := none, node := none, gang := if x.gang = .waiting then .no else x.gang } ∧
        (∃ r, SpecRecord r f.cc n k 1 i ∧ t.die (dieOf n) = { f.die (dieOf n) with
          healthQ := { (f.die (dieOf n)).healthQ with new := (f.die (dieOf n)).healthQ.new ++ [(3, r)] } }) ∧
        ∀ q l, (f.tile n).launch = some q → f.launch q = some l → (keyOf f.cc 15, Event.launchEnd q) ∈ t.agenda ∧
          t.launch q = some { l with endCode := some (l.endCode.getD (match i.cause with | .overrun => 6 | .thermal => 9 | _ => 7)) })) ∧
  (∀ (n k : Nat) (l : Launch) (m : NodeRun) (s : State), let x := s.strand n k
    s.launchOf n = some l → l.unbound = false → x.stopped = .no → x.halted = false → x.hold ≠ some .release →
    x.node = some m → m.late = false → m.pause = none →
    let past := m.since + m.bound ≤ s.cc
    (¬past → exec (.overrun n k) s = .next s) ∧
    (past → ((x.gang = .ganged ∧ n % 8 = 0) ∨ (x.gang ≠ .ganged ∧ (x.hold = some .split ∨ x.thermal = true))) →
      ∃ t, exec (.overrun n k) s = .next t ∧ { t with tiles := s.tiles } = s ∧ (∀ p, p ≠ n → t.tile p = s.tile p) ∧
        (∀ j, j ≠ k → t.strand n j = s.strand n j) ∧ t.strand n k = { x with node := some { m with late := true }, overrun := true } ∧
        (x.gang = .ganged → (t.tile n).act = some s.cc)) ∧
    (past → x.gang ≠ .ganged → x.hold ≠ some .split → x.thermal = false → ∃ t u i, exec (.overrun n k) s = .next t ∧
      exec (.takeTrap n k i) u = .next t ∧
      i.cause = .overrun ∧ i.engine = 9 ∧ i.pc = x.pc ∧ i.node = m.index ∧ i.entry = m.entry ∧
      OnlyStrandOf { s with fresh := u.fresh } u n k ∧ u.strand n k = { x with node := some { m with late := true } })) ∧
  (∀ (n : Nat) (s : State), let x := s.tile n
    x.running = none → x.unitOn = true → x.saving ≠ .deep →
    (∀ i, i < 4 → s.canRun n ((x.last + 1 + i) % 4) = true → (∀ j, j < i → s.canRun n ((x.last + 1 + j) % 4) = false) →
      ∃ t, exec (.strandSelect n) s = .next t ∧ { t with tiles := s.tiles } = s ∧ (∀ m, m ≠ n → t.tile m = s.tile m) ∧
        (t.tile n).running = some ((x.last + 1 + i) % 4) ∧ (t.tile n).last = (x.last + 1 + i) % 4 ∧ (t.tile n).act = some (s.cc + 1) ∧
        (t.strand n ((x.last + 1 + i) % 4)).block = none ∧ (t.tile n).scratch = x.scratch) ∧
    ((∀ j, j < 4 → s.canRun n j = false) → ∃ t, exec (.strandSelect n) s = .next t ∧ OnlyTilePart s t n ∧
      (t.tile n).running = none ∧ t.agenda = s.agenda)) ∧
  ∀ (n k : Nat) (s : State), ∃ t, exec (.extentPlacement n k) s = .next t ∧ { t with tiles := s.tiles } = s ∧
    (∀ m, m ≠ n → t.tile m = s.tile m) ∧ (∀ j, j ≠ k → t.strand n j = s.strand n j) ∧
    t.strand n k = { s.strand n k with extent := some (s.strand n k).pc, nextCc := min (s.strand n k).nextCc s.cc } ∧
    ((s.tile n).running = some k → (t.tile n).act = some s.cc) ∧ { t.tile n with strands := (s.tile n).strands, act := (s.tile n).act } = s.tile n

/-! ### Supersteps, the clock and the stack's upkeep -/

/-- R300, R301, R302, R317: at a superstep boundary the strands that a superstep holds go on, the launch's count of supersteps
rises, and a test or a power limit that waits begins an idle superstep. An idle superstep holds its launch for whole blocks of
1,024 cc, at most 64; its nodes' counts pause; LSTAT counts it; the tests that waited start; at its end counts and strands
go on, or the next idle superstep of at most 16 in a row begins. A rise of power that R338 or R339 holds back is held so too, for
as long as it must. A change of the clock comes about at a boundary at which every running launch stands, or waits in an idle
superstep. -/
def Obligations.SuperstepRuns : Prop :=
  ∀ (q blocks : Nat) (l : Launch) (s : State), s.launch q = some l →
    let h := s.slotHome q
    let stop := s.cc + 1024 * min 64 (max 1 blocks)
    (∃ t, exec (.superstepBoundary q) s = .next t ∧ SameBytes s t ∧
      { t with launches := s.launches, tiles := s.tiles, agenda := s.agenda } = s ∧
      t.launch q = some { l with supers := l.supers + 1, edge := some s.cc, idleRun := 0 } ∧ (∀ p, p ≠ q → t.launch p = s.launch p) ∧
      (∀ n, n ∉ l.tiles → t.tile n = s.tile n) ∧
      (∀ n ∈ l.tiles, ((s.tile n).unitOn = false → t.tile n = { s.tile n with hang := 0 }) ∧
        ((s.tile n).unitOn = true → (t.tile n).act = some (((s.tile n).act.map (max s.cc)).getD s.cc) ∧ ∀ k,
          t.strand n k = if (s.strand n k).hold = some .superstep then { s.strand n k with hold := none } else s.strand n k)) ∧
      (s.tests.any l.uses = true → (keyOf s.cc 13, Event.idleSuperstep q 64) ∈ t.agenda) ∧
      (s.tests.any l.uses = false → s.wantIdle ≠ 0 → (keyOf s.cc 13, Event.idleSuperstep q (min 64 s.wantIdle)) ∈ t.agenda) ∧
      (s.tests.any l.uses = false → s.wantIdle = 0 →
        (s.cc < s.riseAt → (keyOf s.cc 13, Event.idleSuperstep q (min 64 ((s.riseAt - s.cc + 1023) / 1024))) ∈ t.agenda) ∧
        ∀ f, s.riseAt ≤ s.cc → s.wantMhz = some f → f ≠ s.mhz → s.serial = false →
          (t.aligned = true → (keyOf s.cc 13, Event.clockChange f) ∈ t.agenda) ∧
          (t.aligned = false → (keyOf s.cc 13, Event.idleSuperstep q 1) ∈ t.agenda))) ∧
    ((l.active = false ∨ (16 ≤ l.idleRun ∧ s.riseAt ≤ s.cc) ∨ l.edge ≠ some s.cc) → exec (.idleSuperstep q blocks) s = .next s) ∧
    (l.active = true → (l.idleRun < 16 ∨ s.cc < s.riseAt) → l.edge = some s.cc → (s.die h.1).bad = [] →
      ∃ t, exec (.idleSuperstep q blocks) s = .next t ∧
        t.launch q = some { l with supers := l.supers + 1, idle := l.idle + 1, idleRun := l.idleRun + 1, heldTo := some stop } ∧
        (∀ p, p ≠ q → t.launch p = s.launch p) ∧ t.tests = s.tests.filter (fun u => !l.uses u) ∧ t.wantIdle = 0 ∧
        (∀ u ∈ s.tests, l.uses u = true → (keyOf s.cc 14, Event.selfTestStart u) ∈ t.agenda) ∧
        (keyOf stop 13, Event.idleSuperstepEnd q) ∈ t.agenda ∧ (∀ n, n ∉ l.tiles → t.tile n = s.tile n) ∧
        (∀ n ∈ l.tiles, (s.tile n).unitOn = true → ∀ k,
          t.strand n k = { s.strand n k with node := (s.strand n k).node.map fun m => { m with pause := some (m.pause.getD s.cc) } }) ∧
        (∀ d, d ≠ h.1 → t.die d = s.die d) ∧ ((s.die h.1).mem.wf = true →
          leNat ((t.die h.1).mem.reads (h.2 + 32768 + 8 * (l.k % 256)) 8) = (1 + 2 ^ 32 * (l.idle + 1)) % 2 ^ 64 ∧
          ∀ a, (a < h.2 + 32768 + 8 * (l.k % 256) ∨ h.2 + 32768 + 8 * (l.k % 256) + 8 ≤ a) →
            (t.die h.1).mem.read a = (s.die h.1).mem.read a)) ∧
    (l.heldTo ≠ some s.cc → exec (.idleSuperstepEnd q) s = .next s) ∧
    (l.heldTo = some s.cc → l.idleRun < 16 → s.tests.any l.uses = true → ∃ ag, (keyOf s.cc 13, Event.idleSuperstep q 64) ∈ ag ∧
      exec (.idleSuperstepEnd q) s = .next { s.onLaunch q (fun x => { x with edge := some s.cc }) with agenda := ag }) ∧
    (l.heldTo = some s.cc → s.cc < s.riseAt → (16 ≤ l.idleRun ∨ s.tests.any l.uses = false ∧ s.wantIdle = 0) → ∃ ag,
      (keyOf s.cc 13, Event.idleSuperstep q (min 64 ((s.riseAt - s.cc + 1023) / 1024))) ∈ ag ∧
      exec (.idleSuperstepEnd q) s = .next { s.onLaunch q (fun x => { x with edge := some s.cc }) with agenda := ag }) ∧
    (l.heldTo = some s.cc → s.riseAt ≤ s.cc → (16 ≤ l.idleRun ∨ s.tests.any l.uses = false ∧ s.wantIdle = 0 ∧ s.wantMhz = none) →
      ∃ t, exec (.idleSuperstepEnd q) s = .next t ∧ SameBytes s t ∧
        t.launch q = some { l with edge := some s.cc, heldTo := none, idleRun := 0 } ∧ (∀ p, p ≠ q → t.launch p = s.launch p) ∧
        (∀ n, n ∉ l.tiles → t.tile n = s.tile n) ∧ ∀ n ∈ l.tiles, (s.tile n).unitOn = true →
          (t.tile n).act = some (((s.tile n).act.map (max s.cc)).getD s.cc) ∧ ∀ k, t.strand n k =
            if (s.strand n k).stopped = .no then { s.strand n k with
              node := (s.strand n k).node.map fun m => { m with since := m.since + (s.cc - m.pause.getD s.cc), pause := none } }
            else s.strand n k)

/-- R301, R303, R321: the clock takes one of its seven steps at one cc, when every running launch is at a superstep boundary, and
not while a serialised re-execution runs, and what the damper counts in time keeps its length; a power limit lowers the clock at
the boundary, or asks for idle supersteps, or both. After a thermal emergency every strand that runs takes the trap, and the bounds
are reported broken. R338: the package power of a ms, which is free within that (log 45), rises by at most RATE, falls by at most
RATE and not below FLOOR percent of the mean of the last eight, unless a limit or an emergency governs. R77, R76, R80: at the end
of an epoch W follows the count of corrected symbols, and which symbols have gone wrong is free (log 35); the scrubber corrects up
to 6 symbols of a line, and 7 to 10 make it uncorrectable; a hot die's W is at most 64 ms. When a clock change, a power limit, an
epoch or a temperature comes is an input (logs 16, 20). -/
def Obligations.TimingInputs : Prop :=
  (∀ (mhz blocks : Nat) (s : State), let step7 := mhz ∈ specSteps7
    ((s.serial = true ∨ ¬step7) → exec (.clockChange mhz) s = .next s) ∧
    (step7 → s.serial = false → s.aligned = true → ∃ t, exec (.clockChange mhz) s = .next t ∧
      { t with mhz := s.mhz, wantMhz := s.wantMhz, riseAt := s.riseAt, power := s.power } = s ∧ t.mhz = mhz ∧ t.wantMhz = none ∧
      { t.power with msAt := s.power.msAt } = s.power ∧ (s.riseAt ≤ s.cc → t.riseAt = s.riseAt) ∧
      (s.mhz ∈ specSteps7 → ∀ p ∈ [(s.riseAt, t.riseAt), (s.power.msAt, t.power.msAt)], s.cc < p.1 → s.cc < p.2 ∧
        (p.1 - s.cc) * mhz ≤ (p.2 - s.cc) * s.mhz ∧ (p.2 - s.cc) * s.mhz < (p.1 - s.cc) * mhz + s.mhz)) ∧
    (step7 → s.serial = false → s.aligned = false → exec (.clockChange mhz) s = .next { s with wantMhz := some mhz }) ∧
    (∃ ag, exec (.powerLimit mhz blocks) s = .next { s with
        wantMhz := if mhz < s.mhz ∧ step7 then some mhz else s.wantMhz, wantIdle := blocks
        power := { s.power with limited := true }, agenda := ag } ∧
      (mhz < s.mhz → step7 → s.serial = false → s.aligned = true → (keyOf s.cc 13, Event.clockChange mhz) ∈ ag) ∧
      ∀ e ∈ s.agenda, e ∈ ag) ∧
    (∃ t, exec .thermalEmergency s = .next t ∧ SameBytes s t ∧ t.outputs = s.outputs ++ [.broken 0 0] ∧
      t.power = { s.power with limited := true, fallFree := true } ∧
      (∀ q l, s.launch q = some l → l.active = true → t.launch q = some { l with unbound := true } ∧
        ∀ n ∈ l.tiles, ∀ k ∈ (s.tile n).live, (s.strand n k).stopped = .no → (t.strand n k).thermal = true) ∧
      ∀ n k, t.strand n k = s.strand n k ∨ t.strand n k = { s.strand n k with thermal := true }) ∧
    ((∀ e ∈ s.agenda.head?, s.horizon ≤ e.1) → s.late = true → s.power.msAt ≤ s.cc + 1 → ∃ t w, let p := s.power
      let last := p.watts.headD 0
      step s = .next t ∧ t.cc = s.cc + 1 ∧ SameBytes s t ∧ t.power = { p with
        watts := (w :: p.watts).take 8, msAt := s.cc + 1 + 1000 * s.mhz, limited := false, fallFree := false } ∧
      w ≤ last + p.rate.toNat ∧ (p.limited = false → p.fallFree = false → last - p.rate.toNat ≤ w ∧
        (p.floor.toNat * (p.watts.sum / p.watts.length) / 100 ≤ w ∨ w = last + p.rate.toNat)))) ∧
  ∀ (d symbols : Nat) (hot : Bool) (s : State), let x := s.die d
    let g := x.gov
    let w := g.wcur.toNat
    let n := SMap.get 0 x.wrong x.scrub + symbols
    let next := (x.scrub + 128) % 2 ^ 36
    (WholeLines x → x.mem.wf = true → ∃ t, exec (.governorEpoch d) s = .next t ∧ t.tiles = s.tiles ∧ t.clusters = s.clusters ∧
      (∀ m, m ≠ d → t.die m = s.die m) ∧ (t.die d).corrected = 0 ∧ (t.die d).epoch = x.epoch + 1 ∧ WholeLines (t.die d) ∧
      (∃ f, (f = s.fresh ∨ f = s.fresh + 1) ∧ (∀ a, a < 2 ^ 36 →
          (∀ e ∈ Config.decay f, e.2 = 0 ∨ e.1 % 2 ^ 29 ≠ a / 128) → (t.die d).mem.read a = x.mem.read a) ∧
        ∀ e, Config.decay f = [e] → 0 < e.2 → let line := e.1 % 2 ^ 29 * 128
          let k := SMap.get 0 x.wrong line + e.2
          k ≤ 10 → (t.die d).mem = x.mem ∧ SMap.get 0 (t.die d).wrong line = k ∧ (6 < k → line ∈ (t.die d).bad)) ∧
      (x.hot = true → (t.die d).gov.wcur.toNat ≤ 1) ∧
      (x.hot = false → g.hold = true → (t.die d).gov = g) ∧
      (x.hot = false → g.hold = false → g.wmin.toNat ≤ w → w ≤ g.wmax.toNat → { (t.die d).gov with wcur := g.wcur } = g ∧
        (g.hi.toNat ≤ g.lo.toNat → (t.die d).gov.wcur.toNat = w) ∧
        (g.lo.toNat < g.hi.toNat → x.corrected > g.hi.toNat → (t.die d).gov.wcur.toNat = max g.wmin.toNat (w - 1) ∧
          (g.wmin.toNat < w → ∃ r, (t.die d).memQ.new = x.memQ.new ++ [(0, r)] ∧ r.length = 32 ∧ leNat r / 2 ^ 64 % 2 ^ 8 = 4)) ∧
        (g.lo.toNat < g.hi.toNat → x.corrected < g.lo.toNat → (t.die d).gov.wcur.toNat = min g.wmax.toNat (w + 1)) ∧
        (g.lo.toNat ≤ x.corrected → x.corrected ≤ g.hi.toNat → (t.die d).gov.wcur.toNat = w))) ∧
    (x.bad.contains x.scrub = false → n ≤ 6 → exec (.patrolScrub d symbols) s = .next (s.onDie d fun y => { y with
      scrub := next, corrected := y.corrected + n, wrong := SMap.del y.wrong x.scrub })) ∧
    ((x.bad.contains x.scrub = true ∨ 6 < n ∧ n ≤ 10) → ∃ t, exec (.patrolScrub d symbols) s = .next t ∧
      SameBytes s t ∧ t.tiles = s.tiles ∧ (∀ m, m ≠ d → t.die m = s.die m) ∧ (t.die d).scrub = next ∧
      (t.die d).bad.contains x.scrub = true ∧ (x.hot = false → (t.die d).gov = { g with wcur := g.wmin }) ∧
      ∃ r, (t.die d).memQ.new = x.memQ.new ++ [(3, r)] ∧ r.length = 32 ∧
        leNat r % 2 ^ 36 = x.scrub / 128 * 128 % 2 ^ 36 ∧ leNat r / 2 ^ 64 % 2 ^ 8 = 2 ∧ leNat r / 2 ^ 128 = x.epoch % 2 ^ 64) ∧
    (x.bad.contains x.scrub = false → 10 < n → WholeLines x → x.mem.wf = true → ∃ t, exec (.patrolScrub d symbols) s = .next t ∧
      t.tiles = s.tiles ∧ (t.die d).scrub = next ∧ SMap.get 0 (t.die d).wrong x.scrub = 0 ∧ (∀ m, m ≠ d → t.die m = s.die m) ∧
      ∀ a, (a < x.scrub ∨ x.scrub + 128 ≤ a) → (t.die d).mem.read a = x.mem.read a) ∧
    exec (.coreDieTemperature d hot) s = .next (s.onDie d fun y => { y with
      hot := hot, gov := { y.gov with wcur := if hot = true ∧ 1 < y.gov.wcur.toNat then 1 else y.gov.wcur } })

/-! ### The loader -/

/-- R284, R285, R286, R287: the loader takes launch k of a queue once its submission counter is above k, reads its record and
digest slot, rejects a record that fails a check with LAUNCH_RANGE, completes one of no units at once, and else makes it the
queue's head. R288, R289: a head is rejected with IMAGE or ADMISSION, waits for its share or for clusters that a launch of no
lower priority holds, pre-empts launches of lower priority, or is admitted. -/
def Obligations.LaunchTakes : Prop :=
  (∀ (s : State) (r : LaunchRec), let inside (id die : Nat) : Prop := r.ctrlo ≤ id ∧ id < r.ctrlo + r.ctrn ∧ die ∈ r.dies;
    s.recordOk r = true ↔ r.wucount ≤ 65536 ∧ 1 ≤ r.clcount ∧ r.clbase + r.clcount ≤ 256 ∧ r.strands ≠ 0 ∧ r.l4f ≠ 3 ∧ r.l8f ≠ 3 ∧
      (r.age = 0 ∨ 256 ≤ r.age ∧ r.age ≤ 65536) ∧ stnOf r.peer < 8 ∧ r.peer.extractLsb' 4 12 = s.coord ∧
      (∀ d ∈ r.dies, r.ctrn ≠ 0 → r.ctrlo + r.ctrn ≤ 65536 + 8192 * (s.die d).ctrNfr) ∧ ¬ inside r.ccid r.cstn ∧ ¬ inside r.ecid r.estn) ∧
  (∀ (q : Nat) (s : State), let c := s.queueCfg q
    let d := c.stn.toNat
    let k := SMap.get 0 s.qtaken q
    ((s.ready.getLsbD 3 = false ∨ c.en = false ∨ (s.launch q).isSome = true ∨ s.ctrOk d c.scid.toNat = false ∨
      (s.ctrGet d c.scid.toNat).toNat ≤ k) → exec (.launchTake q) s = .next s) ∧
    (s.ready.getLsbD 3 = true → c.en = true → s.launch q = none → s.ctrOk d c.scid.toNat = true →
      k < (s.ctrGet d c.scid.toNat).toNat →
      let r := launchRecOf (leNat (s.memRead d (c.frame.toNat * 65536 + 128 * (k % 256)) 128))
      let slot := leNat (s.memRead d (c.frame.toNat * 65536 + 34816 + 64 * (k % 256)) 64)
      let l := Launch.taken k r slot
      ∃ t, exec (.launchTake q) s = .next t ∧ t.tiles = s.tiles ∧ t.clusters = s.clusters ∧ SMap.get 0 t.qtaken q = k + 1 ∧
        (s.recordOk r = false ∨ r.wucount = 0 → Reported s t q l (if s.recordOk r = false then 3 else 2) ∧ t.launch q = none ∧
          (keyOf s.cc 13, Event.launchTake q) ∈ t.agenda) ∧
        (s.recordOk r = true → r.wucount ≠ 0 → t.launch q = some l ∧ StatusIs s t q l 0 ∧
          (keyOf s.cc 13, Event.admission q) ∈ t.agenda))) ∧
  (∀ (k slot : Nat) (r : LaunchRec), let l := Launch.taken k r slot
    l.desc = r ∧ l.k = k ∧ l.phase = .taken ∧ l.det = slot.testBit 384 ∧ l.reexec = slot.testBit 385 ∧
      l.recorded.toNat = slot % 2 ^ 128 ∧ l.runs = 0 ∧ l.idle = 0 ∧ l.endCode = none) ∧
  (∀ x : Nat, let r := launchRecOf x
    let f (hi lo : Nat) : Nat := x / 2 ^ lo % 2 ^ (hi + 1 - lo)
    r.image.toNat = f 51 0 ∧ r.ctx.toNat = f 91 80 ∧ r.frame.toNat = f 111 92 ∧ r.peer.toNat = f 127 112 ∧
    r.entry.toNat = f 159 128 ∧ r.launchid.toNat = f 191 160 ∧ r.wucount = f 208 192 ∧ r.clbase = f 224 216 ∧
    r.clcount = f 233 225 ∧ r.strands.toNat = f 237 234 ∧ r.fuse = x.testBit 238 ∧ r.strap = x.testBit 239 ∧
    r.l4f.toNat = f 241 240 ∧ r.l8f.toNat = f 243 242 ∧ r.rm.toNat = f 245 244 ∧ r.ccid = f 279 256 ∧ r.cstn = f 283 280 ∧
    r.ecid = f 311 288 ∧ r.estn = f 315 312 ∧ r.age = f 336 320 ∧ r.rfcid = f 360 337 ∧ r.rfen = x.testBit 361 ∧
    r.ctrlo = f 407 384 ∧ r.ctrn = f 431 408 ∧ r.commcc = f 479 448 ∧ r.fabshare = f 495 480 ∧
    ∀ k : Fin 8, r.args[k].toNat = f (64 * k + 575) (64 * k + 512)) ∧
  (∀ (s : State) (l : Launch), s.resourcesOk l = true ↔
    (∀ t ∈ l.img.tablesOf (l.img.paths l.desc.entry.toNat), l.img.tableTiles t ≤ (s.liveTiles l).length) ∧
    (s.pins l.desc l.img.ranges).isSome = true ∧ (∀ d ∈ l.desc.dies, (s.die d).poolEn = true) ∧
    (l.det = true → ∀ c ∈ l.clusters, ∀ i, i < 8 → (s.tile (8 * c + i)).retired = false)) ∧
  ∀ (q : Nat) (l : Launch) (s : State), s.launch q = some l →
    ((l.phase ≠ .taken ∨ s.serial = true) → exec (.admission q) s = .next s) ∧
    (l.phase = .taken → s.serial = false → s.aheadPending q = true → ∃ ag,
      exec (.admission q) s = .next { s with agenda := ag } ∧ (keyOf s.cc 13, Event.admission q) ∈ ag) ∧
    (l.phase = .taken → s.serial = false → s.aheadPending q = false →
      (l.img.code = [] → s.readImage l.desc = none → ∃ t, exec (.admission q) s = .next t ∧ Closed s t q l 4) ∧
      ∀ g, (l.img.code = [] → s.readImage l.desc = some g) → (l.img.code ≠ [] → g = l.img) →
        let l' := { l with img := g }
        let u := (if l.img.code = [] then s.noteImage l.desc g else s).onLaunch q fun _ => l'
        let busy := u.holders q l'
        (u.resourcesOk l' = false → ∃ t, exec (.admission q) s = .next t ∧ Closed s t q l' 5) ∧
        (u.resourcesOk l' = true → (65536 < l.desc.fabshare + u.shares ∨ ∃ r ∈ busy, q / 4 ≤ r.1 / 4) →
          exec (.admission q) s = .next u) ∧
        (u.resourcesOk l' = true → l.desc.fabshare + u.shares ≤ 65536 → (∀ r ∈ busy, r.1 / 4 < q / 4) →
          (busy = [] → ∃ ag, exec (.admission q) s = .next { u.onLaunch q (fun r => { r with phase := .admitted }) with agenda := ag } ∧
            (keyOf s.cc 13, Event.launchStart q) ∈ ag) ∧
          (busy ≠ [] → ∃ t, exec (.admission q) s = .next t ∧ SameBytes s t ∧ t.launch q = some l' ∧
            ∀ p r, s.launch p = some r → (p, r) ∈ busy → r.phase ≠ .admitted → r.preempted = false →
              t.launch p = some { r with preempted := true, phase := .stopping } ∧
              (keyOf s.cc 13, Event.launchResume p) ∈ t.agenda ∧
              ∀ n ∈ r.tiles, ∀ k ∈ (s.tile n).live, (t.strand n k).trap.pend = true)))

/-- R294: a launch starts: clusters with sixteen cache ways, its page table and pinned translations, its context sets and
counters, its tiles' scratchpads and save areas; LSTAT holds 1. R134, R295, R310: a work unit starts on every tile that serves,
with the strands that STRANDS names at ENTRY, their arguments in g1 to g8, everything else zero; the lowest one runs. R161, R281,
R295, R296: a tile completes the unit when its strands have finished; their digests are added to the launch's; after the last
tile the next unit starts within 4,096 cc, or the launch ends. R321: a re-execution waits until it runs alone, at 0.80 GHz. -/
def Obligations.LaunchUnits : Prop :=
  (∀ (q : Nat) (l : Launch) (s : State), s.launch q = some l →
    ((l.phase ≠ .admitted ∨ l.runs = 1 ∧ ∃ r ∈ s.launches, r.1 ≠ q ∧ (r.2.active = true ∨ r.2.phase = .admitted)) →
      exec (.launchStart q) s = .next s) ∧
    (l.phase = .admitted → (l.runs = 1 → ∀ r ∈ s.launches, r.1 ≠ q → r.2.active = false ∧ r.2.phase ≠ .admitted) →
      ∃ t, exec (.launchStart q) s = .next t ∧ t.launch q = some { l with
          phase := .running, runs := l.runs + 1, unit := 0, digest := 0, supers := 0, edge := some s.cc, unbound := false
          fresh := l.fresh + l.desc.clcount } ∧
        (∀ p, p ≠ q → t.launch p = s.launch p) ∧ (keyOf s.cc 13, Event.workUnitStart q) ∈ t.agenda ∧
        t.mhz = (if l.runs = 1 then 800 else s.mhz) ∧ StatusIs s t q l 1 ∧
        (∀ c ∈ l.clusters, let x := t.cluster c
          x.launch = some q ∧ x.cw = 16 ∧ x.tw = 16 ∧ x.busy = false ∧ x.store = [] ∧ x.fused = l.desc.fuse ∧
          x.ptPeer = l.desc.peer ∧ x.ptFrame = l.desc.frame ∧ x.ptCtx = l.desc.ctx ∧ x.kq = [] ∧ x.krun = none ∧
          x.kDone = 0 ∧ x.kSkip = 0 ∧ x.kFlags = .zero ∧ x.panel = none ∧ x.walks = [] ∧ x.tlb = (s.pins l.desc l.img.ranges).getD []) ∧
        (∀ c, c ∉ l.clusters → t.cluster c = s.cluster c) ∧
        (∀ n ∈ l.tiles, let x := t.tile n
          x.launch = some q ∧ x.unitOn = false ∧ x.pairs = [] ∧ x.tlb = [] ∧ (∀ a, x.scratch.read a = l.img.scratch.getD a 0) ∧
          x.saveArea = s.peerOf (n / 256) ++ BitVec.ofNat 20 ((s.die (n / 256)).poolFrame + 1321 * (n / 8 % 32) + 37 * (n % 8)) ++
            (0 : BitVec 28)) ∧
        (∀ n, n ∉ l.tiles → t.tile n = s.tile n) ∧
        (∀ d ∈ l.desc.dies, SMap.find (t.die d).sets q =
            some ⟨if l.desc.age = 0 then 2048 else l.desc.age, l.desc.rfen, l.desc.rfcid, []⟩) ∧
        ∀ d id, id < 65536 → t.ctrGet d id =
          if d ∈ l.desc.dies ∧ l.desc.ctrlo ≤ id ∧ id < l.desc.ctrlo + l.desc.ctrn then 0 else s.ctrGet d id)) ∧
  (∀ (q : Nat) (l : Launch) (s : State), s.launch q = some l →
    (((l.phase ≠ .running ∧ l.phase ≠ .between) ∨ ∃ n ∈ l.tiles, (s.tile n).unitOn = true) →
      exec (.workUnitStart q) s = .next s) ∧
    ((l.phase = .running ∨ l.phase = .between) → (∀ n ∈ l.tiles, (s.tile n).unitOn = false) →
      ∃ t, exec (.workUnitStart q) s = .next t ∧ { t with launches := s.launches, tiles := s.tiles, agenda := s.agenda } = s ∧
        t.launch q = some { l with phase := .running, edge := some s.cc, idleRun := 0 } ∧
        (∀ p, p ≠ q → t.launch p = s.launch p) ∧
        (∀ n, (n ∉ l.tiles ∨ (s.tile n).retired = true ∨ (s.tile n).isolated = true) →
          { t.tile n with hang := (s.tile n).hang } = s.tile n) ∧
        ∀ n ∈ l.tiles, (s.tile n).retired = false → (s.tile n).isolated = false → let x := t.tile n
          x.unitOn = true ∧ x.act = some s.cc ∧ x.scratch = (s.tile n).scratch ∧ x.fmtA = .reset ∧ x.bankA = .zero ∧
          x.bankS = .zero ∧ x.acc = [] ∧ x.chain = false ∧ x.qcells = [] ∧ x.qdoms = [] ∧
          (l.desc.strands ≠ 0 → ∃ k, k < 4 ∧ l.desc.strands.getLsbD k = true ∧ (∀ j, j < k → l.desc.strands.getLsbD j = false) ∧
            x.running = some k) ∧
          ∀ k, k < 4 → let y := t.strand n k
            (l.desc.strands.getLsbD k = false → y.started = false) ∧
            (l.desc.strands.getLsbD k = true → y.started = true ∧ y.halted = false ∧ y.pc = l.desc.entry ∧
              (∀ i : Fin 8, y.readG (BitVec.ofNat 5 (i + 1)) = l.desc.args[i]) ∧ (∀ r : Reg, 8 < r.toNat → y.readG r = 0) ∧
              (∀ r : Reg3, r ≠ 0 → y.readP r = false) ∧ (∀ r : Reg, y.readV r = 0) ∧ (∀ r : Reg3, r ≠ 0 → y.readM r = 0) ∧
              y.d = Vector.replicate 16 0 ∧ y.q = Vector.replicate 8 0 ∧ y.f = Vector.replicate 8 0 ∧ y.n = Vector.replicate 8 0 ∧
              y.loop0.act = false ∧ y.loop1.act = false ∧ y.schedTrap = l.desc.strap ∧
              y.fmtV = ⟨l.desc.l4f, l.desc.l8f, l.desc.rm⟩ ∧ y.flags = .zero ∧ y.digest = 0 ∧ y.node = none ∧
              y.trap.area = 0x1FFF00 + 64 * k ∧ y.trap.trapst = 0 ∧ y.trap.en = (l.img.handler != 0xFFFFFFFF) ∧
              (y.trap.en = true → y.trap.entry = l.img.handler)))) ∧
  ∀ (n : Nat) (s : State), let x := s.tile n
    ((x.unitOn = false ∨ ∃ k, k < 4 ∧ (s.strand n k).finished = false) → exec (.workUnitComplete n) s = .next s) ∧
    ∀ q l, x.unitOn = true → (∀ k, k < 4 → (s.strand n k).finished = true) → x.launch = some q → s.launch q = some l →
      let sum := l.digest + (s.strand n 0).digest + (s.strand n 1).digest + (s.strand n 2).digest + (s.strand n 3).digest
      ∃ t, exec (.workUnitComplete n) s = .next t ∧ (t.tile n).unitOn = false ∧ (t.tile n).running = none ∧
        (∀ m, m ≠ n → t.tile m = s.tile m) ∧
        ((∃ u ∈ l.tiles, u ≠ n ∧ (s.tile u).unitOn = true) → t.launch q = some { l with digest := sum }) ∧
        ((∀ u ∈ l.tiles, u ≠ n → (s.tile u).unitOn = false) →
          (l.phase ≠ .running → t.launch q = some { l with digest := sum, unit := l.unit + 1 }) ∧
          (l.phase = .running → l.unit + 1 < l.desc.wucount →
            t.launch q = some { l with digest := sum, unit := l.unit + 1, phase := .between } ∧
            ∃ c, s.cc < c ∧ c ≤ s.cc + 4096 ∧ (keyOf c 13, Event.workUnitStart q) ∈ t.agenda) ∧
          (l.phase = .running → l.desc.wucount ≤ l.unit + 1 →
            t.launch q = some { l with digest := sum, unit := l.unit + 1, endCode := some (l.endCode.getD 2) } ∧
            (keyOf s.cc 15, Event.launchEnd q) ∈ t.agenda))

/-- R296, R321: a launch that has ended OK writes its digest slot, frees its clusters and tiles and leaves its queue with code
OK, DIGEST or BROKEN; the first mismatch of a launch marked REEXEC queues a record and runs it again instead. One that ends
early leaves with its code. Registers stay as they are (R346). R305, R314, R316, R326: the loader waits for the saves of a launch
that stops, frees its clusters, and resumes it once nothing of higher priority needs them: from whole areas and regions its tiles
and clusters are as they were saved, and what no area holds is as at the work unit's start (which nodes and barriers a strand has
met stays: log 23); without one it ends as broken. Tiles that STOP words have stopped go on from theirs once the stop is
complete. -/
def Obligations.LaunchEnds : Prop :=
  (∀ (q : Nat) (s : State), (∀ l, s.launch q = some l → l.endCode = none) → exec (.launchEnd q) s = .next s) ∧
  (∀ (q : Nat) (l : Launch) (s : State), s.launch q = some l →
    let l' := { l with first := if l.runs = 1 then l.digest else l.first }
    let differs : Bool := l.recorded != 0 && l.recorded != l.digest
    let d := (s.queueCfg q).stn.toNat
    let slot := (s.queueCfg q).frame.toNat * 65536 + 34816 + 64 * (l.k % 256)
    (l.endCode = some 2 → (differs = false ∨ l.reexec = false ∨ l.runs ≠ 1) → ∃ t, exec (.launchEnd q) s = .next t ∧
      Closed s t q l' (if differs then 7 else if l.broken then 8 else 2) ∧
      ((s.die d).bad = [] → (s.die d).mem.wf = true →
        leNat ((t.die d).mem.reads (slot + 16) 16) = l'.first.toNat ∧ leNat ((t.die d).mem.reads (slot + 32) 16) = l.digest.toNat ∧
        (t.die d).mem.read (slot + 49) = BitVec.ofNat 8 l.runs) ∧
      (∀ c, (t.cluster c) = if c ∈ l.clusters ∧ (s.cluster c).launch = some q then { s.cluster c with
          tlb := [], walks := [], walkers := [], cw := 16, tw := 16, busy := false, store := [], split := none, kq := [], krun := none, launch := none, panel := none
          stream := [], saved := false, saving := false } else s.cluster c) ∧
      (∀ n, (n ∉ l.tiles ∨ (s.tile n).launch ≠ some q) → t.tile n = s.tile n) ∧
      ∀ n ∈ l.tiles, (s.tile n).launch = some q → (t.tile n).launch = none ∧ (t.tile n).unitOn = false ∧
        (t.tile n).running = none ∧ (t.tile n).scratch = (s.tile n).scratch ∧ ∀ k, let x := s.strand n k
          let y := t.strand n k
          y.started = false ∧ y.g = x.g ∧ y.p = x.p ∧ y.v = x.v ∧ y.m = x.m ∧ y.digest = x.digest) ∧
    (l.endCode = some 2 → differs = true → l.reexec = true → l.runs = 1 → ∃ t, exec (.launchEnd q) s = .next t ∧ SameBytes s t ∧
      t.launch q = some { l' with phase := .admitted, endCode := none, heldTo := none, edge := none } ∧
      (keyOf s.cc 13, Event.launchStart q) ∈ t.agenda ∧ t.tiles = s.tiles ∧ t.clusters = s.clusters ∧
      (l.desc.cstn < 8 → ∃ r, (t.die l.desc.cstn).healthQ.new = (s.die l.desc.cstn).healthQ.new ++ [(3, r)] ∧ r.length = 64 ∧ leNat r % 2 ^ 64 = l.desc.launchid.toNat ∧
        leNat r / 2 ^ 232 % 2 ^ 8 = 34 ∧ leNat r / 2 ^ 388 % 2 ^ 2 = 3)) ∧
    ∀ code, l.endCode = some code → code ≠ 2 → ∃ t, exec (.launchEnd q) s = .next t ∧ t.launch q = none ∧
      (keyOf s.cc 13, Event.launchTake q) ∈ t.agenda ∧ Reported s t q l code ∧
      (∀ c ∈ l.clusters, (s.cluster c).launch = some q → (t.cluster c).launch = none ∧ (t.cluster c).store = []) ∧
      ∀ n ∈ l.tiles, (s.tile n).launch = some q → (t.tile n).launch = none ∧ (t.tile n).unitOn = false) ∧
  ∀ (q : Nat) (s : State),
    ((∀ l, s.launch q = some l → l.phase = .taken ∨ l.phase = .admitted ∨ l.phase = .between ∨
        l.phase = .running ∧ ∀ n ∈ l.tiles, (s.tile n).saved = false) → exec (.launchResume q) s = .next s) ∧
    ∀ l, s.launch q = some l →
      (l.phase = .stopping → (∀ n ∈ l.tiles, ((s.tile n).retired = true ∨ (s.tile n).isolated = true ∨ (s.tile n).saved = true) ∧
          s.tileDrained n = true) →
        (∀ c ∈ l.clusters, (s.cluster c).saved = true) → ∃ t, exec (.launchResume q) s = .next t ∧ t.dies = s.dies ∧
        t.launch q = some { l with phase := .stopped } ∧ (keyOf s.cc 13, Event.launchResume q) ∈ t.agenda ∧
        (∀ c ∈ l.clusters, (s.cluster c).launch = some q → (t.cluster c).launch = none) ∧
        ∀ n, (t.tile n).scratch = (s.tile n).scratch) ∧
      (l.phase = .stopping → (∃ n ∈ l.tiles, s.tileDrained n = false) → ∃ t key, exec (.launchResume q) s = .next t ∧ SameBytes s t ∧
        t.launch q = some l ∧ (key, Event.launchResume q) ∈ t.agenda) ∧
      (l.phase = .stopped → (s.serial = true ∨ s.holders q l ≠ [] ∨ s.outranked q l = true) →
        exec (.launchResume q) s = .next s) ∧
      (l.phase = .stopped → s.serial = false → s.holders q l = [] → s.outranked q l = false →
        (∃ c ∈ l.clusters, s.regionValid c = false) → ∃ t, exec (.launchResume q) s = .next t ∧ t.dies = s.dies ∧
        t.launch q = some { l with
          phase := .running, preempted := false, keptT := [], keptC := [], endCode := some (l.endCode.getD 8) } ∧
        (keyOf s.cc 15, Event.launchEnd q) ∈ t.agenda) ∧
      (l.phase = .stopped → s.serial = false → s.holders q l = [] → s.outranked q l = false → l.desc.clbase + l.desc.clcount ≤ 256 →
        (∀ d, (s.die d).bad = [] ∧ (s.die d).mem.wf = true ∧ (s.die d).poolFrame ≤ 0xF5AE0) →
        (∀ c ∈ l.clusters, specWhole s (c / 32) (specRegionAt s c) ∧ ∃ y, SMap.find l.keptC c = some y) →
        (∀ n ∈ l.tiles, ∃ y, SMap.find l.keptT n = some y ∧ ((s.tile n).retired = true ∨ specWhole s (n / 256) (specArea s n) ∧
          y.saveArea = s.areaOf n ∧ ∀ k, k < 4 → (SMap.find y.strands k).isSome)) →
        ∃ t r, exec (.launchResume q) s = .next t ∧ t.launch q = some r ∧ r.preempted = false ∧ r.keptT = [] ∧ r.keptC = [] ∧
          r.desc = l.desc ∧ r.unit = l.unit ∧ ((∃ n ∈ l.tiles, ∃ y, SMap.find l.keptT n = some y ∧ y.unitOn = true) → r.phase = .running) ∧
          (∀ c ∈ l.clusters, (t.cluster c).launch = some q ∧ ClusterRestored s t c) ∧
          ∀ n ∈ l.tiles, (t.tile n).launch = some q ∧ ((s.tile n).retired = false → TileRestored s t n)) ∧
      (l.phase = .running → (∃ n ∈ l.tiles, (s.tile n).saved = true) →
        ((∃ n ∈ l.tiles, (s.tile n).stopOpen = true ∨ (s.tile n).saved = true ∧ s.tileDrained n = false) ∨
          ∃ c ∈ l.clusters, (s.cluster c).saving = true) →
        ∃ t key, exec (.launchResume q) s = .next t ∧ { t with agenda := s.agenda, clusters := s.clusters } = s ∧
          (key, Event.launchResume q) ∈ t.agenda) ∧
      (l.phase = .running → (∃ n ∈ l.tiles, (s.tile n).saved = true) → (∀ n ∈ l.tiles, (s.tile n).stopOpen = false) →
        (∀ c ∈ l.clusters, (s.cluster c).saving = false ∧ s.clusterStopped c = false ∧
          ((s.cluster c).saved = true → specWhole s (c / 32) (specRegionAt s c))) →
        l.desc.clbase + l.desc.clcount ≤ 256 → (∀ d, (s.die d).bad = [] ∧ (s.die d).mem.wf = true ∧ (s.die d).poolFrame ≤ 0xF5AE0) →
        (∀ n ∈ l.tiles, (s.tile n).saved = true → s.tileDrained n = true ∧ specWhole s (n / 256) (specArea s n) ∧
          (s.tile n).saveArea = s.areaOf n ∧ ∀ k, k < 4 → (SMap.find (s.tile n).strands k).isSome) →
        ∃ t, exec (.launchResume q) s = .next t ∧
          (∀ n ∈ l.tiles, (s.tile n).saved = true → TileRestored s t n) ∧
          ∀ c ∈ l.clusters, (s.cluster c).saved = true → ClusterRestored s t c)

/-! ### Stops -/

/-- R311: a request to stop sets PEND and DEEP of its strand, and its window expires STOPWIN cc later, or at once if it is deep;
a strand that does not run a unit, or runs a re-execution (R321, R326), takes none. When the window expires the request is
deep, and every strand of the tile that nothing holds stops where it stands. R312 to R316: a deep save begins when the tile has
drained and is complete within 9,216 cc; the area then holds what Tables TRP-3 and TRP-4 say of every strand and, after a deep
stop, of vectors, masks, array, Quilt, shadow pairs and scratchpad, and no byte outside the area changes. The cluster's region follows within its bound, and the loader keeps what it restores. -/
def Obligations.StopsAndSaves : Prop :=
  (∀ (n k : Nat) (deep : Bool) (s : State), let x := s.strand n k
    ((∀ l, s.launchOf n = some l → l.reexec = true ∧ l.runs = 2) ∨ k ∉ (s.tile n).live →
      exec (.stopFlagSet n k deep) s = .next s) ∧
    (∀ l, s.launchOf n = some l → (l.reexec = false ∨ l.runs ≠ 2) → k ∈ (s.tile n).live →
      ∃ t, exec (.stopFlagSet n k deep) s = .next t ∧ OnlyStrandOf s { t with agenda := s.agenda, slack := s.slack } n k ∧
        t.strand n k = { x with
          trap := { x.trap with pend := true, deep := deep || x.trap.deep }
          stopSince := if x.trap.pend then x.stopSince else s.cc
          stopUntil := if x.trap.pend then x.stopUntil else s.cc + s.stopwin } ∧
        ((deep || x.trap.deep) = true → (keyOf s.cc 14, Event.stopWindowExpiry n k) ∈ t.agenda) ∧
        (x.trap.pend = false → deep = false → x.trap.deep = false →
          (keyOf (s.cc + s.stopwin) 14, Event.stopWindowExpiry n k) ∈ t.agenda)) ∧
    (let idle := (∀ l, s.launchOf n = some l → l.reexec = true ∧ l.runs = 2) ∨ x.trap.pend = false ∨ x.halted = true ∨
        (s.tile n).saveAt ≠ none ∨ (s.tile n).saved = true
      let early := x.stopped = .no ∧ x.trap.deep = false ∧ s.cc < x.stopUntil
      (idle ∨ early → exec (.stopWindowExpiry n k) s = .next s) ∧
      (¬idle → ¬early → ∃ t, exec (.stopWindowExpiry n k) s = .next t ∧ (t.strand n k).trap.exp = true ∧
        ((∃ j ∈ (s.tile n).live, (s.strand n j).stopped = .no) → (t.tile n).saving = .deep) ∧
        ((s.tile n).saving ≠ .deep → ∀ j ∈ (s.tile n).live, (s.tile n).running ≠ some j → (s.strand n j).stopped = .no →
          (s.strand n j).hold = none → (s.strand n j).gang ≠ .ganged → (t.strand n j).stopped = .deep)))) ∧
  (∀ (n : Nat) (s : State), let x := s.tile n
    let e := Event.tileSaveComplete n
    ((x.saved = true ∨ x.saving = .no ∨ ∃ d, x.saveAt = some d ∧ s.cc < d) → exec (.tileSaveComplete n) s = .next s) ∧
    (x.saved = false → x.saving ≠ .no → x.saveAt = none → ∃ t, exec (.tileSaveComplete n) s = .next t ∧ SameBytes s t ∧
      (s.tileDrained n = false → { t with agenda := s.agenda } = s ∧ (keyOf (s.cc + 1) 14, e) ∈ t.agenda) ∧
      (s.tileDrained n = true → s.slack = [] → { t.tile n with saveAt := none } = x ∧ (t.tile n).saveAt = some (s.cc + 9216) ∧
        (keyOf (s.cc + 9216) 14, e) ∈ t.agenda)) ∧
    ∀ at_ l d b, x.saved = false → x.saving ≠ .no → x.saveAt = some at_ → at_ ≤ s.cc → s.launchOf n = some l →
      s.areaHome x.saveArea = some (d, b) → (s.die d).mem.wf = true → x.scratch.wf = true →
      ∃ t, exec (.tileSaveComplete n) s = .next t ∧ { t.tile n with saved := false, saveAt := some at_ } = x ∧
        (t.tile n).saved = true ∧ (t.tile n).saveAt = none ∧ (∀ m, m ≠ n → t.tile m = s.tile m) ∧
        (∀ m, m ≠ d → t.die m = s.die m) ∧ (∀ c, (t.cluster c).store = (s.cluster c).store) ∧
        dwordAt t d b = 1 + (if x.saving = .deep then 4 else 2) + 2 ^ 32 * l.desc.launchid.toNat ∧
        dwordAt t d (b + 8) = l.unit % 65536 ∧
        (∀ k, k < 4 → let y := s.strand n k
          let r := b + 0x1000 + 0x5000 * k
          SpecStrandHead y (fun o => dwordAt t d (r + o)) ∧
          dwordAt t d (r + 0x178) = (match y.node with | none => 0 | some m => m.pause.getD s.cc - m.since) % 2 ^ 64 ∧
          (x.saving = .deep → SpecStrandBody y fun o m => bytesAt t d (r + o) m)) ∧
        (x.saving = .deep → SpecTileRegion x (fun o m => bytesAt t d (b + o) m) ∧
          ∀ a, a < 0x200000 → (t.die d).mem.read (b + 0x50000 + a) = x.scratch.read a) ∧
        ∀ a, (a < b ∨ b + 0x250000 ≤ a) → (t.die d).mem.read a = (s.die d).mem.read a) ∧
  ∀ (c : Nat) (s : State), let x := s.cluster c
    let d := c / 32
    let b := ((s.die d).poolFrame + 1321 * (c % 32) + 296) * 65536
    (x.saving = false → exec (.clusterRegionSave c) s = .next s ∧ exec (.clusterStopComplete c) s = .next s) ∧
    (x.saving = true → s.clusterDrained c = false → ∃ t, exec (.clusterRegionSave c) s = .next t ∧
      { t with agenda := s.agenda } = s ∧ (keyOf (s.cc + 1) 14, Event.clusterRegionSave c) ∈ t.agenda) ∧
    (x.saving = true → s.clusterDrained c = true → s.slack = [] → ∃ t, exec (.clusterRegionSave c) s = .next t ∧
      { t with agenda := s.agenda } = s ∧
      (keyOf (s.cc + (32768 * (16 - x.cw) + 1024)) 14, Event.clusterStopComplete c) ∈ t.agenda) ∧
    (x.saving = true → (s.die d).mem.wf = true → x.store.wf = true → ∃ t, exec (.clusterStopComplete c) s = .next t ∧
      t.cluster c = { x with saving := false, saved := true } ∧ (∀ m, m ≠ c → t.cluster m = s.cluster m) ∧ t.tiles = s.tiles ∧
      (∀ m, m ≠ d → t.die m = s.die m) ∧
      (∀ q l, x.launch = some q → s.launch q = some l → dwordAt t d b = 1 + 2 ^ 32 * l.desc.launchid.toNat ∧
        (keyOf s.cc 13, Event.launchResume q) ∈ t.agenda ∧ ∃ r, t.launch q = some r ∧ { r with keptC := l.keptC, keptT := l.keptT } = l ∧
          SMap.find r.keptC c = some (t.cluster c) ∧ ∀ i, i < 8 → SMap.find r.keptT (8 * c + i) = some (s.tile (8 * c + i))) ∧
      dwordAt t d (b + 8) = x.waypart.toNat ∧ dwordAt t d (b + 0x10) = x.kcfg.lr.toNat + 2 ^ 32 * x.kcfg.eps.toNat ∧
      (∀ a, a < (16 - x.cw) * 0x400000 → (t.die d).mem.read (b + 0x10000 + a) = x.store.read a) ∧
      ∀ a, (a < b ∨ b + 0x10000 + (16 - x.cw) * 0x400000 ≤ a) → (t.die d).mem.read a = (s.die d).mem.read a)

/-! ### Health -/

/-- R317: a tile whose hang watchdog has counted 1,048,576 cc, or whose save sequencer overran, is isolated and tested, the save
that it made, of the tile or of its cluster's region, is abandoned; before that, nothing happens. R318, R319, R304: a self-test
queues its record, and its verdict follows within 65,536 cc. A transient verdict retires nothing; one of a port reports as broken
the bounds of what the port held (R234), and those launches run on. A lasting one retires, isolates or replaces its unit, and
every launch that depends on the unit ends as broken, whether or not a spare serves; of a row of a stack (R80; here one line,
log 33) the contents are lost, and a memory record says whether a spare row serves. -/
def Obligations.HealthAndTests : Prop :=
  (∀ (n : Nat) (s : State), let x := s.tile n
    let u : TestUnit := ⟨11, n / 256, n, 0⟩
    let gone (t : State) : Prop := (t.tile n).isolated = true ∧ (t.tile n).running = none ∧ (t.tile n).act = none ∧
      (t.tile n).hang = 0 ∧ (∀ m, m ≠ n → t.tile m = s.tile m) ∧ SameBytes s t ∧ t.clusters = s.clusters ∧ t.dies = s.dies ∧
      t.launches = s.launches ∧ TestAsked s t u
    (x.hang < 1048576 → exec (.hangWatchdog n) s = .next s) ∧
    (1048576 ≤ x.hang → ∃ t, exec (.hangWatchdog n) s = .next t ∧ gone t ∧
      { t.tile n with isolated := x.isolated, running := x.running, act := x.act, hang := x.hang } = x) ∧
    let c := n / 8
    let region := (s.cluster c).saving = true ∧ SpecCopier s n
    (¬region → (x.saving = .no ∨ x.saved = true) → exec (.sequencerOverrun n) s = .next s) ∧
    (¬region → x.saving ≠ .no → x.saved = false → ∃ t, exec (.sequencerOverrun n) s = .next t ∧ gone t ∧ (t.tile n).saving = .no ∧
      (t.tile n).saveAt = none) ∧
    (region → ∃ t, exec (.sequencerOverrun n) s = .next t ∧ SameBytes s t ∧ t.dies = s.dies ∧ TestAsked s t u ∧
      (∀ m, m ≠ n → t.tile m = s.tile m) ∧ t.tile n = { x with isolated := true, running := none, act := none, hang := 0 } ∧
      (∀ m, m ≠ c → t.cluster m = s.cluster m) ∧ t.cluster c = { s.cluster c with saving := false, saved := true } ∧
      ∀ e ∈ t.agenda, e.2 ≠ .clusterRegionSave c ∧ e.2 ≠ .clusterStopComplete c)) ∧
  (∀ (u : TestUnit) (s : State), s.slack = [] → ∃ t lasting spared, exec (.selfTestStart u) s = .next t ∧ TestRecorded s t u 0 ∧
    (keyOf (s.cc + 65536) 14, Event.selfTestVerdict u lasting spared) ∈ t.agenda ∧ t.tiles = s.tiles ∧ t.clusters = s.clusters ∧
    t.launches = s.launches ∧ SameBytes s t ∧ ∀ d, d ≠ u.die → t.die d = s.die d) ∧
  ∀ (u : TestUnit) (spared : Bool) (s : State),
    (let held := SMap.get [] s.ports u.index
     ∃ t, exec (.selfTestVerdict u false spared) s = .next t ∧ TestRecorded s t u 1 ∧
      t.clusters = s.clusters ∧ SameBytes s t ∧ t.ready = s.ready ∧
      (u.code ≠ 8 ∨ held = [] → t.launches = s.launches ∧ t.outputs = s.outputs) ∧
      (u.code ≠ 8 → t.ports = s.ports) ∧
      (u.code = 8 → SMap.find t.ports u.index = none ∧ (held ≠ [] → t.outputs = s.outputs ++ [.broken 8 u.index] ∧
        ∀ q, t.launch q = (s.launch q).map fun l => if q ∈ held then { l with broken := true } else l)) ∧
      (u.code ≠ 11 → t.tiles = s.tiles) ∧
      (u.code = 11 → (∀ m, m ≠ u.tile → t.tile m = s.tile m) ∧
        t.tile u.tile = { s.tile u.tile with isolated := false, act := some s.cc })) ∧
    ∃ t, exec (.selfTestVerdict u true spared) s = .next t ∧ TestRecorded s t u 2 ∧
      (let retires := u.code ∈ [4, 5, 6, 7, 11] ∨ u.code = 1 ∧ spared = false
       (retires → t.tile u.tile = { s.tile u.tile with retired := true, running := none, act := none }) ∧
       (∀ m, (¬retires ∨ m ≠ u.tile) → t.tile m = s.tile m) ∧
       (u.code = 2 → spared = false → t.cluster (clusterOf u.tile) =
          { s.cluster (clusterOf u.tile) with maxCw := (s.cluster (clusterOf u.tile)).maxCw - 1 }) ∧
       (u.code ≠ 2 ∨ spared = true → t.clusters = s.clusters) ∧
       (u.code = 9 ∨ u.code = 10 ∧ spared = false → (t.die u.die).isolated = true ∧
          t.ready = s.ready &&& ~~~((1 : DWord) <<< (8 + u.die))) ∧
       (u.code ≠ 9 → (u.code ≠ 10 ∨ spared = true) → t.ready = s.ready) ∧
       (u.code = 3 → (t.die u.die).bad = (s.die u.die).bad.filter (· ≠ u.index) ∧
          (t.die u.die).spared = (if spared then u.index :: (s.die u.die).spared else (s.die u.die).spared) ∧
          (t.die u.die).retired = (if spared then (s.die u.die).retired else u.index / 65536 :: (s.die u.die).retired) ∧
          (∃ p r, (t.die u.die).memQ.new = (s.die u.die).memQ.new ++ [(p, r)] ∧ leNat r % 2 ^ 36 = u.index % 2 ^ 36 / 128 * 128 ∧
            leNat r / 2 ^ 64 % 256 = (if spared then 5 else 6) ∧ leNat r / 2 ^ 88 % 4 = 2) ∧
          ((s.die u.die).mem.wf = true → ∀ a, (t.die u.die).mem.read a =
            if u.index ≤ a ∧ a < u.index + 128 then 0 else (s.die u.die).mem.read a)) ∧
       (u.code ≠ 3 → SameBytes s t) ∧
       t.outputs = s.outputs ++ [.broken u.code u.index] ∧
       (∀ q l, s.launch q = some l → SpecDepends s l u → l.phase ≠ .taken →
          t.launch q = some { l with endCode := some (l.endCode.getD 8) } ∧ (keyOf s.cc 15, Event.launchEnd q) ∈ t.agenda) ∧
       ∀ q, (∀ l, (q, l) ∈ s.launches → ¬SpecDepends s l u ∨ l.phase = .taken) → t.launch q = s.launch q)

/-! ### The host -/

/-- R331, R335: a host access inside the HDM window and within one trained stack reads and writes exactly its bytes, at stack
offset h[35:0] of die h[38:36]; any other is refused, a read with zeros. R101: a write to a frame that has holders is refused.
R335, R336: a reset leaves every field at its reset value, but for what the outside has seen and the model's free values; a
function sets its bit when the stages it depends on have run; a boot stage is measured once, after those before it, and runs
only if both its signatures verify. -/
def Obligations.HostMemoryAndBoot : Prop :=
  (∀ (h n : Nat) (s : State), let d := h / 2 ^ 36
    let off := h % 2 ^ 36
    let ok := h + n ≤ 2 ^ 39 ∧ d = (h + n - 1) / 2 ^ 36 ∧ s.ready.getLsbD (16 + d) = true
    (¬ok → ∃ t, exec (.hdmRead h n) s = .next t ∧ RefusedRead s t n) ∧
    (ok → (s.die d).bad = [] → (s.die d).wrong = [] → ∃ t bs, exec (.hdmRead h n) s = .next t ∧ Emits s t (.data bs) ∧ bs.length = n ∧
      ((s.die d).mem.wf = true → ∀ i, i < n → bs[i]? = some ((s.die d).mem.read (off + i)))) ∧
    (ok → s.isBad d off n = true → ∃ t, exec (.hdmRead h n) s = .next t ∧ SameBytes s t ∧
      ∃ bs, t.outputs = s.outputs ++ [.data bs] ∧ bs.length = n ∧ ∀ i, i < n → s.isBad d (off + i) 1 = true → bs[i]? = some 0)) ∧
  (∀ (h : Nat) (bytes : List Byte) (s : State), let d := h / 2 ^ 36
    let off := h % 2 ^ 36
    let n := bytes.length
    let ok := h + n ≤ 2 ^ 39 ∧ d = (h + n - 1) / 2 ^ 36 ∧ s.ready.getLsbD (16 + d) = true
    let held := s.shared d off = true ∨ s.shared d (off + n - 1) = true
    (¬ok → ∃ t, exec (.hdmWrite h bytes) s = .next t ∧ Refused s t) ∧
    (ok → held → ∃ t, exec (.hdmWrite h bytes) s = .next t ∧ SameBytes s t ∧ t.tiles = s.tiles ∧ t.clusters = s.clusters ∧
      t.hosterr.toNat = min (s.hosterr.toNat + 1) (2 ^ 64 - 1)) ∧
    (ok → ¬held → (s.die d).bad = [] → (s.die d).wrong = [] → ∃ t, exec (.hdmWrite h bytes) s = .next t ∧ { t with dies := s.dies } = s ∧
      (∀ m, m ≠ d → t.die m = s.die m) ∧ { t.die d with mem := (s.die d).mem } = s.die d ∧
      ((s.die d).mem.wf = true → ∀ a, (t.die d).mem.read a =
        if q : off ≤ a ∧ a < off + n then bytes[a - off]'(by omega) else (s.die d).mem.read a))) ∧
  (∀ s : State, ∃ t, exec .packageReset s = .next t ∧
    { t with outputs := [], slack := [], fresh := 0 } = State.reset ∧ t.outputs = s.outputs) ∧
  (∀ (fn : ReadyFn) (s : State),
    (¬readyAfter s fn → exec (.functionReady fn) s = .next s) ∧
    (readyAfter s fn → ∃ t, exec (.functionReady fn) s = .next t ∧
      { t with ready := s.ready, coord := s.coord, extent := s.extent, agenda := s.agenda } = s ∧
      (∀ i, i < 64 → t.ready.getLsbD i = (s.ready.getLsbD i || i == readyPlace fn)) ∧
      (∀ x y z ex ey ez, fn = .torus x y z ex ey ez → x < 16 → y < 16 → z < 16 → 0 < ex → 0 < ey → 0 < ez →
        t.coord.toNat = x + 16 * y + 256 * z ∧ t.extent = (ex, ey, ez)) ∧
      (fn = .loader → ∀ q ∈ s.qcfg, q.2.en = true → (keyOf s.cc 13, Event.launchTake q.1) ∈ t.agenda) ∧
      (fn ≠ .loader → t.agenda = s.agenda))) ∧
  ∀ (b : BootStage) (ed ml : Bool) (s : State), let p := stagePlace b
    let inOrder := (∀ e ∈ s.measured, e.1 ≠ p.1) ∧ ∀ i ∈ p.2, ∃ e ∈ s.measured, e.1 = i
    (¬inOrder → exec (.bootStage b ed ml) s = .next s) ∧
    (inOrder → ∃ t bs, exec (.bootStage b ed ml) s = .next t ∧ { t with measured := s.measured, booted := s.booted } = s ∧
      t.measured = s.measured ++ [(p.1, bs)] ∧ bs.length = 64 ∧
      ∀ c, c ∈ t.booted ↔ c ∈ s.booted ∨ c = b ∧ ed = true ∧ ml = true)

/-- R335, R337: each of the seven requests is answered once the responder is ready, and refused before that. GET_VERSION answers
SPDM 1.3, GET_DIGESTS two SHA-512 digests; CHALLENGE holds an Ed25519 and an ML-DSA-65 signature, 64 and 3,309 bytes;
GET_MEASUREMENTS every measurement of the log, in its order, and both signatures. The bytes that the device's keys decide are
free (log 11). -/
def Obligations.Attestation : Prop :=
  ∀ (chain nonce : Nat) (s : State),
    Answers .getVersion s 0 (fun bs => bs = [0x13]) ∧
    Answers .getCapabilities s 1 (fun bs => bs ≠ []) ∧
    Answers .negotiateAlgorithms s 2 (fun bs => bs ≠ []) ∧
    Answers .getDigests s 3 (fun bs => bs.length = 128) ∧
    Answers (.getCertificate chain) s 4 (fun bs => bs ≠ [] ∧ ∃ t,
      exec (.getCertificate (chain + 2)) s = .next t ∧ t.outputs = s.outputs ++ [.message 4 bs]) ∧
    Answers (.challenge nonce) s 5 (fun bs => bs.length = 64 + 3309) ∧
    Answers (.getMeasurements nonce) s 6 (fun bs =>
      bs.take (s.measured.flatMap (·.2)).length = s.measured.flatMap (·.2) ∧
      bs.length = (s.measured.flatMap (·.2)).length + 64 + 3309)

/-- R332 to R335, R338, R339 (Tables SYS-1 to SYS-5): a 16-byte write of the add port adds to its counter behind the adds of every
other source of its cc, any other is refused; a read slot returns its counter; a watch entry that its counter already meets raises
its vector at once; a pop port pops the oldest record, or, in a cc in which SFLT has popped the queue, waits for the next (R334).
STAGGER and its message set the package's slot. A write or read of the window that is not an aligned one of 8 or 16 bytes, or a
64-byte read of a pop port, is refused; a register at its offset is written by the rules of its fields, and read; a 16-byte write
of two registers is the two writes. -/
def Obligations.ManagementWindow : Prop :=
  (∀ (n d id : Nat) (inc : DWord) (s : State),
    (n ≠ 16 ∨ ¬HostReaches s d id → ∃ t, exec (.counterAddPort n d id inc) s = .next t ∧ Refused s t) ∧
    (HostReaches s d id → ∃ t, exec (.counterAddPort 16 d id inc) s = .next t ∧ HostAddQueued s t d id inc) ∧
    (HostReaches s d id → 2 ^ 64 ≤ (s.ctrGet d id).toNat + inc.toNat →
      ∃ t, exec (.counterAdd d id inc .host) s = .next t ∧ Refused s t) ∧
    (HostReaches s d id → id < 65536 → (s.ctrGet d id).toNat + inc.toNat < 2 ^ 64 →
      ∃ t, exec (.counterAdd d id inc .host) s = .next t ∧ (t.ctrGet d id).toNat = (s.ctrGet d id).toNat + inc.toNat ∧
        SameBytes s t ∧ t.hosterr = s.hosterr ∧ ∀ e j, j < 65536 → (e, j) ≠ (d, id) → t.ctrGet e j = s.ctrGet e j)) ∧
  (∀ (k : Nat) (s : State), let c := SMap.get (0, 0) s.slots k
    (HostReaches s c.1 c.2 → ∃ t, exec (.counterReadSlot k) s = .next t ∧
      Emits s t (.data (leBytes 8 (s.ctrGet c.1 c.2).toNat))) ∧
    (¬HostReaches s c.1 c.2 → ∃ t, exec (.counterReadSlot k) s = .next t ∧ RefusedRead s t 8)) ∧
  (∀ (k d id : Nat) (v : DWord) (s : State), ∃ t, exec (.watchEntryWrite k d id v) s = .next t ∧
    { t with watches := s.watches, outputs := s.outputs, hosterr := s.hosterr } = s ∧
    (∀ j, j ≠ k → SMap.find t.watches j = SMap.find s.watches j) ∧
    (¬HostReaches s d id → SMap.find t.watches k = some (d, id, 0) ∧ t.outputs = s.outputs ∧
      t.hosterr.toNat = min (s.hosterr.toNat + 1) (2 ^ 64 - 1)) ∧
    (HostReaches s d id → t.hosterr = s.hosterr ∧
      (v ≠ 0 → v.toNat ≤ (s.ctrGet d id).toNat →
        SMap.find t.watches k = some (d, id, 0) ∧ t.outputs = s.outputs ++ [.msix k]) ∧
      ((v = 0 ∨ (s.ctrGet d id).toNat < v.toNat) → SMap.find t.watches k = some (d, id, v) ∧ t.outputs = s.outputs))) ∧
  (∀ (d q n : Nat) (s : State), let x := s.die d
    let given (l : List (List Byte)) : List Byte := l.headD [] ++ List.replicate (64 - (l.headD []).length) 0
    (n ≠ 64 → ∃ t, exec (.popPortRead d q n) s = .next t ∧ Refused s t) ∧
    (8 ≤ d ∨ q = 2 ∨ 3 < q ∨ s.ready.getLsbD (8 + d) = false → ∃ t, exec (.popPortRead d q 64) s = .next t ∧ RefusedRead s t 64) ∧
    (d < 8 → s.ready.getLsbD (8 + d) = true →
      (∀ p y, (p, y) ∈ [(0, x.memQ), (1, x.migQ), (3, x.healthQ)] → y.popped = s.cc + 1 → ∃ t,
        exec (.popPortRead d p 64) s = .next t ∧ { t with agenda := s.agenda } = s ∧
        (keyOf (s.cc + 1) slotHost, Event.popPortRead d p 64) ∈ t.agenda) ∧
      (x.memQ.popped ≠ s.cc + 1 → ∃ t, exec (.popPortRead d 0 64) s = .next t ∧
        Emits (s.onDie d fun y => { y with memQ := { x.memQ with recs := x.memQ.recs.tail } }) t (.data (given x.memQ.recs))) ∧
      (x.migQ.popped ≠ s.cc + 1 → ∃ t, exec (.popPortRead d 1 64) s = .next t ∧
        Emits (s.onDie d fun y => { y with migQ := { x.migQ with recs := x.migQ.recs.tail } }) t (.data (given x.migQ.recs))) ∧
      (x.healthQ.popped ≠ s.cc + 1 → ∃ t, exec (.popPortRead d 3 64) s = .next t ∧
        Emits (s.onDie d fun y => { y with healthQ := { x.healthQ with recs := x.healthQ.recs.tail } }) t
          (.data (given x.healthQ.recs))))) ∧
  (∀ (v : DWord) (en : Bool) (width : Nat) (s : State),
    (∃ u t, exec (.staggerWrite v) s = .next t ∧ Staggers s u (v.getLsbD 63) (v.toNat % 65536) ∧
      Emits u t (.stagger (v.getLsbD 63) u.power.stgWidth.toNat)) ∧
    ∃ t, exec (.staggerMessage en width) s = .next t ∧ Staggers s t en width) ∧
  ∀ (o n : Nat) (w : BitVec 128) (s : State), let v : DWord := w.extractLsb' 0 64
    let hi : DWord := w.extractLsb' 64 64
    let d' := v.toNat / 2 ^ 24 % 16
    let id := v.toNat % 2 ^ 24
    ((n ≠ 8 ∧ n ≠ 16) ∨ o % n ≠ 0 → ∃ t, exec (.mgmtRegisterWrite o n w) s = .next t ∧ Refused s t) ∧
    ((n ≠ 8 ∧ n ≠ 16 ∧ n ≠ 64) ∨ o % n ≠ 0 → ∃ t, exec (.mgmtWindowRead o n) s = .next t ∧ RefusedRead s t n) ∧
    (o % 64 = 0 → (∀ d q, d < 8 → q < 4 → o = 0x30000 + 0x100 * d + 0x40 * q →
        exec (.mgmtWindowRead o 64) s = exec (.popPortRead d q 64) s) ∧
      (o < 0x30000 ∨ 0x30800 ≤ o → ∃ t, exec (.mgmtWindowRead o 64) s = .next t ∧ RefusedRead s t 64)) ∧
    (o = 0x20000 ∨ o = 0x20008 ∨ 0x30000 ≤ o ∧ o < 0x30800 → o % 8 = 0 →
      ∃ t, exec (.mgmtRegisterWrite o 8 w) s = .next t ∧ Refused s t) ∧
    (0x30000 ≤ o → o < 0x30800 → o % 16 = 0 → ∃ t, exec (.mgmtRegisterWrite o 16 w) s = .next t ∧ Refused s t) ∧
    (o = 0x20000 → (HostReaches s d' id → ∃ t, exec (.mgmtRegisterWrite o 16 w) s = .next t ∧ HostAddQueued s t d' id hi) ∧
      (¬HostReaches s d' id → ∃ t, exec (.mgmtRegisterWrite o 16 w) s = .next t ∧ Refused s t)) ∧
    (∀ k, k < 16 → o = 0x22000 + 16 * k →
      exec (.mgmtRegisterWrite o 16 w) s = exec (.watchEntryWrite k d' id hi) s) ∧
    (o < 0x20000 → o % 16 = 0 → ∃ u t, exec (.mgmtRegisterWrite o 8 w) s = .next u ∧
      exec (.mgmtRegisterWrite (o + 8) 8 (hi.setWidth 128)) u = .next t ∧ exec (.mgmtRegisterWrite o 16 w) s = .next t) ∧
    (o = 0 ∨ o = 0x10 ∨ 0x31000 ≤ o → o % 8 = 0 → exec (.mgmtRegisterWrite o 8 w) s = .next s) ∧
    (let rate := v.toNat % 512
      let floor := v.toNat / 2 ^ 32 % 512
      ∃ t, exec (.mgmtRegisterWrite 0x100 8 w) s = .next t ∧ { t with power := s.power } = s ∧
        t.power.rate.toNat = (if 50 ≤ rate ∧ rate ≤ 300 then rate else s.power.rate.toNat) ∧
        t.power.floor.toNat = (if floor ≤ 60 then floor else s.power.floor.toNat) ∧
        { t.power with rate := s.power.rate, floor := s.power.floor } = s.power) ∧
    (∀ r, pkgAt r = some o → ∃ t u, exec (.mgmtRegisterWrite o 8 w) s = .next t ∧ SameBytes s t ∧ t.tiles = s.tiles ∧
      (∀ f ∈ sysFields r, (t.pkgRead r).extractLsb' f.lo f.n = (if f.ok v then v else s.pkgRead r).extractLsb' f.lo f.n) ∧
      exec (.mgmtWindowRead o 8) s = .next u ∧ Emits s u (.data (leBytes 8 (s.pkgRead r).toNat))) ∧
    (∀ r d, d < 8 → dieAt d r = some o →
      (s.ready.getLsbD (8 + d) = false → (∃ t, exec (.mgmtRegisterWrite o 8 w) s = .next t ∧ Refused s t) ∧
        ∃ t, exec (.mgmtWindowRead o 8) s = .next t ∧ RefusedRead s t 8) ∧
      (s.ready.getLsbD (8 + d) = true → ∃ t u, exec (.mgmtRegisterWrite o 8 w) s = .next t ∧ SameBytes s t ∧ { t with dies := s.dies } = s ∧
        (∀ m, m ≠ d → t.die m = s.die m) ∧
        (∀ f ∈ sysFields r, ((t.die d).readReg r).extractLsb' f.lo f.n =
          (if f.ok v then v else (s.die d).readReg r).extractLsb' f.lo f.n) ∧
        exec (.mgmtWindowRead o 8) s = .next u ∧ Emits s u (.data (leBytes 8 ((s.die d).readReg r).toNat)))) ∧
    (∀ w, (o, w) ∈ [(0, s.ready ||| 2), (0x10, s.hosterr)] → ∃ t, exec (.mgmtWindowRead o 8) s = .next t ∧
      Emits s t (.data (leBytes 8 w.toNat))) ∧
    (0x31000 ≤ o → o % 8 = 0 → ∃ t, exec (.mgmtWindowRead o 8) s = .next t ∧ Emits s t (.data (List.replicate 8 0)))

/-! ### Encodings -/

/-- R20, R27, R28: every well-formed instruction decodes from its words, with every operand, the chain bit after it and the
words behind it, unless its words end chained before an L word. -/
def Obligations.DecodeOfEncode : Prop :=
  ∀ (i : Instr) (c : Bool) (es rest : List Word), wellFormed i = true → encode c i = some es →
    (c = true → ∀ w ∈ rest.head?, isL w = false) → decodeOne (es ++ rest) = .ok (c, i, rest)

/-- R20, R27, R28, R40: what decodes is well-formed, and its words are those that the encoder gives it: no bit of a word is
ignored, and no two words mean one instruction. -/
def Obligations.EncodeOfDecode : Prop :=
  ∀ (ws : List Word) (c : Bool) (i : Instr) (rest : List Word), decodeOne ws = .ok (c, i, rest) →
    wellFormed i = true ∧ ∃ es, encode c i = some es ∧ ws = es ++ rest

/-- R41: the all-zero word is S.NOP, a bundle of one word that has no effect and takes one cc; with C = 1 it is a member of a
larger bundle and counts as one of its two S words. Beside it, words written out from the layouts of the spec decode to the
instructions that they stand for. -/
def Obligations.DecodedWords : Prop :=
  (∀ r : List Word, decodeOne (0 :: r) = .ok (false, .nop, r)) ∧
  (∀ s : State, exec .nop s = .next s) ∧
  (∀ (code : List Word) (n : Nat), code[n]? = some 0 → bundleAt code n = .ok ([(0, .nop)], 1)) ∧
  (∀ s : State, s.bun = { s.bun with len := 1, target := none, jump := none, stall := 0, follow := false } →
    let t := s.advance [] [(0, .nop)] false
    t.me.pc = s.bun.first + 1 ∧ t.me.nextCc = s.cc + 1 ∧ { t.me with
      pc := s.me.pc, nextCc := s.me.nextCc, stopHere := s.me.stopHere, bundles := s.me.bundles
      transferFrom := s.me.transferFrom } = s.me) ∧
  (∀ r : List Word, (∀ w ∈ r.head?, isL w = false) → decodeOne (0x80000000 :: r) = .ok (true, .nop, r)) ∧
  classesOk [(0, .nop), (0, .nop)] = true ∧ classesOk [(0, .nop), (0, .nop), (0, .nop)] = false ∧
  (∀ p ∈ [((0x00220400 : Word), Instr.addImm 2 0 0 []), (0x11400603, .lseti false 3 3), (0x02241401, .shlImm 4 2 1 []),
      (0x12C00000, .halt), (0x04501000, .stg .kiln 0 8), (0x600A0000, .srd 5 .schedmode), (0x604C000C, .swr 6 .stopflag),
      (0x60800001, .tret true), (0x61C80006, .stop 4 true .launch), (0x614E0000, .csav 7), (0x618E0000, .crst 7),
      (0x62100010, .slp 8 16), (0x62443000, .sflt 2 3 .memory), (0x41000200, .qdom 1), (0x43000020, .qrdv false 1)],
    decodeOne [p.1] = .ok (false, p.2, []))

/-! ### Steps -/

/-- R2, R24, R26, R40: a step that the agenda holds and that has come is the meaning of its row. At a strand's turn, a bundle
that passes its checks runs its words, in their order, and the strand goes on; where the bundle is one word, that is exec of
the instruction that the words at the pc decode to. A word that decodes to nothing takes the illegal-instruction trap, and any
check that traps takes its trap. R14, R33, R164: a member of a panel runs the bundle that its lead has passed on, at its own skew,
with its own registers and memory and the lead's array staging, and goes where the lead went; a violation of its own is a
schedule fault of its panel. When nothing is left to do in a cc, the next begins. -/
def Obligations.StepRunsDecoded : Prop :=
  (∀ (i : Instr) (e : Event) (key : Nat) (r : List (Nat × Event)) (s : State), i.event? = some e → s.agenda = (key, e) :: r →
    key < s.horizon → step s = exec i { s with agenda := r }) ∧
  (∀ e : Event, ∃ i : Instr, i.event? = some e) ∧
  (∀ (n k len : Nat) (l : List (Nat × Instr)) (s : State), Turn s n k → let u := atBundle s n k
    (s.strand n k).stopHere = false → u.look n k none = .go l len → (hasNode l = true → u.nodeStop n k = none) →
    let b := begun u n k len
    step s = finishBundle b n k l ((s.tile n).saving == .deep) (runWords (wordOrder l) b) ∧
    ∀ c i, l = [(c, i)] → step s = finishBundle b n k l ((s.tile n).saving == .deep) (exec i b)) ∧
  (∀ (n k len : Nat) (l : List (Nat × Instr)) (s : State), let x := s.strand n k
    let is := l.map (·.2)
    let b := s.begin n k len false none
    s.fetch n k = .ok (l, len) → s.present n k x.pc.toNat = true → (x.trap.priv = true ∨ ∀ w ∈ l, needsPriv w = false) →
    pendingOf is b ≤ s.cc → checkAll is b = .ok → s.look n k none = .go l len) ∧
  (∀ (n k : Nat) (w : Word) (i : Instr) (rest ws : List Word) (s : State), let code := (s.image n).code
    let pc := (s.strand n k).pc.toNat
    (code.drop pc).take 6 = w :: ws → decodeOne (w :: ws) = .ok (false, i, rest) → packetsOk pc (ws.length + 1 - rest.length) = true →
    s.reaches n k pc = true → isFirst code pc = true → s.fetch n k = .ok ([(classOf w, i)], ws.length + 1 - rest.length)) ∧
  (∀ (n k : Nat) (e : DecodeErr) (s : State), let code := (s.image n).code
    let pc := (s.strand n k).pc.toNat
    pc < code.length → s.reaches n k pc = true → isFirst code pc = true → bundleAt code pc = .error e →
    s.look n k none = .trap (s.preciseAt n k .illegal none none)) ∧
  (∀ (n k : Nat) (i : TrapInfo) (s : State), Turn s n k → let u := atBundle s n k
    u.look n k none = .trap i → step s = .next (u.spend.trapNow n k i)) ∧
  (∀ (n k : Nat) (it : LeadBundle) (s : State), MemberTurn s n k it → let due := it.cc + specSkew n
    (s.cc < due → step s = .next (s.onTile n fun y => { y with act := some due })) ∧
    ∀ (l : List (Nat × Instr)) (len : Nat), due ≤ s.cc → it.kind = .issue → (s.strand n k).block = none →
      bundleAt (s.image n).code it.pc.toNat = .ok (l, len) →
      let b := (memberAt s n k it).begin n k len true (some it.stg)
      (pendingOf (l.map (·.2)) b ≤ s.cc → (checkAll (l.map (·.2)) b).traps = false →
        let u := memberBegun s n k len it
        step s = finishMember u n k l it (runWords (wordOrder l) u)) ∧
      (s.cc < pendingOf (l.map (·.2)) b → ∀ p, (s.cluster (n / 8)).panel = some p → ∃ t q i, step s = .next t ∧ SameBytes s t ∧
        (t.cluster (n / 8)).panel = some q ∧ q.traps = p.traps ++ [(s.cc, i)] ∧ i.cause = .schedule)) ∧
  ∀ s : State, (∀ e ∈ s.agenda.head?, s.horizon ≤ e.1) →
    (s.late = true → ∃ t, step s = .next t ∧ t.cc = s.cc + 1 ∧ t.late = false ∧ SameBytes s t) ∧
    (s.late = false → s.nextCore = none → step s = .next { s with late := true })

/-- Every byte memory, those that the loader keeps of a stopped launch included, stays in its canonical form: addresses rise,
and no listed byte is the zero that an unlisted one reads as (log 3). R301: the clock, and the one that waits, stays one of its
seven steps. R76: what a die says of its stack's lines names whole lines of 128 bytes. From every state in that form, a
step that answers a next state leaves one in that form. -/
def Obligations.MemoriesStayCanonical : Prop :=
  ∀ s t : State, Canonical s → step s = .next t → Canonical t

/-- The state after reset: no memory lists a byte, no launch and no step is there, and every system register, the ready map,
HOSTERR, DAMPER and STAGGER read as the tables of the spec reset them, on every tile and strand. -/
def Obligations.ResetState : Prop :=
  let s := State.reset
  Canonical s ∧ s.cc = 0 ∧ s.agenda = [] ∧ s.launches = [] ∧ s.readyMap = 2 ∧ s.hosterr = 0 ∧
  s.power.damperWord = 0x3C0000012C ∧ s.power.staggerWord = 100 ∧
  ∀ n k : Nat, k < 4 → (∀ a, (s.tile n).scratch.read a = 0) ∧ (s.strand n k).started = false ∧
    (∀ p ∈ [(SysReg.schedmode, (0 : DWord)), (.efrv, 0x5000), (.efra, 0x198000), (.loop0se, 0), (.loop0ct, 0), (.loop1se, 0),
        (.loop1ct, 0), (.trapst, 0), (.trappc, 0), (.trapvec, 0), (.stopflag, 0), (.savearea, 0), (.waypart, 0x1010),
        (.ptroot, 0), (.migthr, 0), (.agelimit, 2048), (.rfctr, 0), (.mlrjoin, 65536), (.ctrarea, 0),
        (.memgov, 0x0008010000100401), (.savepool, 0), (.bundlelimit, 4096), (.stopwin, 65536), (.readymap, 2)],
      s.sysRead n k p.1 = p.2) ∧
    (s.sysRead n k .traprec).toNat = 0x1FFF00 + 64 * k ∧ ∀ q, s.sysRead n k (.qcfg q) = 0
end

