-- ==== Sys2Proof/Laws/State.lean ====
section
/-! SUPPORT. Maps by key; one lemma per part of the state and update: what each reads after. -/
namespace Sys2Proof

theorem SMap.get_put {α : Type} (d : α) (m : SMap α) (k j : Nat) (v : α) :
    SMap.get d (SMap.put m k v) j = if j = k then v else SMap.get d m j := by
  induction m with
  | nil => simp only [SMap.put, SMap.get]; grind
  | cons e m ih => obtain ⟨i, x⟩ := e; simp only [SMap.put]; split <;> (try split) <;> simp only [SMap.get] <;> grind

@[simp] theorem SMap.get_put_same {α : Type} (d : α) (m : SMap α) (k : Nat) (v : α) :
    SMap.get d (SMap.put m k v) k = v := by simp [SMap.get_put]

theorem SMap.get_put_ne {α : Type} (d : α) (m : SMap α) {k j : Nat} (h : j ≠ k) (v : α) :
    SMap.get d (SMap.put m k v) j = SMap.get d m j := by simp [SMap.get_put, h]

theorem SMap.find_put {α : Type} (m : SMap α) (k j : Nat) (v : α) :
    SMap.find (SMap.put m k v) j = if j = k then some v else SMap.find m j := by
  induction m with
  | nil => simp only [SMap.put, SMap.find]; grind
  | cons e m ih => obtain ⟨i, x⟩ := e; simp only [SMap.put]; split <;> (try split) <;> simp only [SMap.find] <;> grind

theorem SMap.find_upd {α : Type} (f : α → α) (m : SMap α) (k j : Nat) :
    SMap.find (SMap.upd f m k) j = if j = k then (SMap.find m j).map f else SMap.find m j := by
  induction m with
  | nil => simp [SMap.upd, SMap.find]
  | cons e m ih =>
    obtain ⟨i, x⟩ := e; simp only [SMap.upd]
    split
    · next h => subst h; simp only [SMap.find]; grind
    · simp only [SMap.find]; grind

namespace Machine

/-! ### Parts by number -/

theorem State.tile_setTile (s : State) (t : Nat) (x : Tile) (n : Nat) :
    (s.setTile t x).tile n = if n = t then x else s.tile n := SMap.get_put ..
@[simp] theorem State.tile_setTile_same (s : State) (t : Nat) (x : Tile) : (s.setTile t x).tile t = x := by
  simp [State.tile_setTile]
theorem State.tile_onTile (s : State) (t : Nat) (f : Tile → Tile) (n : Nat) :
    (s.onTile t f).tile n = if n = t then f (s.tile t) else s.tile n := by simp [State.onTile, State.tile_setTile]
@[simp] theorem State.tile_onTile_same (s : State) (t : Nat) (f : Tile → Tile) : (s.onTile t f).tile t = f (s.tile t) := by
  simp [State.tile_onTile]
theorem Tile.strand_setStrand (x : Tile) (k : Nat) (y : Strand) (j : Nat) :
    (x.setStrand k y).strand j = if j = k then y else x.strand j := by
  simp only [Tile.strand, Tile.setStrand, SMap.get_put]
@[simp] theorem Tile.strand_setStrand_same (x : Tile) (k : Nat) (y : Strand) : (x.setStrand k y).strand k = y := by
  simp [Tile.strand_setStrand]
theorem State.strand_onTile (s : State) (t : Nat) (f : Tile → Tile) (n j : Nat) :
    (s.onTile t f).strand n j = if n = t then (f (s.tile t)).strand j else s.strand n j := by
  simp only [State.strand, State.tile_onTile]; split <;> simp_all
theorem State.tile_setStrand (s : State) (t k : Nat) (y : Strand) (n : Nat) :
    (s.setStrand t k y).tile n = if n = t then (s.tile t).setStrand k y else s.tile n := by
  simp [State.setStrand, State.tile_onTile]
theorem State.strand_setStrand (s : State) (t k : Nat) (y : Strand) (n j : Nat) :
    (s.setStrand t k y).strand n j = if n = t ∧ j = k then y else s.strand n j := by
  simp only [State.strand, State.tile_setStrand]; split
  · next h => simp [h, Tile.strand_setStrand]
  · next h => simp [h]
theorem State.tile_onStrand (s : State) (t k : Nat) (f : Strand → Strand) (n : Nat) :
    (s.onStrand t k f).tile n = if n = t then (s.tile t).setStrand k (f (s.strand t k)) else s.tile n := by
  simp [State.onStrand, State.tile_setStrand]
theorem State.strand_onStrand (s : State) (t k : Nat) (f : Strand → Strand) (n j : Nat) :
    (s.onStrand t k f).strand n j = if n = t ∧ j = k then f (s.strand t k) else s.strand n j := by
  simp [State.onStrand, State.strand_setStrand]
@[simp] theorem State.strand_onStrand_same (s : State) (t k : Nat) (f : Strand → Strand) :
    (s.onStrand t k f).strand t k = f (s.strand t k) := by simp [State.strand_onStrand]
theorem State.cluster_onCluster (s : State) (c : Nat) (f : Cluster → Cluster) (n : Nat) :
    (s.onCluster c f).cluster n = if n = c then f (s.cluster c) else s.cluster n := by
  simp only [State.cluster, State.onCluster, SMap.get_put]
@[simp] theorem State.cluster_onCluster_same (s : State) (c : Nat) (f : Cluster → Cluster) :
    (s.onCluster c f).cluster c = f (s.cluster c) := by simp [State.cluster_onCluster]
theorem State.die_onDie (s : State) (d : Nat) (f : Die → Die) (n : Nat) :
    (s.onDie d f).die n = if n = d then f (s.die d) else s.die n := by simp only [State.die, State.onDie, SMap.get_put]
@[simp] theorem State.die_onDie_same (s : State) (d : Nat) (f : Die → Die) : (s.onDie d f).die d = f (s.die d) := by
  simp [State.die_onDie]
@[simp] theorem State.onTile_tiles (s : State) (t : Nat) (f : Tile → Tile) :
    { s.onTile t f with tiles := s.tiles } = s := rfl

/-! ### setTile: what it leaves -/

@[simp] theorem State.setTile_cc (s : State) (t : Nat) (x : Tile) : (s.setTile t x).cc = s.cc := rfl
@[simp] theorem State.setTile_late (s : State) (t : Nat) (x : Tile) : (s.setTile t x).late = s.late := rfl
@[simp] theorem State.setTile_bun (s : State) (t : Nat) (x : Tile) : (s.setTile t x).bun = s.bun := rfl
@[simp] theorem State.setTile_clusters (s : State) (t : Nat) (x : Tile) : (s.setTile t x).clusters = s.clusters := rfl
@[simp] theorem State.setTile_dies (s : State) (t : Nat) (x : Tile) : (s.setTile t x).dies = s.dies := rfl
@[simp] theorem State.setTile_launches (s : State) (t : Nat) (x : Tile) : (s.setTile t x).launches = s.launches := rfl
@[simp] theorem State.setTile_qcfg (s : State) (t : Nat) (x : Tile) : (s.setTile t x).qcfg = s.qcfg := rfl
@[simp] theorem State.setTile_qtaken (s : State) (t : Nat) (x : Tile) : (s.setTile t x).qtaken = s.qtaken := rfl
@[simp] theorem State.setTile_bars (s : State) (t : Nat) (x : Tile) : (s.setTile t x).bars = s.bars := rfl
@[simp] theorem State.setTile_barNext (s : State) (t : Nat) (x : Tile) : (s.setTile t x).barNext = s.barNext := rfl
@[simp] theorem State.setTile_barCount (s : State) (t : Nat) (x : Tile) : (s.setTile t x).barCount = s.barCount := rfl
@[simp] theorem State.setTile_mlrs (s : State) (t : Nat) (x : Tile) : (s.setTile t x).mlrs = s.mlrs := rfl
@[simp] theorem State.setTile_mlrNext (s : State) (t : Nat) (x : Tile) : (s.setTile t x).mlrNext = s.mlrNext := rfl
@[simp] theorem State.setTile_mlrFailed (s : State) (t : Nat) (x : Tile) : (s.setTile t x).mlrFailed = s.mlrFailed := rfl
@[simp] theorem State.setTile_cordNext (s : State) (t : Nat) (x : Tile) : (s.setTile t x).cordNext = s.cordNext := rfl
@[simp] theorem State.setTile_ports (s : State) (t : Nat) (x : Tile) : (s.setTile t x).ports = s.ports := rfl
@[simp] theorem State.setTile_shotNext (s : State) (t : Nat) (x : Tile) : (s.setTile t x).shotNext = s.shotNext := rfl
@[simp] theorem State.setTile_mhz (s : State) (t : Nat) (x : Tile) : (s.setTile t x).mhz = s.mhz := rfl
@[simp] theorem State.setTile_wantMhz (s : State) (t : Nat) (x : Tile) : (s.setTile t x).wantMhz = s.wantMhz := rfl
@[simp] theorem State.setTile_wantIdle (s : State) (t : Nat) (x : Tile) : (s.setTile t x).wantIdle = s.wantIdle := rfl
@[simp] theorem State.setTile_riseAt (s : State) (t : Nat) (x : Tile) : (s.setTile t x).riseAt = s.riseAt := rfl
@[simp] theorem State.setTile_ready (s : State) (t : Nat) (x : Tile) : (s.setTile t x).ready = s.ready := rfl
@[simp] theorem State.setTile_hosterr (s : State) (t : Nat) (x : Tile) : (s.setTile t x).hosterr = s.hosterr := rfl
@[simp] theorem State.setTile_coord (s : State) (t : Nat) (x : Tile) : (s.setTile t x).coord = s.coord := rfl
@[simp] theorem State.setTile_extent (s : State) (t : Nat) (x : Tile) : (s.setTile t x).extent = s.extent := rfl
@[simp] theorem State.setTile_power (s : State) (t : Nat) (x : Tile) : (s.setTile t x).power = s.power := rfl
@[simp] theorem State.setTile_bundlelimit (s : State) (t : Nat) (x : Tile) : (s.setTile t x).bundlelimit = s.bundlelimit := rfl
@[simp] theorem State.setTile_stopwin (s : State) (t : Nat) (x : Tile) : (s.setTile t x).stopwin = s.stopwin := rfl
@[simp] theorem State.setTile_tests (s : State) (t : Nat) (x : Tile) : (s.setTile t x).tests = s.tests := rfl
@[simp] theorem State.setTile_watches (s : State) (t : Nat) (x : Tile) : (s.setTile t x).watches = s.watches := rfl
@[simp] theorem State.setTile_slots (s : State) (t : Nat) (x : Tile) : (s.setTile t x).slots = s.slots := rfl
@[simp] theorem State.setTile_booted (s : State) (t : Nat) (x : Tile) : (s.setTile t x).booted = s.booted := rfl
@[simp] theorem State.setTile_measured (s : State) (t : Nat) (x : Tile) : (s.setTile t x).measured = s.measured := rfl
@[simp] theorem State.setTile_outputs (s : State) (t : Nat) (x : Tile) : (s.setTile t x).outputs = s.outputs := rfl
@[simp] theorem State.setTile_agenda (s : State) (t : Nat) (x : Tile) : (s.setTile t x).agenda = s.agenda := rfl
@[simp] theorem State.setTile_slack (s : State) (t : Nat) (x : Tile) : (s.setTile t x).slack = s.slack := rfl
@[simp] theorem State.setTile_fresh (s : State) (t : Nat) (x : Tile) : (s.setTile t x).fresh = s.fresh := rfl

/-! ### onTile: what it leaves -/

@[simp] theorem State.onTile_cc (s : State) (t : Nat) (f : Tile → Tile) : (s.onTile t f).cc = s.cc := rfl
@[simp] theorem State.onTile_late (s : State) (t : Nat) (f : Tile → Tile) : (s.onTile t f).late = s.late := rfl
@[simp] theorem State.onTile_bun (s : State) (t : Nat) (f : Tile → Tile) : (s.onTile t f).bun = s.bun := rfl
@[simp] theorem State.onTile_clusters (s : State) (t : Nat) (f : Tile → Tile) : (s.onTile t f).clusters = s.clusters := rfl
@[simp] theorem State.onTile_dies (s : State) (t : Nat) (f : Tile → Tile) : (s.onTile t f).dies = s.dies := rfl
@[simp] theorem State.onTile_launches (s : State) (t : Nat) (f : Tile → Tile) : (s.onTile t f).launches = s.launches := rfl
@[simp] theorem State.onTile_qcfg (s : State) (t : Nat) (f : Tile → Tile) : (s.onTile t f).qcfg = s.qcfg := rfl
@[simp] theorem State.onTile_qtaken (s : State) (t : Nat) (f : Tile → Tile) : (s.onTile t f).qtaken = s.qtaken := rfl
@[simp] theorem State.onTile_bars (s : State) (t : Nat) (f : Tile → Tile) : (s.onTile t f).bars = s.bars := rfl
@[simp] theorem State.onTile_barNext (s : State) (t : Nat) (f : Tile → Tile) : (s.onTile t f).barNext = s.barNext := rfl
@[simp] theorem State.onTile_barCount (s : State) (t : Nat) (f : Tile → Tile) : (s.onTile t f).barCount = s.barCount := rfl
@[simp] theorem State.onTile_mlrs (s : State) (t : Nat) (f : Tile → Tile) : (s.onTile t f).mlrs = s.mlrs := rfl
@[simp] theorem State.onTile_mlrNext (s : State) (t : Nat) (f : Tile → Tile) : (s.onTile t f).mlrNext = s.mlrNext := rfl
@[simp] theorem State.onTile_mlrFailed (s : State) (t : Nat) (f : Tile → Tile) : (s.onTile t f).mlrFailed = s.mlrFailed := rfl
@[simp] theorem State.onTile_cordNext (s : State) (t : Nat) (f : Tile → Tile) : (s.onTile t f).cordNext = s.cordNext := rfl
@[simp] theorem State.onTile_ports (s : State) (t : Nat) (f : Tile → Tile) : (s.onTile t f).ports = s.ports := rfl
@[simp] theorem State.onTile_shotNext (s : State) (t : Nat) (f : Tile → Tile) : (s.onTile t f).shotNext = s.shotNext := rfl
@[simp] theorem State.onTile_mhz (s : State) (t : Nat) (f : Tile → Tile) : (s.onTile t f).mhz = s.mhz := rfl
@[simp] theorem State.onTile_wantMhz (s : State) (t : Nat) (f : Tile → Tile) : (s.onTile t f).wantMhz = s.wantMhz := rfl
@[simp] theorem State.onTile_wantIdle (s : State) (t : Nat) (f : Tile → Tile) : (s.onTile t f).wantIdle = s.wantIdle := rfl
@[simp] theorem State.onTile_riseAt (s : State) (t : Nat) (f : Tile → Tile) : (s.onTile t f).riseAt = s.riseAt := rfl
@[simp] theorem State.onTile_ready (s : State) (t : Nat) (f : Tile → Tile) : (s.onTile t f).ready = s.ready := rfl
@[simp] theorem State.onTile_hosterr (s : State) (t : Nat) (f : Tile → Tile) : (s.onTile t f).hosterr = s.hosterr := rfl
@[simp] theorem State.onTile_coord (s : State) (t : Nat) (f : Tile → Tile) : (s.onTile t f).coord = s.coord := rfl
@[simp] theorem State.onTile_extent (s : State) (t : Nat) (f : Tile → Tile) : (s.onTile t f).extent = s.extent := rfl
@[simp] theorem State.onTile_power (s : State) (t : Nat) (f : Tile → Tile) : (s.onTile t f).power = s.power := rfl
@[simp] theorem State.onTile_bundlelimit (s : State) (t : Nat) (f : Tile → Tile) : (s.onTile t f).bundlelimit = s.bundlelimit := rfl
@[simp] theorem State.onTile_stopwin (s : State) (t : Nat) (f : Tile → Tile) : (s.onTile t f).stopwin = s.stopwin := rfl
@[simp] theorem State.onTile_tests (s : State) (t : Nat) (f : Tile → Tile) : (s.onTile t f).tests = s.tests := rfl
@[simp] theorem State.onTile_watches (s : State) (t : Nat) (f : Tile → Tile) : (s.onTile t f).watches = s.watches := rfl
@[simp] theorem State.onTile_slots (s : State) (t : Nat) (f : Tile → Tile) : (s.onTile t f).slots = s.slots := rfl
@[simp] theorem State.onTile_booted (s : State) (t : Nat) (f : Tile → Tile) : (s.onTile t f).booted = s.booted := rfl
@[simp] theorem State.onTile_measured (s : State) (t : Nat) (f : Tile → Tile) : (s.onTile t f).measured = s.measured := rfl
@[simp] theorem State.onTile_outputs (s : State) (t : Nat) (f : Tile → Tile) : (s.onTile t f).outputs = s.outputs := rfl
@[simp] theorem State.onTile_agenda (s : State) (t : Nat) (f : Tile → Tile) : (s.onTile t f).agenda = s.agenda := rfl
@[simp] theorem State.onTile_slack (s : State) (t : Nat) (f : Tile → Tile) : (s.onTile t f).slack = s.slack := rfl
@[simp] theorem State.onTile_fresh (s : State) (t : Nat) (f : Tile → Tile) : (s.onTile t f).fresh = s.fresh := rfl

/-! ### setStrand: what it leaves -/

@[simp] theorem State.setStrand_cc (s : State) (t k : Nat) (y : Strand) : (s.setStrand t k y).cc = s.cc := rfl
@[simp] theorem State.setStrand_late (s : State) (t k : Nat) (y : Strand) : (s.setStrand t k y).late = s.late := rfl
@[simp] theorem State.setStrand_bun (s : State) (t k : Nat) (y : Strand) : (s.setStrand t k y).bun = s.bun := rfl
@[simp] theorem State.setStrand_clusters (s : State) (t k : Nat) (y : Strand) : (s.setStrand t k y).clusters = s.clusters := rfl
@[simp] theorem State.setStrand_dies (s : State) (t k : Nat) (y : Strand) : (s.setStrand t k y).dies = s.dies := rfl
@[simp] theorem State.setStrand_launches (s : State) (t k : Nat) (y : Strand) : (s.setStrand t k y).launches = s.launches := rfl
@[simp] theorem State.setStrand_qcfg (s : State) (t k : Nat) (y : Strand) : (s.setStrand t k y).qcfg = s.qcfg := rfl
@[simp] theorem State.setStrand_qtaken (s : State) (t k : Nat) (y : Strand) : (s.setStrand t k y).qtaken = s.qtaken := rfl
@[simp] theorem State.setStrand_bars (s : State) (t k : Nat) (y : Strand) : (s.setStrand t k y).bars = s.bars := rfl
@[simp] theorem State.setStrand_barNext (s : State) (t k : Nat) (y : Strand) : (s.setStrand t k y).barNext = s.barNext := rfl
@[simp] theorem State.setStrand_barCount (s : State) (t k : Nat) (y : Strand) : (s.setStrand t k y).barCount = s.barCount := rfl
@[simp] theorem State.setStrand_mlrs (s : State) (t k : Nat) (y : Strand) : (s.setStrand t k y).mlrs = s.mlrs := rfl
@[simp] theorem State.setStrand_mlrNext (s : State) (t k : Nat) (y : Strand) : (s.setStrand t k y).mlrNext = s.mlrNext := rfl
@[simp] theorem State.setStrand_mlrFailed (s : State) (t k : Nat) (y : Strand) : (s.setStrand t k y).mlrFailed = s.mlrFailed := rfl
@[simp] theorem State.setStrand_cordNext (s : State) (t k : Nat) (y : Strand) : (s.setStrand t k y).cordNext = s.cordNext := rfl
@[simp] theorem State.setStrand_ports (s : State) (t k : Nat) (y : Strand) : (s.setStrand t k y).ports = s.ports := rfl
@[simp] theorem State.setStrand_shotNext (s : State) (t k : Nat) (y : Strand) : (s.setStrand t k y).shotNext = s.shotNext := rfl
@[simp] theorem State.setStrand_mhz (s : State) (t k : Nat) (y : Strand) : (s.setStrand t k y).mhz = s.mhz := rfl
@[simp] theorem State.setStrand_wantMhz (s : State) (t k : Nat) (y : Strand) : (s.setStrand t k y).wantMhz = s.wantMhz := rfl
@[simp] theorem State.setStrand_wantIdle (s : State) (t k : Nat) (y : Strand) : (s.setStrand t k y).wantIdle = s.wantIdle := rfl
@[simp] theorem State.setStrand_riseAt (s : State) (t k : Nat) (y : Strand) : (s.setStrand t k y).riseAt = s.riseAt := rfl
@[simp] theorem State.setStrand_ready (s : State) (t k : Nat) (y : Strand) : (s.setStrand t k y).ready = s.ready := rfl
@[simp] theorem State.setStrand_hosterr (s : State) (t k : Nat) (y : Strand) : (s.setStrand t k y).hosterr = s.hosterr := rfl
@[simp] theorem State.setStrand_coord (s : State) (t k : Nat) (y : Strand) : (s.setStrand t k y).coord = s.coord := rfl
@[simp] theorem State.setStrand_extent (s : State) (t k : Nat) (y : Strand) : (s.setStrand t k y).extent = s.extent := rfl
@[simp] theorem State.setStrand_power (s : State) (t k : Nat) (y : Strand) : (s.setStrand t k y).power = s.power := rfl
@[simp] theorem State.setStrand_bundlelimit (s : State) (t k : Nat) (y : Strand) : (s.setStrand t k y).bundlelimit = s.bundlelimit := rfl
@[simp] theorem State.setStrand_stopwin (s : State) (t k : Nat) (y : Strand) : (s.setStrand t k y).stopwin = s.stopwin := rfl
@[simp] theorem State.setStrand_tests (s : State) (t k : Nat) (y : Strand) : (s.setStrand t k y).tests = s.tests := rfl
@[simp] theorem State.setStrand_watches (s : State) (t k : Nat) (y : Strand) : (s.setStrand t k y).watches = s.watches := rfl
@[simp] theorem State.setStrand_slots (s : State) (t k : Nat) (y : Strand) : (s.setStrand t k y).slots = s.slots := rfl
@[simp] theorem State.setStrand_booted (s : State) (t k : Nat) (y : Strand) : (s.setStrand t k y).booted = s.booted := rfl
@[simp] theorem State.setStrand_measured (s : State) (t k : Nat) (y : Strand) : (s.setStrand t k y).measured = s.measured := rfl
@[simp] theorem State.setStrand_outputs (s : State) (t k : Nat) (y : Strand) : (s.setStrand t k y).outputs = s.outputs := rfl
@[simp] theorem State.setStrand_agenda (s : State) (t k : Nat) (y : Strand) : (s.setStrand t k y).agenda = s.agenda := rfl
@[simp] theorem State.setStrand_slack (s : State) (t k : Nat) (y : Strand) : (s.setStrand t k y).slack = s.slack := rfl
@[simp] theorem State.setStrand_fresh (s : State) (t k : Nat) (y : Strand) : (s.setStrand t k y).fresh = s.fresh := rfl

/-! ### onStrand: what it leaves -/

@[simp] theorem State.onStrand_cc (s : State) (t k : Nat) (f : Strand → Strand) : (s.onStrand t k f).cc = s.cc := rfl
@[simp] theorem State.onStrand_late (s : State) (t k : Nat) (f : Strand → Strand) : (s.onStrand t k f).late = s.late := rfl
@[simp] theorem State.onStrand_bun (s : State) (t k : Nat) (f : Strand → Strand) : (s.onStrand t k f).bun = s.bun := rfl
@[simp] theorem State.onStrand_clusters (s : State) (t k : Nat) (f : Strand → Strand) : (s.onStrand t k f).clusters = s.clusters := rfl
@[simp] theorem State.onStrand_dies (s : State) (t k : Nat) (f : Strand → Strand) : (s.onStrand t k f).dies = s.dies := rfl
@[simp] theorem State.onStrand_launches (s : State) (t k : Nat) (f : Strand → Strand) : (s.onStrand t k f).launches = s.launches := rfl
@[simp] theorem State.onStrand_qcfg (s : State) (t k : Nat) (f : Strand → Strand) : (s.onStrand t k f).qcfg = s.qcfg := rfl
@[simp] theorem State.onStrand_qtaken (s : State) (t k : Nat) (f : Strand → Strand) : (s.onStrand t k f).qtaken = s.qtaken := rfl
@[simp] theorem State.onStrand_bars (s : State) (t k : Nat) (f : Strand → Strand) : (s.onStrand t k f).bars = s.bars := rfl
@[simp] theorem State.onStrand_barNext (s : State) (t k : Nat) (f : Strand → Strand) : (s.onStrand t k f).barNext = s.barNext := rfl
@[simp] theorem State.onStrand_barCount (s : State) (t k : Nat) (f : Strand → Strand) : (s.onStrand t k f).barCount = s.barCount := rfl
@[simp] theorem State.onStrand_mlrs (s : State) (t k : Nat) (f : Strand → Strand) : (s.onStrand t k f).mlrs = s.mlrs := rfl
@[simp] theorem State.onStrand_mlrNext (s : State) (t k : Nat) (f : Strand → Strand) : (s.onStrand t k f).mlrNext = s.mlrNext := rfl
@[simp] theorem State.onStrand_mlrFailed (s : State) (t k : Nat) (f : Strand → Strand) : (s.onStrand t k f).mlrFailed = s.mlrFailed := rfl
@[simp] theorem State.onStrand_cordNext (s : State) (t k : Nat) (f : Strand → Strand) : (s.onStrand t k f).cordNext = s.cordNext := rfl
@[simp] theorem State.onStrand_ports (s : State) (t k : Nat) (f : Strand → Strand) : (s.onStrand t k f).ports = s.ports := rfl
@[simp] theorem State.onStrand_shotNext (s : State) (t k : Nat) (f : Strand → Strand) : (s.onStrand t k f).shotNext = s.shotNext := rfl
@[simp] theorem State.onStrand_mhz (s : State) (t k : Nat) (f : Strand → Strand) : (s.onStrand t k f).mhz = s.mhz := rfl
@[simp] theorem State.onStrand_wantMhz (s : State) (t k : Nat) (f : Strand → Strand) : (s.onStrand t k f).wantMhz = s.wantMhz := rfl
@[simp] theorem State.onStrand_wantIdle (s : State) (t k : Nat) (f : Strand → Strand) : (s.onStrand t k f).wantIdle = s.wantIdle := rfl
@[simp] theorem State.onStrand_riseAt (s : State) (t k : Nat) (f : Strand → Strand) : (s.onStrand t k f).riseAt = s.riseAt := rfl
@[simp] theorem State.onStrand_ready (s : State) (t k : Nat) (f : Strand → Strand) : (s.onStrand t k f).ready = s.ready := rfl
@[simp] theorem State.onStrand_hosterr (s : State) (t k : Nat) (f : Strand → Strand) : (s.onStrand t k f).hosterr = s.hosterr := rfl
@[simp] theorem State.onStrand_coord (s : State) (t k : Nat) (f : Strand → Strand) : (s.onStrand t k f).coord = s.coord := rfl
@[simp] theorem State.onStrand_extent (s : State) (t k : Nat) (f : Strand → Strand) : (s.onStrand t k f).extent = s.extent := rfl
@[simp] theorem State.onStrand_power (s : State) (t k : Nat) (f : Strand → Strand) : (s.onStrand t k f).power = s.power := rfl
@[simp] theorem State.onStrand_bundlelimit (s : State) (t k : Nat) (f : Strand → Strand) : (s.onStrand t k f).bundlelimit = s.bundlelimit := rfl
@[simp] theorem State.onStrand_stopwin (s : State) (t k : Nat) (f : Strand → Strand) : (s.onStrand t k f).stopwin = s.stopwin := rfl
@[simp] theorem State.onStrand_tests (s : State) (t k : Nat) (f : Strand → Strand) : (s.onStrand t k f).tests = s.tests := rfl
@[simp] theorem State.onStrand_watches (s : State) (t k : Nat) (f : Strand → Strand) : (s.onStrand t k f).watches = s.watches := rfl
@[simp] theorem State.onStrand_slots (s : State) (t k : Nat) (f : Strand → Strand) : (s.onStrand t k f).slots = s.slots := rfl
@[simp] theorem State.onStrand_booted (s : State) (t k : Nat) (f : Strand → Strand) : (s.onStrand t k f).booted = s.booted := rfl
@[simp] theorem State.onStrand_measured (s : State) (t k : Nat) (f : Strand → Strand) : (s.onStrand t k f).measured = s.measured := rfl
@[simp] theorem State.onStrand_outputs (s : State) (t k : Nat) (f : Strand → Strand) : (s.onStrand t k f).outputs = s.outputs := rfl
@[simp] theorem State.onStrand_agenda (s : State) (t k : Nat) (f : Strand → Strand) : (s.onStrand t k f).agenda = s.agenda := rfl
@[simp] theorem State.onStrand_slack (s : State) (t k : Nat) (f : Strand → Strand) : (s.onStrand t k f).slack = s.slack := rfl
@[simp] theorem State.onStrand_fresh (s : State) (t k : Nat) (f : Strand → Strand) : (s.onStrand t k f).fresh = s.fresh := rfl

/-! ### onMe: what it leaves -/

@[simp] theorem State.onMe_cc (s : State) (f : Strand → Strand) : (s.onMe f).cc = s.cc := rfl
@[simp] theorem State.onMe_late (s : State) (f : Strand → Strand) : (s.onMe f).late = s.late := rfl
@[simp] theorem State.onMe_bun (s : State) (f : Strand → Strand) : (s.onMe f).bun = s.bun := rfl
@[simp] theorem State.onMe_clusters (s : State) (f : Strand → Strand) : (s.onMe f).clusters = s.clusters := rfl
@[simp] theorem State.onMe_dies (s : State) (f : Strand → Strand) : (s.onMe f).dies = s.dies := rfl
@[simp] theorem State.onMe_launches (s : State) (f : Strand → Strand) : (s.onMe f).launches = s.launches := rfl
@[simp] theorem State.onMe_qcfg (s : State) (f : Strand → Strand) : (s.onMe f).qcfg = s.qcfg := rfl
@[simp] theorem State.onMe_qtaken (s : State) (f : Strand → Strand) : (s.onMe f).qtaken = s.qtaken := rfl
@[simp] theorem State.onMe_bars (s : State) (f : Strand → Strand) : (s.onMe f).bars = s.bars := rfl
@[simp] theorem State.onMe_barNext (s : State) (f : Strand → Strand) : (s.onMe f).barNext = s.barNext := rfl
@[simp] theorem State.onMe_barCount (s : State) (f : Strand → Strand) : (s.onMe f).barCount = s.barCount := rfl
@[simp] theorem State.onMe_mlrs (s : State) (f : Strand → Strand) : (s.onMe f).mlrs = s.mlrs := rfl
@[simp] theorem State.onMe_mlrNext (s : State) (f : Strand → Strand) : (s.onMe f).mlrNext = s.mlrNext := rfl
@[simp] theorem State.onMe_mlrFailed (s : State) (f : Strand → Strand) : (s.onMe f).mlrFailed = s.mlrFailed := rfl
@[simp] theorem State.onMe_cordNext (s : State) (f : Strand → Strand) : (s.onMe f).cordNext = s.cordNext := rfl
@[simp] theorem State.onMe_ports (s : State) (f : Strand → Strand) : (s.onMe f).ports = s.ports := rfl
@[simp] theorem State.onMe_shotNext (s : State) (f : Strand → Strand) : (s.onMe f).shotNext = s.shotNext := rfl
@[simp] theorem State.onMe_mhz (s : State) (f : Strand → Strand) : (s.onMe f).mhz = s.mhz := rfl
@[simp] theorem State.onMe_wantMhz (s : State) (f : Strand → Strand) : (s.onMe f).wantMhz = s.wantMhz := rfl
@[simp] theorem State.onMe_wantIdle (s : State) (f : Strand → Strand) : (s.onMe f).wantIdle = s.wantIdle := rfl
@[simp] theorem State.onMe_riseAt (s : State) (f : Strand → Strand) : (s.onMe f).riseAt = s.riseAt := rfl
@[simp] theorem State.onMe_ready (s : State) (f : Strand → Strand) : (s.onMe f).ready = s.ready := rfl
@[simp] theorem State.onMe_hosterr (s : State) (f : Strand → Strand) : (s.onMe f).hosterr = s.hosterr := rfl
@[simp] theorem State.onMe_coord (s : State) (f : Strand → Strand) : (s.onMe f).coord = s.coord := rfl
@[simp] theorem State.onMe_extent (s : State) (f : Strand → Strand) : (s.onMe f).extent = s.extent := rfl
@[simp] theorem State.onMe_power (s : State) (f : Strand → Strand) : (s.onMe f).power = s.power := rfl
@[simp] theorem State.onMe_bundlelimit (s : State) (f : Strand → Strand) : (s.onMe f).bundlelimit = s.bundlelimit := rfl
@[simp] theorem State.onMe_stopwin (s : State) (f : Strand → Strand) : (s.onMe f).stopwin = s.stopwin := rfl
@[simp] theorem State.onMe_tests (s : State) (f : Strand → Strand) : (s.onMe f).tests = s.tests := rfl
@[simp] theorem State.onMe_watches (s : State) (f : Strand → Strand) : (s.onMe f).watches = s.watches := rfl
@[simp] theorem State.onMe_slots (s : State) (f : Strand → Strand) : (s.onMe f).slots = s.slots := rfl
@[simp] theorem State.onMe_booted (s : State) (f : Strand → Strand) : (s.onMe f).booted = s.booted := rfl
@[simp] theorem State.onMe_measured (s : State) (f : Strand → Strand) : (s.onMe f).measured = s.measured := rfl
@[simp] theorem State.onMe_outputs (s : State) (f : Strand → Strand) : (s.onMe f).outputs = s.outputs := rfl
@[simp] theorem State.onMe_agenda (s : State) (f : Strand → Strand) : (s.onMe f).agenda = s.agenda := rfl
@[simp] theorem State.onMe_slack (s : State) (f : Strand → Strand) : (s.onMe f).slack = s.slack := rfl
@[simp] theorem State.onMe_fresh (s : State) (f : Strand → Strand) : (s.onMe f).fresh = s.fresh := rfl

/-! ### onMyTile: what it leaves -/

@[simp] theorem State.onMyTile_cc (s : State) (f : Tile → Tile) : (s.onMyTile f).cc = s.cc := rfl
@[simp] theorem State.onMyTile_late (s : State) (f : Tile → Tile) : (s.onMyTile f).late = s.late := rfl
@[simp] theorem State.onMyTile_bun (s : State) (f : Tile → Tile) : (s.onMyTile f).bun = s.bun := rfl
@[simp] theorem State.onMyTile_clusters (s : State) (f : Tile → Tile) : (s.onMyTile f).clusters = s.clusters := rfl
@[simp] theorem State.onMyTile_dies (s : State) (f : Tile → Tile) : (s.onMyTile f).dies = s.dies := rfl
@[simp] theorem State.onMyTile_launches (s : State) (f : Tile → Tile) : (s.onMyTile f).launches = s.launches := rfl
@[simp] theorem State.onMyTile_qcfg (s : State) (f : Tile → Tile) : (s.onMyTile f).qcfg = s.qcfg := rfl
@[simp] theorem State.onMyTile_qtaken (s : State) (f : Tile → Tile) : (s.onMyTile f).qtaken = s.qtaken := rfl
@[simp] theorem State.onMyTile_bars (s : State) (f : Tile → Tile) : (s.onMyTile f).bars = s.bars := rfl
@[simp] theorem State.onMyTile_barNext (s : State) (f : Tile → Tile) : (s.onMyTile f).barNext = s.barNext := rfl
@[simp] theorem State.onMyTile_barCount (s : State) (f : Tile → Tile) : (s.onMyTile f).barCount = s.barCount := rfl
@[simp] theorem State.onMyTile_mlrs (s : State) (f : Tile → Tile) : (s.onMyTile f).mlrs = s.mlrs := rfl
@[simp] theorem State.onMyTile_mlrNext (s : State) (f : Tile → Tile) : (s.onMyTile f).mlrNext = s.mlrNext := rfl
@[simp] theorem State.onMyTile_mlrFailed (s : State) (f : Tile → Tile) : (s.onMyTile f).mlrFailed = s.mlrFailed := rfl
@[simp] theorem State.onMyTile_cordNext (s : State) (f : Tile → Tile) : (s.onMyTile f).cordNext = s.cordNext := rfl
@[simp] theorem State.onMyTile_ports (s : State) (f : Tile → Tile) : (s.onMyTile f).ports = s.ports := rfl
@[simp] theorem State.onMyTile_shotNext (s : State) (f : Tile → Tile) : (s.onMyTile f).shotNext = s.shotNext := rfl
@[simp] theorem State.onMyTile_mhz (s : State) (f : Tile → Tile) : (s.onMyTile f).mhz = s.mhz := rfl
@[simp] theorem State.onMyTile_wantMhz (s : State) (f : Tile → Tile) : (s.onMyTile f).wantMhz = s.wantMhz := rfl
@[simp] theorem State.onMyTile_wantIdle (s : State) (f : Tile → Tile) : (s.onMyTile f).wantIdle = s.wantIdle := rfl
@[simp] theorem State.onMyTile_riseAt (s : State) (f : Tile → Tile) : (s.onMyTile f).riseAt = s.riseAt := rfl
@[simp] theorem State.onMyTile_ready (s : State) (f : Tile → Tile) : (s.onMyTile f).ready = s.ready := rfl
@[simp] theorem State.onMyTile_hosterr (s : State) (f : Tile → Tile) : (s.onMyTile f).hosterr = s.hosterr := rfl
@[simp] theorem State.onMyTile_coord (s : State) (f : Tile → Tile) : (s.onMyTile f).coord = s.coord := rfl
@[simp] theorem State.onMyTile_extent (s : State) (f : Tile → Tile) : (s.onMyTile f).extent = s.extent := rfl
@[simp] theorem State.onMyTile_power (s : State) (f : Tile → Tile) : (s.onMyTile f).power = s.power := rfl
@[simp] theorem State.onMyTile_bundlelimit (s : State) (f : Tile → Tile) : (s.onMyTile f).bundlelimit = s.bundlelimit := rfl
@[simp] theorem State.onMyTile_stopwin (s : State) (f : Tile → Tile) : (s.onMyTile f).stopwin = s.stopwin := rfl
@[simp] theorem State.onMyTile_tests (s : State) (f : Tile → Tile) : (s.onMyTile f).tests = s.tests := rfl
@[simp] theorem State.onMyTile_watches (s : State) (f : Tile → Tile) : (s.onMyTile f).watches = s.watches := rfl
@[simp] theorem State.onMyTile_slots (s : State) (f : Tile → Tile) : (s.onMyTile f).slots = s.slots := rfl
@[simp] theorem State.onMyTile_booted (s : State) (f : Tile → Tile) : (s.onMyTile f).booted = s.booted := rfl
@[simp] theorem State.onMyTile_measured (s : State) (f : Tile → Tile) : (s.onMyTile f).measured = s.measured := rfl
@[simp] theorem State.onMyTile_outputs (s : State) (f : Tile → Tile) : (s.onMyTile f).outputs = s.outputs := rfl
@[simp] theorem State.onMyTile_agenda (s : State) (f : Tile → Tile) : (s.onMyTile f).agenda = s.agenda := rfl
@[simp] theorem State.onMyTile_slack (s : State) (f : Tile → Tile) : (s.onMyTile f).slack = s.slack := rfl
@[simp] theorem State.onMyTile_fresh (s : State) (f : Tile → Tile) : (s.onMyTile f).fresh = s.fresh := rfl

/-! ### onCluster: what it leaves -/

@[simp] theorem State.onCluster_cc (s : State) (c : Nat) (f : Cluster → Cluster) : (s.onCluster c f).cc = s.cc := rfl
@[simp] theorem State.onCluster_late (s : State) (c : Nat) (f : Cluster → Cluster) : (s.onCluster c f).late = s.late := rfl
@[simp] theorem State.onCluster_bun (s : State) (c : Nat) (f : Cluster → Cluster) : (s.onCluster c f).bun = s.bun := rfl
@[simp] theorem State.onCluster_tiles (s : State) (c : Nat) (f : Cluster → Cluster) : (s.onCluster c f).tiles = s.tiles := rfl
@[simp] theorem State.onCluster_dies (s : State) (c : Nat) (f : Cluster → Cluster) : (s.onCluster c f).dies = s.dies := rfl
@[simp] theorem State.onCluster_launches (s : State) (c : Nat) (f : Cluster → Cluster) : (s.onCluster c f).launches = s.launches := rfl
@[simp] theorem State.onCluster_qcfg (s : State) (c : Nat) (f : Cluster → Cluster) : (s.onCluster c f).qcfg = s.qcfg := rfl
@[simp] theorem State.onCluster_qtaken (s : State) (c : Nat) (f : Cluster → Cluster) : (s.onCluster c f).qtaken = s.qtaken := rfl
@[simp] theorem State.onCluster_bars (s : State) (c : Nat) (f : Cluster → Cluster) : (s.onCluster c f).bars = s.bars := rfl
@[simp] theorem State.onCluster_barNext (s : State) (c : Nat) (f : Cluster → Cluster) : (s.onCluster c f).barNext = s.barNext := rfl
@[simp] theorem State.onCluster_barCount (s : State) (c : Nat) (f : Cluster → Cluster) : (s.onCluster c f).barCount = s.barCount := rfl
@[simp] theorem State.onCluster_mlrs (s : State) (c : Nat) (f : Cluster → Cluster) : (s.onCluster c f).mlrs = s.mlrs := rfl
@[simp] theorem State.onCluster_mlrNext (s : State) (c : Nat) (f : Cluster → Cluster) : (s.onCluster c f).mlrNext = s.mlrNext := rfl
@[simp] theorem State.onCluster_mlrFailed (s : State) (c : Nat) (f : Cluster → Cluster) : (s.onCluster c f).mlrFailed = s.mlrFailed := rfl
@[simp] theorem State.onCluster_cordNext (s : State) (c : Nat) (f : Cluster → Cluster) : (s.onCluster c f).cordNext = s.cordNext := rfl
@[simp] theorem State.onCluster_ports (s : State) (c : Nat) (f : Cluster → Cluster) : (s.onCluster c f).ports = s.ports := rfl
@[simp] theorem State.onCluster_shotNext (s : State) (c : Nat) (f : Cluster → Cluster) : (s.onCluster c f).shotNext = s.shotNext := rfl
@[simp] theorem State.onCluster_mhz (s : State) (c : Nat) (f : Cluster → Cluster) : (s.onCluster c f).mhz = s.mhz := rfl
@[simp] theorem State.onCluster_wantMhz (s : State) (c : Nat) (f : Cluster → Cluster) : (s.onCluster c f).wantMhz = s.wantMhz := rfl
@[simp] theorem State.onCluster_wantIdle (s : State) (c : Nat) (f : Cluster → Cluster) : (s.onCluster c f).wantIdle = s.wantIdle := rfl
@[simp] theorem State.onCluster_riseAt (s : State) (c : Nat) (f : Cluster → Cluster) : (s.onCluster c f).riseAt = s.riseAt := rfl
@[simp] theorem State.onCluster_ready (s : State) (c : Nat) (f : Cluster → Cluster) : (s.onCluster c f).ready = s.ready := rfl
@[simp] theorem State.onCluster_hosterr (s : State) (c : Nat) (f : Cluster → Cluster) : (s.onCluster c f).hosterr = s.hosterr := rfl
@[simp] theorem State.onCluster_coord (s : State) (c : Nat) (f : Cluster → Cluster) : (s.onCluster c f).coord = s.coord := rfl
@[simp] theorem State.onCluster_extent (s : State) (c : Nat) (f : Cluster → Cluster) : (s.onCluster c f).extent = s.extent := rfl
@[simp] theorem State.onCluster_power (s : State) (c : Nat) (f : Cluster → Cluster) : (s.onCluster c f).power = s.power := rfl
@[simp] theorem State.onCluster_bundlelimit (s : State) (c : Nat) (f : Cluster → Cluster) : (s.onCluster c f).bundlelimit = s.bundlelimit := rfl
@[simp] theorem State.onCluster_stopwin (s : State) (c : Nat) (f : Cluster → Cluster) : (s.onCluster c f).stopwin = s.stopwin := rfl
@[simp] theorem State.onCluster_tests (s : State) (c : Nat) (f : Cluster → Cluster) : (s.onCluster c f).tests = s.tests := rfl
@[simp] theorem State.onCluster_watches (s : State) (c : Nat) (f : Cluster → Cluster) : (s.onCluster c f).watches = s.watches := rfl
@[simp] theorem State.onCluster_slots (s : State) (c : Nat) (f : Cluster → Cluster) : (s.onCluster c f).slots = s.slots := rfl
@[simp] theorem State.onCluster_booted (s : State) (c : Nat) (f : Cluster → Cluster) : (s.onCluster c f).booted = s.booted := rfl
@[simp] theorem State.onCluster_measured (s : State) (c : Nat) (f : Cluster → Cluster) : (s.onCluster c f).measured = s.measured := rfl
@[simp] theorem State.onCluster_outputs (s : State) (c : Nat) (f : Cluster → Cluster) : (s.onCluster c f).outputs = s.outputs := rfl
@[simp] theorem State.onCluster_agenda (s : State) (c : Nat) (f : Cluster → Cluster) : (s.onCluster c f).agenda = s.agenda := rfl
@[simp] theorem State.onCluster_slack (s : State) (c : Nat) (f : Cluster → Cluster) : (s.onCluster c f).slack = s.slack := rfl
@[simp] theorem State.onCluster_fresh (s : State) (c : Nat) (f : Cluster → Cluster) : (s.onCluster c f).fresh = s.fresh := rfl

/-! ### onDie: what it leaves -/

@[simp] theorem State.onDie_cc (s : State) (d : Nat) (f : Die → Die) : (s.onDie d f).cc = s.cc := rfl
@[simp] theorem State.onDie_late (s : State) (d : Nat) (f : Die → Die) : (s.onDie d f).late = s.late := rfl
@[simp] theorem State.onDie_bun (s : State) (d : Nat) (f : Die → Die) : (s.onDie d f).bun = s.bun := rfl
@[simp] theorem State.onDie_tiles (s : State) (d : Nat) (f : Die → Die) : (s.onDie d f).tiles = s.tiles := rfl
@[simp] theorem State.onDie_clusters (s : State) (d : Nat) (f : Die → Die) : (s.onDie d f).clusters = s.clusters := rfl
@[simp] theorem State.onDie_launches (s : State) (d : Nat) (f : Die → Die) : (s.onDie d f).launches = s.launches := rfl
@[simp] theorem State.onDie_qcfg (s : State) (d : Nat) (f : Die → Die) : (s.onDie d f).qcfg = s.qcfg := rfl
@[simp] theorem State.onDie_qtaken (s : State) (d : Nat) (f : Die → Die) : (s.onDie d f).qtaken = s.qtaken := rfl
@[simp] theorem State.onDie_bars (s : State) (d : Nat) (f : Die → Die) : (s.onDie d f).bars = s.bars := rfl
@[simp] theorem State.onDie_barNext (s : State) (d : Nat) (f : Die → Die) : (s.onDie d f).barNext = s.barNext := rfl
@[simp] theorem State.onDie_barCount (s : State) (d : Nat) (f : Die → Die) : (s.onDie d f).barCount = s.barCount := rfl
@[simp] theorem State.onDie_mlrs (s : State) (d : Nat) (f : Die → Die) : (s.onDie d f).mlrs = s.mlrs := rfl
@[simp] theorem State.onDie_mlrNext (s : State) (d : Nat) (f : Die → Die) : (s.onDie d f).mlrNext = s.mlrNext := rfl
@[simp] theorem State.onDie_mlrFailed (s : State) (d : Nat) (f : Die → Die) : (s.onDie d f).mlrFailed = s.mlrFailed := rfl
@[simp] theorem State.onDie_cordNext (s : State) (d : Nat) (f : Die → Die) : (s.onDie d f).cordNext = s.cordNext := rfl
@[simp] theorem State.onDie_ports (s : State) (d : Nat) (f : Die → Die) : (s.onDie d f).ports = s.ports := rfl
@[simp] theorem State.onDie_shotNext (s : State) (d : Nat) (f : Die → Die) : (s.onDie d f).shotNext = s.shotNext := rfl
@[simp] theorem State.onDie_mhz (s : State) (d : Nat) (f : Die → Die) : (s.onDie d f).mhz = s.mhz := rfl
@[simp] theorem State.onDie_wantMhz (s : State) (d : Nat) (f : Die → Die) : (s.onDie d f).wantMhz = s.wantMhz := rfl
@[simp] theorem State.onDie_wantIdle (s : State) (d : Nat) (f : Die → Die) : (s.onDie d f).wantIdle = s.wantIdle := rfl
@[simp] theorem State.onDie_riseAt (s : State) (d : Nat) (f : Die → Die) : (s.onDie d f).riseAt = s.riseAt := rfl
@[simp] theorem State.onDie_ready (s : State) (d : Nat) (f : Die → Die) : (s.onDie d f).ready = s.ready := rfl
@[simp] theorem State.onDie_hosterr (s : State) (d : Nat) (f : Die → Die) : (s.onDie d f).hosterr = s.hosterr := rfl
@[simp] theorem State.onDie_coord (s : State) (d : Nat) (f : Die → Die) : (s.onDie d f).coord = s.coord := rfl
@[simp] theorem State.onDie_extent (s : State) (d : Nat) (f : Die → Die) : (s.onDie d f).extent = s.extent := rfl
@[simp] theorem State.onDie_power (s : State) (d : Nat) (f : Die → Die) : (s.onDie d f).power = s.power := rfl
@[simp] theorem State.onDie_bundlelimit (s : State) (d : Nat) (f : Die → Die) : (s.onDie d f).bundlelimit = s.bundlelimit := rfl
@[simp] theorem State.onDie_stopwin (s : State) (d : Nat) (f : Die → Die) : (s.onDie d f).stopwin = s.stopwin := rfl
@[simp] theorem State.onDie_tests (s : State) (d : Nat) (f : Die → Die) : (s.onDie d f).tests = s.tests := rfl
@[simp] theorem State.onDie_watches (s : State) (d : Nat) (f : Die → Die) : (s.onDie d f).watches = s.watches := rfl
@[simp] theorem State.onDie_slots (s : State) (d : Nat) (f : Die → Die) : (s.onDie d f).slots = s.slots := rfl
@[simp] theorem State.onDie_booted (s : State) (d : Nat) (f : Die → Die) : (s.onDie d f).booted = s.booted := rfl
@[simp] theorem State.onDie_measured (s : State) (d : Nat) (f : Die → Die) : (s.onDie d f).measured = s.measured := rfl
@[simp] theorem State.onDie_outputs (s : State) (d : Nat) (f : Die → Die) : (s.onDie d f).outputs = s.outputs := rfl
@[simp] theorem State.onDie_agenda (s : State) (d : Nat) (f : Die → Die) : (s.onDie d f).agenda = s.agenda := rfl
@[simp] theorem State.onDie_slack (s : State) (d : Nat) (f : Die → Die) : (s.onDie d f).slack = s.slack := rfl
@[simp] theorem State.onDie_fresh (s : State) (d : Nat) (f : Die → Die) : (s.onDie d f).fresh = s.fresh := rfl

/-! ### onLaunch: what it leaves -/

@[simp] theorem State.onLaunch_cc (s : State) (q : Nat) (f : Launch → Launch) : (s.onLaunch q f).cc = s.cc := rfl
@[simp] theorem State.onLaunch_late (s : State) (q : Nat) (f : Launch → Launch) : (s.onLaunch q f).late = s.late := rfl
@[simp] theorem State.onLaunch_bun (s : State) (q : Nat) (f : Launch → Launch) : (s.onLaunch q f).bun = s.bun := rfl
@[simp] theorem State.onLaunch_tiles (s : State) (q : Nat) (f : Launch → Launch) : (s.onLaunch q f).tiles = s.tiles := rfl
@[simp] theorem State.onLaunch_clusters (s : State) (q : Nat) (f : Launch → Launch) : (s.onLaunch q f).clusters = s.clusters := rfl
@[simp] theorem State.onLaunch_dies (s : State) (q : Nat) (f : Launch → Launch) : (s.onLaunch q f).dies = s.dies := rfl
@[simp] theorem State.onLaunch_qcfg (s : State) (q : Nat) (f : Launch → Launch) : (s.onLaunch q f).qcfg = s.qcfg := rfl
@[simp] theorem State.onLaunch_qtaken (s : State) (q : Nat) (f : Launch → Launch) : (s.onLaunch q f).qtaken = s.qtaken := rfl
@[simp] theorem State.onLaunch_bars (s : State) (q : Nat) (f : Launch → Launch) : (s.onLaunch q f).bars = s.bars := rfl
@[simp] theorem State.onLaunch_barNext (s : State) (q : Nat) (f : Launch → Launch) : (s.onLaunch q f).barNext = s.barNext := rfl
@[simp] theorem State.onLaunch_barCount (s : State) (q : Nat) (f : Launch → Launch) : (s.onLaunch q f).barCount = s.barCount := rfl
@[simp] theorem State.onLaunch_mlrs (s : State) (q : Nat) (f : Launch → Launch) : (s.onLaunch q f).mlrs = s.mlrs := rfl
@[simp] theorem State.onLaunch_mlrNext (s : State) (q : Nat) (f : Launch → Launch) : (s.onLaunch q f).mlrNext = s.mlrNext := rfl
@[simp] theorem State.onLaunch_mlrFailed (s : State) (q : Nat) (f : Launch → Launch) : (s.onLaunch q f).mlrFailed = s.mlrFailed := rfl
@[simp] theorem State.onLaunch_cordNext (s : State) (q : Nat) (f : Launch → Launch) : (s.onLaunch q f).cordNext = s.cordNext := rfl
@[simp] theorem State.onLaunch_ports (s : State) (q : Nat) (f : Launch → Launch) : (s.onLaunch q f).ports = s.ports := rfl
@[simp] theorem State.onLaunch_shotNext (s : State) (q : Nat) (f : Launch → Launch) : (s.onLaunch q f).shotNext = s.shotNext := rfl
@[simp] theorem State.onLaunch_mhz (s : State) (q : Nat) (f : Launch → Launch) : (s.onLaunch q f).mhz = s.mhz := rfl
@[simp] theorem State.onLaunch_wantMhz (s : State) (q : Nat) (f : Launch → Launch) : (s.onLaunch q f).wantMhz = s.wantMhz := rfl
@[simp] theorem State.onLaunch_wantIdle (s : State) (q : Nat) (f : Launch → Launch) : (s.onLaunch q f).wantIdle = s.wantIdle := rfl
@[simp] theorem State.onLaunch_riseAt (s : State) (q : Nat) (f : Launch → Launch) : (s.onLaunch q f).riseAt = s.riseAt := rfl
@[simp] theorem State.onLaunch_ready (s : State) (q : Nat) (f : Launch → Launch) : (s.onLaunch q f).ready = s.ready := rfl
@[simp] theorem State.onLaunch_hosterr (s : State) (q : Nat) (f : Launch → Launch) : (s.onLaunch q f).hosterr = s.hosterr := rfl
@[simp] theorem State.onLaunch_coord (s : State) (q : Nat) (f : Launch → Launch) : (s.onLaunch q f).coord = s.coord := rfl
@[simp] theorem State.onLaunch_extent (s : State) (q : Nat) (f : Launch → Launch) : (s.onLaunch q f).extent = s.extent := rfl
@[simp] theorem State.onLaunch_power (s : State) (q : Nat) (f : Launch → Launch) : (s.onLaunch q f).power = s.power := rfl
@[simp] theorem State.onLaunch_bundlelimit (s : State) (q : Nat) (f : Launch → Launch) : (s.onLaunch q f).bundlelimit = s.bundlelimit := rfl
@[simp] theorem State.onLaunch_stopwin (s : State) (q : Nat) (f : Launch → Launch) : (s.onLaunch q f).stopwin = s.stopwin := rfl
@[simp] theorem State.onLaunch_tests (s : State) (q : Nat) (f : Launch → Launch) : (s.onLaunch q f).tests = s.tests := rfl
@[simp] theorem State.onLaunch_watches (s : State) (q : Nat) (f : Launch → Launch) : (s.onLaunch q f).watches = s.watches := rfl
@[simp] theorem State.onLaunch_slots (s : State) (q : Nat) (f : Launch → Launch) : (s.onLaunch q f).slots = s.slots := rfl
@[simp] theorem State.onLaunch_booted (s : State) (q : Nat) (f : Launch → Launch) : (s.onLaunch q f).booted = s.booted := rfl
@[simp] theorem State.onLaunch_measured (s : State) (q : Nat) (f : Launch → Launch) : (s.onLaunch q f).measured = s.measured := rfl
@[simp] theorem State.onLaunch_outputs (s : State) (q : Nat) (f : Launch → Launch) : (s.onLaunch q f).outputs = s.outputs := rfl
@[simp] theorem State.onLaunch_agenda (s : State) (q : Nat) (f : Launch → Launch) : (s.onLaunch q f).agenda = s.agenda := rfl
@[simp] theorem State.onLaunch_slack (s : State) (q : Nat) (f : Launch → Launch) : (s.onLaunch q f).slack = s.slack := rfl
@[simp] theorem State.onLaunch_fresh (s : State) (q : Nat) (f : Launch → Launch) : (s.onLaunch q f).fresh = s.fresh := rfl

/-! ### sched: what it leaves -/

@[simp] theorem State.sched_cc (s : State) (cc slot : Nat) (e : Event) : (s.sched cc slot e).cc = s.cc := rfl
@[simp] theorem State.sched_late (s : State) (cc slot : Nat) (e : Event) : (s.sched cc slot e).late = s.late := rfl
@[simp] theorem State.sched_bun (s : State) (cc slot : Nat) (e : Event) : (s.sched cc slot e).bun = s.bun := rfl
@[simp] theorem State.sched_tiles (s : State) (cc slot : Nat) (e : Event) : (s.sched cc slot e).tiles = s.tiles := rfl
@[simp] theorem State.sched_clusters (s : State) (cc slot : Nat) (e : Event) : (s.sched cc slot e).clusters = s.clusters := rfl
@[simp] theorem State.sched_dies (s : State) (cc slot : Nat) (e : Event) : (s.sched cc slot e).dies = s.dies := rfl
@[simp] theorem State.sched_launches (s : State) (cc slot : Nat) (e : Event) : (s.sched cc slot e).launches = s.launches := rfl
@[simp] theorem State.sched_qcfg (s : State) (cc slot : Nat) (e : Event) : (s.sched cc slot e).qcfg = s.qcfg := rfl
@[simp] theorem State.sched_qtaken (s : State) (cc slot : Nat) (e : Event) : (s.sched cc slot e).qtaken = s.qtaken := rfl
@[simp] theorem State.sched_bars (s : State) (cc slot : Nat) (e : Event) : (s.sched cc slot e).bars = s.bars := rfl
@[simp] theorem State.sched_barNext (s : State) (cc slot : Nat) (e : Event) : (s.sched cc slot e).barNext = s.barNext := rfl
@[simp] theorem State.sched_barCount (s : State) (cc slot : Nat) (e : Event) : (s.sched cc slot e).barCount = s.barCount := rfl
@[simp] theorem State.sched_mlrs (s : State) (cc slot : Nat) (e : Event) : (s.sched cc slot e).mlrs = s.mlrs := rfl
@[simp] theorem State.sched_mlrNext (s : State) (cc slot : Nat) (e : Event) : (s.sched cc slot e).mlrNext = s.mlrNext := rfl
@[simp] theorem State.sched_mlrFailed (s : State) (cc slot : Nat) (e : Event) : (s.sched cc slot e).mlrFailed = s.mlrFailed := rfl
@[simp] theorem State.sched_cordNext (s : State) (cc slot : Nat) (e : Event) : (s.sched cc slot e).cordNext = s.cordNext := rfl
@[simp] theorem State.sched_ports (s : State) (cc slot : Nat) (e : Event) : (s.sched cc slot e).ports = s.ports := rfl
@[simp] theorem State.sched_shotNext (s : State) (cc slot : Nat) (e : Event) : (s.sched cc slot e).shotNext = s.shotNext := rfl
@[simp] theorem State.sched_mhz (s : State) (cc slot : Nat) (e : Event) : (s.sched cc slot e).mhz = s.mhz := rfl
@[simp] theorem State.sched_wantMhz (s : State) (cc slot : Nat) (e : Event) : (s.sched cc slot e).wantMhz = s.wantMhz := rfl
@[simp] theorem State.sched_wantIdle (s : State) (cc slot : Nat) (e : Event) : (s.sched cc slot e).wantIdle = s.wantIdle := rfl
@[simp] theorem State.sched_riseAt (s : State) (cc slot : Nat) (e : Event) : (s.sched cc slot e).riseAt = s.riseAt := rfl
@[simp] theorem State.sched_ready (s : State) (cc slot : Nat) (e : Event) : (s.sched cc slot e).ready = s.ready := rfl
@[simp] theorem State.sched_hosterr (s : State) (cc slot : Nat) (e : Event) : (s.sched cc slot e).hosterr = s.hosterr := rfl
@[simp] theorem State.sched_coord (s : State) (cc slot : Nat) (e : Event) : (s.sched cc slot e).coord = s.coord := rfl
@[simp] theorem State.sched_extent (s : State) (cc slot : Nat) (e : Event) : (s.sched cc slot e).extent = s.extent := rfl
@[simp] theorem State.sched_power (s : State) (cc slot : Nat) (e : Event) : (s.sched cc slot e).power = s.power := rfl
@[simp] theorem State.sched_bundlelimit (s : State) (cc slot : Nat) (e : Event) : (s.sched cc slot e).bundlelimit = s.bundlelimit := rfl
@[simp] theorem State.sched_stopwin (s : State) (cc slot : Nat) (e : Event) : (s.sched cc slot e).stopwin = s.stopwin := rfl
@[simp] theorem State.sched_tests (s : State) (cc slot : Nat) (e : Event) : (s.sched cc slot e).tests = s.tests := rfl
@[simp] theorem State.sched_watches (s : State) (cc slot : Nat) (e : Event) : (s.sched cc slot e).watches = s.watches := rfl
@[simp] theorem State.sched_slots (s : State) (cc slot : Nat) (e : Event) : (s.sched cc slot e).slots = s.slots := rfl
@[simp] theorem State.sched_booted (s : State) (cc slot : Nat) (e : Event) : (s.sched cc slot e).booted = s.booted := rfl
@[simp] theorem State.sched_measured (s : State) (cc slot : Nat) (e : Event) : (s.sched cc slot e).measured = s.measured := rfl
@[simp] theorem State.sched_outputs (s : State) (cc slot : Nat) (e : Event) : (s.sched cc slot e).outputs = s.outputs := rfl
@[simp] theorem State.sched_slack (s : State) (cc slot : Nat) (e : Event) : (s.sched cc slot e).slack = s.slack := rfl
@[simp] theorem State.sched_fresh (s : State) (cc slot : Nat) (e : Event) : (s.sched cc slot e).fresh = s.fresh := rfl

/-! ### soon: what it leaves -/

@[simp] theorem State.soon_cc (s : State) (b slot : Nat) (e : Event) : (s.soon b slot e).cc = s.cc := rfl
@[simp] theorem State.soon_late (s : State) (b slot : Nat) (e : Event) : (s.soon b slot e).late = s.late := rfl
@[simp] theorem State.soon_bun (s : State) (b slot : Nat) (e : Event) : (s.soon b slot e).bun = s.bun := rfl
@[simp] theorem State.soon_tiles (s : State) (b slot : Nat) (e : Event) : (s.soon b slot e).tiles = s.tiles := rfl
@[simp] theorem State.soon_clusters (s : State) (b slot : Nat) (e : Event) : (s.soon b slot e).clusters = s.clusters := rfl
@[simp] theorem State.soon_dies (s : State) (b slot : Nat) (e : Event) : (s.soon b slot e).dies = s.dies := rfl
@[simp] theorem State.soon_launches (s : State) (b slot : Nat) (e : Event) : (s.soon b slot e).launches = s.launches := rfl
@[simp] theorem State.soon_qcfg (s : State) (b slot : Nat) (e : Event) : (s.soon b slot e).qcfg = s.qcfg := rfl
@[simp] theorem State.soon_qtaken (s : State) (b slot : Nat) (e : Event) : (s.soon b slot e).qtaken = s.qtaken := rfl
@[simp] theorem State.soon_bars (s : State) (b slot : Nat) (e : Event) : (s.soon b slot e).bars = s.bars := rfl
@[simp] theorem State.soon_barNext (s : State) (b slot : Nat) (e : Event) : (s.soon b slot e).barNext = s.barNext := rfl
@[simp] theorem State.soon_barCount (s : State) (b slot : Nat) (e : Event) : (s.soon b slot e).barCount = s.barCount := rfl
@[simp] theorem State.soon_mlrs (s : State) (b slot : Nat) (e : Event) : (s.soon b slot e).mlrs = s.mlrs := rfl
@[simp] theorem State.soon_mlrNext (s : State) (b slot : Nat) (e : Event) : (s.soon b slot e).mlrNext = s.mlrNext := rfl
@[simp] theorem State.soon_mlrFailed (s : State) (b slot : Nat) (e : Event) : (s.soon b slot e).mlrFailed = s.mlrFailed := rfl
@[simp] theorem State.soon_cordNext (s : State) (b slot : Nat) (e : Event) : (s.soon b slot e).cordNext = s.cordNext := rfl
@[simp] theorem State.soon_ports (s : State) (b slot : Nat) (e : Event) : (s.soon b slot e).ports = s.ports := rfl
@[simp] theorem State.soon_shotNext (s : State) (b slot : Nat) (e : Event) : (s.soon b slot e).shotNext = s.shotNext := rfl
@[simp] theorem State.soon_mhz (s : State) (b slot : Nat) (e : Event) : (s.soon b slot e).mhz = s.mhz := rfl
@[simp] theorem State.soon_wantMhz (s : State) (b slot : Nat) (e : Event) : (s.soon b slot e).wantMhz = s.wantMhz := rfl
@[simp] theorem State.soon_wantIdle (s : State) (b slot : Nat) (e : Event) : (s.soon b slot e).wantIdle = s.wantIdle := rfl
@[simp] theorem State.soon_riseAt (s : State) (b slot : Nat) (e : Event) : (s.soon b slot e).riseAt = s.riseAt := rfl
@[simp] theorem State.soon_ready (s : State) (b slot : Nat) (e : Event) : (s.soon b slot e).ready = s.ready := rfl
@[simp] theorem State.soon_hosterr (s : State) (b slot : Nat) (e : Event) : (s.soon b slot e).hosterr = s.hosterr := rfl
@[simp] theorem State.soon_coord (s : State) (b slot : Nat) (e : Event) : (s.soon b slot e).coord = s.coord := rfl
@[simp] theorem State.soon_extent (s : State) (b slot : Nat) (e : Event) : (s.soon b slot e).extent = s.extent := rfl
@[simp] theorem State.soon_power (s : State) (b slot : Nat) (e : Event) : (s.soon b slot e).power = s.power := rfl
@[simp] theorem State.soon_bundlelimit (s : State) (b slot : Nat) (e : Event) : (s.soon b slot e).bundlelimit = s.bundlelimit := rfl
@[simp] theorem State.soon_stopwin (s : State) (b slot : Nat) (e : Event) : (s.soon b slot e).stopwin = s.stopwin := rfl
@[simp] theorem State.soon_tests (s : State) (b slot : Nat) (e : Event) : (s.soon b slot e).tests = s.tests := rfl
@[simp] theorem State.soon_watches (s : State) (b slot : Nat) (e : Event) : (s.soon b slot e).watches = s.watches := rfl
@[simp] theorem State.soon_slots (s : State) (b slot : Nat) (e : Event) : (s.soon b slot e).slots = s.slots := rfl
@[simp] theorem State.soon_booted (s : State) (b slot : Nat) (e : Event) : (s.soon b slot e).booted = s.booted := rfl
@[simp] theorem State.soon_measured (s : State) (b slot : Nat) (e : Event) : (s.soon b slot e).measured = s.measured := rfl
@[simp] theorem State.soon_outputs (s : State) (b slot : Nat) (e : Event) : (s.soon b slot e).outputs = s.outputs := rfl
@[simp] theorem State.soon_fresh (s : State) (b slot : Nat) (e : Event) : (s.soon b slot e).fresh = s.fresh := rfl

/-! ### unsched: what it leaves -/

@[simp] theorem State.unsched_cc (s : State) (f : Event → Bool) : (s.unsched f).cc = s.cc := rfl
@[simp] theorem State.unsched_late (s : State) (f : Event → Bool) : (s.unsched f).late = s.late := rfl
@[simp] theorem State.unsched_bun (s : State) (f : Event → Bool) : (s.unsched f).bun = s.bun := rfl
@[simp] theorem State.unsched_tiles (s : State) (f : Event → Bool) : (s.unsched f).tiles = s.tiles := rfl
@[simp] theorem State.unsched_clusters (s : State) (f : Event → Bool) : (s.unsched f).clusters = s.clusters := rfl
@[simp] theorem State.unsched_dies (s : State) (f : Event → Bool) : (s.unsched f).dies = s.dies := rfl
@[simp] theorem State.unsched_launches (s : State) (f : Event → Bool) : (s.unsched f).launches = s.launches := rfl
@[simp] theorem State.unsched_qcfg (s : State) (f : Event → Bool) : (s.unsched f).qcfg = s.qcfg := rfl
@[simp] theorem State.unsched_qtaken (s : State) (f : Event → Bool) : (s.unsched f).qtaken = s.qtaken := rfl
@[simp] theorem State.unsched_bars (s : State) (f : Event → Bool) : (s.unsched f).bars = s.bars := rfl
@[simp] theorem State.unsched_barNext (s : State) (f : Event → Bool) : (s.unsched f).barNext = s.barNext := rfl
@[simp] theorem State.unsched_barCount (s : State) (f : Event → Bool) : (s.unsched f).barCount = s.barCount := rfl
@[simp] theorem State.unsched_mlrs (s : State) (f : Event → Bool) : (s.unsched f).mlrs = s.mlrs := rfl
@[simp] theorem State.unsched_mlrNext (s : State) (f : Event → Bool) : (s.unsched f).mlrNext = s.mlrNext := rfl
@[simp] theorem State.unsched_mlrFailed (s : State) (f : Event → Bool) : (s.unsched f).mlrFailed = s.mlrFailed := rfl
@[simp] theorem State.unsched_cordNext (s : State) (f : Event → Bool) : (s.unsched f).cordNext = s.cordNext := rfl
@[simp] theorem State.unsched_ports (s : State) (f : Event → Bool) : (s.unsched f).ports = s.ports := rfl
@[simp] theorem State.unsched_shotNext (s : State) (f : Event → Bool) : (s.unsched f).shotNext = s.shotNext := rfl
@[simp] theorem State.unsched_mhz (s : State) (f : Event → Bool) : (s.unsched f).mhz = s.mhz := rfl
@[simp] theorem State.unsched_wantMhz (s : State) (f : Event → Bool) : (s.unsched f).wantMhz = s.wantMhz := rfl
@[simp] theorem State.unsched_wantIdle (s : State) (f : Event → Bool) : (s.unsched f).wantIdle = s.wantIdle := rfl
@[simp] theorem State.unsched_riseAt (s : State) (f : Event → Bool) : (s.unsched f).riseAt = s.riseAt := rfl
@[simp] theorem State.unsched_ready (s : State) (f : Event → Bool) : (s.unsched f).ready = s.ready := rfl
@[simp] theorem State.unsched_hosterr (s : State) (f : Event → Bool) : (s.unsched f).hosterr = s.hosterr := rfl
@[simp] theorem State.unsched_coord (s : State) (f : Event → Bool) : (s.unsched f).coord = s.coord := rfl
@[simp] theorem State.unsched_extent (s : State) (f : Event → Bool) : (s.unsched f).extent = s.extent := rfl
@[simp] theorem State.unsched_power (s : State) (f : Event → Bool) : (s.unsched f).power = s.power := rfl
@[simp] theorem State.unsched_bundlelimit (s : State) (f : Event → Bool) : (s.unsched f).bundlelimit = s.bundlelimit := rfl
@[simp] theorem State.unsched_stopwin (s : State) (f : Event → Bool) : (s.unsched f).stopwin = s.stopwin := rfl
@[simp] theorem State.unsched_tests (s : State) (f : Event → Bool) : (s.unsched f).tests = s.tests := rfl
@[simp] theorem State.unsched_watches (s : State) (f : Event → Bool) : (s.unsched f).watches = s.watches := rfl
@[simp] theorem State.unsched_slots (s : State) (f : Event → Bool) : (s.unsched f).slots = s.slots := rfl
@[simp] theorem State.unsched_booted (s : State) (f : Event → Bool) : (s.unsched f).booted = s.booted := rfl
@[simp] theorem State.unsched_measured (s : State) (f : Event → Bool) : (s.unsched f).measured = s.measured := rfl
@[simp] theorem State.unsched_outputs (s : State) (f : Event → Bool) : (s.unsched f).outputs = s.outputs := rfl
@[simp] theorem State.unsched_slack (s : State) (f : Event → Bool) : (s.unsched f).slack = s.slack := rfl
@[simp] theorem State.unsched_fresh (s : State) (f : Event → Bool) : (s.unsched f).fresh = s.fresh := rfl

/-! ### spend: what it leaves -/

@[simp] theorem State.spend_cc (s : State) : (s.spend).cc = s.cc := rfl
@[simp] theorem State.spend_late (s : State) : (s.spend).late = s.late := rfl
@[simp] theorem State.spend_bun (s : State) : (s.spend).bun = s.bun := rfl
@[simp] theorem State.spend_tiles (s : State) : (s.spend).tiles = s.tiles := rfl
@[simp] theorem State.spend_clusters (s : State) : (s.spend).clusters = s.clusters := rfl
@[simp] theorem State.spend_dies (s : State) : (s.spend).dies = s.dies := rfl
@[simp] theorem State.spend_launches (s : State) : (s.spend).launches = s.launches := rfl
@[simp] theorem State.spend_qcfg (s : State) : (s.spend).qcfg = s.qcfg := rfl
@[simp] theorem State.spend_qtaken (s : State) : (s.spend).qtaken = s.qtaken := rfl
@[simp] theorem State.spend_bars (s : State) : (s.spend).bars = s.bars := rfl
@[simp] theorem State.spend_barNext (s : State) : (s.spend).barNext = s.barNext := rfl
@[simp] theorem State.spend_barCount (s : State) : (s.spend).barCount = s.barCount := rfl
@[simp] theorem State.spend_mlrs (s : State) : (s.spend).mlrs = s.mlrs := rfl
@[simp] theorem State.spend_mlrNext (s : State) : (s.spend).mlrNext = s.mlrNext := rfl
@[simp] theorem State.spend_mlrFailed (s : State) : (s.spend).mlrFailed = s.mlrFailed := rfl
@[simp] theorem State.spend_cordNext (s : State) : (s.spend).cordNext = s.cordNext := rfl
@[simp] theorem State.spend_ports (s : State) : (s.spend).ports = s.ports := rfl
@[simp] theorem State.spend_shotNext (s : State) : (s.spend).shotNext = s.shotNext := rfl
@[simp] theorem State.spend_mhz (s : State) : (s.spend).mhz = s.mhz := rfl
@[simp] theorem State.spend_wantMhz (s : State) : (s.spend).wantMhz = s.wantMhz := rfl
@[simp] theorem State.spend_wantIdle (s : State) : (s.spend).wantIdle = s.wantIdle := rfl
@[simp] theorem State.spend_riseAt (s : State) : (s.spend).riseAt = s.riseAt := rfl
@[simp] theorem State.spend_ready (s : State) : (s.spend).ready = s.ready := rfl
@[simp] theorem State.spend_hosterr (s : State) : (s.spend).hosterr = s.hosterr := rfl
@[simp] theorem State.spend_coord (s : State) : (s.spend).coord = s.coord := rfl
@[simp] theorem State.spend_extent (s : State) : (s.spend).extent = s.extent := rfl
@[simp] theorem State.spend_power (s : State) : (s.spend).power = s.power := rfl
@[simp] theorem State.spend_bundlelimit (s : State) : (s.spend).bundlelimit = s.bundlelimit := rfl
@[simp] theorem State.spend_stopwin (s : State) : (s.spend).stopwin = s.stopwin := rfl
@[simp] theorem State.spend_tests (s : State) : (s.spend).tests = s.tests := rfl
@[simp] theorem State.spend_watches (s : State) : (s.spend).watches = s.watches := rfl
@[simp] theorem State.spend_slots (s : State) : (s.spend).slots = s.slots := rfl
@[simp] theorem State.spend_booted (s : State) : (s.spend).booted = s.booted := rfl
@[simp] theorem State.spend_measured (s : State) : (s.spend).measured = s.measured := rfl
@[simp] theorem State.spend_outputs (s : State) : (s.spend).outputs = s.outputs := rfl
@[simp] theorem State.spend_agenda (s : State) : (s.spend).agenda = s.agenda := rfl
@[simp] theorem State.spend_slack (s : State) : (s.spend).slack = s.slack := rfl

/-! ### emit: what it leaves -/

@[simp] theorem State.emit_cc (s : State) (o : Output) : (s.emit o).cc = s.cc := rfl
@[simp] theorem State.emit_late (s : State) (o : Output) : (s.emit o).late = s.late := rfl
@[simp] theorem State.emit_bun (s : State) (o : Output) : (s.emit o).bun = s.bun := rfl
@[simp] theorem State.emit_tiles (s : State) (o : Output) : (s.emit o).tiles = s.tiles := rfl
@[simp] theorem State.emit_clusters (s : State) (o : Output) : (s.emit o).clusters = s.clusters := rfl
@[simp] theorem State.emit_dies (s : State) (o : Output) : (s.emit o).dies = s.dies := rfl
@[simp] theorem State.emit_launches (s : State) (o : Output) : (s.emit o).launches = s.launches := rfl
@[simp] theorem State.emit_qcfg (s : State) (o : Output) : (s.emit o).qcfg = s.qcfg := rfl
@[simp] theorem State.emit_qtaken (s : State) (o : Output) : (s.emit o).qtaken = s.qtaken := rfl
@[simp] theorem State.emit_bars (s : State) (o : Output) : (s.emit o).bars = s.bars := rfl
@[simp] theorem State.emit_barNext (s : State) (o : Output) : (s.emit o).barNext = s.barNext := rfl
@[simp] theorem State.emit_barCount (s : State) (o : Output) : (s.emit o).barCount = s.barCount := rfl
@[simp] theorem State.emit_mlrs (s : State) (o : Output) : (s.emit o).mlrs = s.mlrs := rfl
@[simp] theorem State.emit_mlrNext (s : State) (o : Output) : (s.emit o).mlrNext = s.mlrNext := rfl
@[simp] theorem State.emit_mlrFailed (s : State) (o : Output) : (s.emit o).mlrFailed = s.mlrFailed := rfl
@[simp] theorem State.emit_cordNext (s : State) (o : Output) : (s.emit o).cordNext = s.cordNext := rfl
@[simp] theorem State.emit_ports (s : State) (o : Output) : (s.emit o).ports = s.ports := rfl
@[simp] theorem State.emit_shotNext (s : State) (o : Output) : (s.emit o).shotNext = s.shotNext := rfl
@[simp] theorem State.emit_mhz (s : State) (o : Output) : (s.emit o).mhz = s.mhz := rfl
@[simp] theorem State.emit_wantMhz (s : State) (o : Output) : (s.emit o).wantMhz = s.wantMhz := rfl
@[simp] theorem State.emit_wantIdle (s : State) (o : Output) : (s.emit o).wantIdle = s.wantIdle := rfl
@[simp] theorem State.emit_riseAt (s : State) (o : Output) : (s.emit o).riseAt = s.riseAt := rfl
@[simp] theorem State.emit_ready (s : State) (o : Output) : (s.emit o).ready = s.ready := rfl
@[simp] theorem State.emit_hosterr (s : State) (o : Output) : (s.emit o).hosterr = s.hosterr := rfl
@[simp] theorem State.emit_coord (s : State) (o : Output) : (s.emit o).coord = s.coord := rfl
@[simp] theorem State.emit_extent (s : State) (o : Output) : (s.emit o).extent = s.extent := rfl
@[simp] theorem State.emit_power (s : State) (o : Output) : (s.emit o).power = s.power := rfl
@[simp] theorem State.emit_bundlelimit (s : State) (o : Output) : (s.emit o).bundlelimit = s.bundlelimit := rfl
@[simp] theorem State.emit_stopwin (s : State) (o : Output) : (s.emit o).stopwin = s.stopwin := rfl
@[simp] theorem State.emit_tests (s : State) (o : Output) : (s.emit o).tests = s.tests := rfl
@[simp] theorem State.emit_watches (s : State) (o : Output) : (s.emit o).watches = s.watches := rfl
@[simp] theorem State.emit_slots (s : State) (o : Output) : (s.emit o).slots = s.slots := rfl
@[simp] theorem State.emit_booted (s : State) (o : Output) : (s.emit o).booted = s.booted := rfl
@[simp] theorem State.emit_measured (s : State) (o : Output) : (s.emit o).measured = s.measured := rfl
@[simp] theorem State.emit_agenda (s : State) (o : Output) : (s.emit o).agenda = s.agenda := rfl
@[simp] theorem State.emit_slack (s : State) (o : Output) : (s.emit o).slack = s.slack := rfl
@[simp] theorem State.emit_fresh (s : State) (o : Output) : (s.emit o).fresh = s.fresh := rfl

/-! ### onBun: what it leaves -/

@[simp] theorem State.onBun_cc (s : State) (f : Bundle → Bundle) : (s.onBun f).cc = s.cc := rfl
@[simp] theorem State.onBun_late (s : State) (f : Bundle → Bundle) : (s.onBun f).late = s.late := rfl
@[simp] theorem State.onBun_tiles (s : State) (f : Bundle → Bundle) : (s.onBun f).tiles = s.tiles := rfl
@[simp] theorem State.onBun_clusters (s : State) (f : Bundle → Bundle) : (s.onBun f).clusters = s.clusters := rfl
@[simp] theorem State.onBun_dies (s : State) (f : Bundle → Bundle) : (s.onBun f).dies = s.dies := rfl
@[simp] theorem State.onBun_launches (s : State) (f : Bundle → Bundle) : (s.onBun f).launches = s.launches := rfl
@[simp] theorem State.onBun_qcfg (s : State) (f : Bundle → Bundle) : (s.onBun f).qcfg = s.qcfg := rfl
@[simp] theorem State.onBun_qtaken (s : State) (f : Bundle → Bundle) : (s.onBun f).qtaken = s.qtaken := rfl
@[simp] theorem State.onBun_bars (s : State) (f : Bundle → Bundle) : (s.onBun f).bars = s.bars := rfl
@[simp] theorem State.onBun_barNext (s : State) (f : Bundle → Bundle) : (s.onBun f).barNext = s.barNext := rfl
@[simp] theorem State.onBun_barCount (s : State) (f : Bundle → Bundle) : (s.onBun f).barCount = s.barCount := rfl
@[simp] theorem State.onBun_mlrs (s : State) (f : Bundle → Bundle) : (s.onBun f).mlrs = s.mlrs := rfl
@[simp] theorem State.onBun_mlrNext (s : State) (f : Bundle → Bundle) : (s.onBun f).mlrNext = s.mlrNext := rfl
@[simp] theorem State.onBun_mlrFailed (s : State) (f : Bundle → Bundle) : (s.onBun f).mlrFailed = s.mlrFailed := rfl
@[simp] theorem State.onBun_cordNext (s : State) (f : Bundle → Bundle) : (s.onBun f).cordNext = s.cordNext := rfl
@[simp] theorem State.onBun_ports (s : State) (f : Bundle → Bundle) : (s.onBun f).ports = s.ports := rfl
@[simp] theorem State.onBun_shotNext (s : State) (f : Bundle → Bundle) : (s.onBun f).shotNext = s.shotNext := rfl
@[simp] theorem State.onBun_mhz (s : State) (f : Bundle → Bundle) : (s.onBun f).mhz = s.mhz := rfl
@[simp] theorem State.onBun_wantMhz (s : State) (f : Bundle → Bundle) : (s.onBun f).wantMhz = s.wantMhz := rfl
@[simp] theorem State.onBun_wantIdle (s : State) (f : Bundle → Bundle) : (s.onBun f).wantIdle = s.wantIdle := rfl
@[simp] theorem State.onBun_riseAt (s : State) (f : Bundle → Bundle) : (s.onBun f).riseAt = s.riseAt := rfl
@[simp] theorem State.onBun_ready (s : State) (f : Bundle → Bundle) : (s.onBun f).ready = s.ready := rfl
@[simp] theorem State.onBun_hosterr (s : State) (f : Bundle → Bundle) : (s.onBun f).hosterr = s.hosterr := rfl
@[simp] theorem State.onBun_coord (s : State) (f : Bundle → Bundle) : (s.onBun f).coord = s.coord := rfl
@[simp] theorem State.onBun_extent (s : State) (f : Bundle → Bundle) : (s.onBun f).extent = s.extent := rfl
@[simp] theorem State.onBun_power (s : State) (f : Bundle → Bundle) : (s.onBun f).power = s.power := rfl
@[simp] theorem State.onBun_bundlelimit (s : State) (f : Bundle → Bundle) : (s.onBun f).bundlelimit = s.bundlelimit := rfl
@[simp] theorem State.onBun_stopwin (s : State) (f : Bundle → Bundle) : (s.onBun f).stopwin = s.stopwin := rfl
@[simp] theorem State.onBun_tests (s : State) (f : Bundle → Bundle) : (s.onBun f).tests = s.tests := rfl
@[simp] theorem State.onBun_watches (s : State) (f : Bundle → Bundle) : (s.onBun f).watches = s.watches := rfl
@[simp] theorem State.onBun_slots (s : State) (f : Bundle → Bundle) : (s.onBun f).slots = s.slots := rfl
@[simp] theorem State.onBun_booted (s : State) (f : Bundle → Bundle) : (s.onBun f).booted = s.booted := rfl
@[simp] theorem State.onBun_measured (s : State) (f : Bundle → Bundle) : (s.onBun f).measured = s.measured := rfl
@[simp] theorem State.onBun_outputs (s : State) (f : Bundle → Bundle) : (s.onBun f).outputs = s.outputs := rfl
@[simp] theorem State.onBun_agenda (s : State) (f : Bundle → Bundle) : (s.onBun f).agenda = s.agenda := rfl
@[simp] theorem State.onBun_slack (s : State) (f : Bundle → Bundle) : (s.onBun f).slack = s.slack := rfl
@[simp] theorem State.onBun_fresh (s : State) (f : Bundle → Bundle) : (s.onBun f).fresh = s.fresh := rfl

/-! ### What they write -/

@[simp] theorem State.sched_agenda (s : State) (cc slot : Nat) (e : Event) :
    (s.sched cc slot e).agenda = insertKey (keyOf cc slot) e s.agenda := rfl
@[simp] theorem State.spend_fresh (s : State) : s.spend.fresh = s.fresh + 1 := rfl
@[simp] theorem State.onBun_bun (s : State) (f : Bundle → Bundle) : (s.onBun f).bun = f s.bun := rfl
@[simp] theorem State.emit_outputs (s : State) (o : Output) : (s.emit o).outputs = s.outputs ++ [o] := rfl

@[simp] theorem State.setTile_cluster (s : State) (t : Nat) (x : Tile) (n : Nat) : (s.setTile t x).cluster n = s.cluster n := rfl
@[simp] theorem State.setTile_die (s : State) (t : Nat) (x : Tile) (n : Nat) : (s.setTile t x).die n = s.die n := rfl
@[simp] theorem State.setTile_launch (s : State) (t : Nat) (x : Tile) (n : Nat) : (s.setTile t x).launch n = s.launch n := rfl
@[simp] theorem State.onTile_cluster (s : State) (t : Nat) (f : Tile → Tile) (n : Nat) : (s.onTile t f).cluster n = s.cluster n := rfl
@[simp] theorem State.onTile_die (s : State) (t : Nat) (f : Tile → Tile) (n : Nat) : (s.onTile t f).die n = s.die n := rfl
@[simp] theorem State.onTile_launch (s : State) (t : Nat) (f : Tile → Tile) (n : Nat) : (s.onTile t f).launch n = s.launch n := rfl
@[simp] theorem State.setStrand_cluster (s : State) (t k : Nat) (y : Strand) (n : Nat) : (s.setStrand t k y).cluster n = s.cluster n := rfl
@[simp] theorem State.setStrand_die (s : State) (t k : Nat) (y : Strand) (n : Nat) : (s.setStrand t k y).die n = s.die n := rfl
@[simp] theorem State.setStrand_launch (s : State) (t k : Nat) (y : Strand) (n : Nat) : (s.setStrand t k y).launch n = s.launch n := rfl
@[simp] theorem State.onStrand_cluster (s : State) (t k : Nat) (f : Strand → Strand) (n : Nat) : (s.onStrand t k f).cluster n = s.cluster n := rfl
@[simp] theorem State.onStrand_die (s : State) (t k : Nat) (f : Strand → Strand) (n : Nat) : (s.onStrand t k f).die n = s.die n := rfl
@[simp] theorem State.onStrand_launch (s : State) (t k : Nat) (f : Strand → Strand) (n : Nat) : (s.onStrand t k f).launch n = s.launch n := rfl
@[simp] theorem State.onMe_cluster (s : State) (f : Strand → Strand) (n : Nat) : (s.onMe f).cluster n = s.cluster n := rfl
@[simp] theorem State.onMe_die (s : State) (f : Strand → Strand) (n : Nat) : (s.onMe f).die n = s.die n := rfl
@[simp] theorem State.onMe_launch (s : State) (f : Strand → Strand) (n : Nat) : (s.onMe f).launch n = s.launch n := rfl
@[simp] theorem State.onMyTile_cluster (s : State) (f : Tile → Tile) (n : Nat) : (s.onMyTile f).cluster n = s.cluster n := rfl
@[simp] theorem State.onMyTile_die (s : State) (f : Tile → Tile) (n : Nat) : (s.onMyTile f).die n = s.die n := rfl
@[simp] theorem State.onMyTile_launch (s : State) (f : Tile → Tile) (n : Nat) : (s.onMyTile f).launch n = s.launch n := rfl
@[simp] theorem State.onCluster_tile (s : State) (c : Nat) (f : Cluster → Cluster) (n : Nat) : (s.onCluster c f).tile n = s.tile n := rfl
@[simp] theorem State.onCluster_die (s : State) (c : Nat) (f : Cluster → Cluster) (n : Nat) : (s.onCluster c f).die n = s.die n := rfl
@[simp] theorem State.onCluster_strand (s : State) (c : Nat) (f : Cluster → Cluster) (n j : Nat) : (s.onCluster c f).strand n j = s.strand n j := rfl
@[simp] theorem State.onCluster_launch (s : State) (c : Nat) (f : Cluster → Cluster) (n : Nat) : (s.onCluster c f).launch n = s.launch n := rfl
@[simp] theorem State.onDie_tile (s : State) (d : Nat) (f : Die → Die) (n : Nat) : (s.onDie d f).tile n = s.tile n := rfl
@[simp] theorem State.onDie_cluster (s : State) (d : Nat) (f : Die → Die) (n : Nat) : (s.onDie d f).cluster n = s.cluster n := rfl
@[simp] theorem State.onDie_strand (s : State) (d : Nat) (f : Die → Die) (n j : Nat) : (s.onDie d f).strand n j = s.strand n j := rfl
@[simp] theorem State.onDie_launch (s : State) (d : Nat) (f : Die → Die) (n : Nat) : (s.onDie d f).launch n = s.launch n := rfl
@[simp] theorem State.onLaunch_tile (s : State) (q : Nat) (f : Launch → Launch) (n : Nat) : (s.onLaunch q f).tile n = s.tile n := rfl
@[simp] theorem State.onLaunch_cluster (s : State) (q : Nat) (f : Launch → Launch) (n : Nat) : (s.onLaunch q f).cluster n = s.cluster n := rfl
@[simp] theorem State.onLaunch_die (s : State) (q : Nat) (f : Launch → Launch) (n : Nat) : (s.onLaunch q f).die n = s.die n := rfl
@[simp] theorem State.onLaunch_strand (s : State) (q : Nat) (f : Launch → Launch) (n j : Nat) : (s.onLaunch q f).strand n j = s.strand n j := rfl
@[simp] theorem State.sched_tile (s : State) (cc slot : Nat) (e : Event) (n : Nat) : (s.sched cc slot e).tile n = s.tile n := rfl
@[simp] theorem State.sched_cluster (s : State) (cc slot : Nat) (e : Event) (n : Nat) : (s.sched cc slot e).cluster n = s.cluster n := rfl
@[simp] theorem State.sched_die (s : State) (cc slot : Nat) (e : Event) (n : Nat) : (s.sched cc slot e).die n = s.die n := rfl
@[simp] theorem State.sched_strand (s : State) (cc slot : Nat) (e : Event) (n j : Nat) : (s.sched cc slot e).strand n j = s.strand n j := rfl
@[simp] theorem State.sched_launch (s : State) (cc slot : Nat) (e : Event) (n : Nat) : (s.sched cc slot e).launch n = s.launch n := rfl
@[simp] theorem State.soon_tile (s : State) (b slot : Nat) (e : Event) (n : Nat) : (s.soon b slot e).tile n = s.tile n := rfl
@[simp] theorem State.soon_cluster (s : State) (b slot : Nat) (e : Event) (n : Nat) : (s.soon b slot e).cluster n = s.cluster n := rfl
@[simp] theorem State.soon_die (s : State) (b slot : Nat) (e : Event) (n : Nat) : (s.soon b slot e).die n = s.die n := rfl
@[simp] theorem State.soon_strand (s : State) (b slot : Nat) (e : Event) (n j : Nat) : (s.soon b slot e).strand n j = s.strand n j := rfl
@[simp] theorem State.soon_launch (s : State) (b slot : Nat) (e : Event) (n : Nat) : (s.soon b slot e).launch n = s.launch n := rfl
@[simp] theorem State.unsched_tile (s : State) (f : Event → Bool) (n : Nat) : (s.unsched f).tile n = s.tile n := rfl
@[simp] theorem State.unsched_cluster (s : State) (f : Event → Bool) (n : Nat) : (s.unsched f).cluster n = s.cluster n := rfl
@[simp] theorem State.unsched_die (s : State) (f : Event → Bool) (n : Nat) : (s.unsched f).die n = s.die n := rfl
@[simp] theorem State.unsched_strand (s : State) (f : Event → Bool) (n j : Nat) : (s.unsched f).strand n j = s.strand n j := rfl
@[simp] theorem State.unsched_launch (s : State) (f : Event → Bool) (n : Nat) : (s.unsched f).launch n = s.launch n := rfl
@[simp] theorem State.spend_tile (s : State) (n : Nat) : (s.spend).tile n = s.tile n := rfl
@[simp] theorem State.spend_cluster (s : State) (n : Nat) : (s.spend).cluster n = s.cluster n := rfl
@[simp] theorem State.spend_die (s : State) (n : Nat) : (s.spend).die n = s.die n := rfl
@[simp] theorem State.spend_strand (s : State) (n j : Nat) : (s.spend).strand n j = s.strand n j := rfl
@[simp] theorem State.spend_launch (s : State) (n : Nat) : (s.spend).launch n = s.launch n := rfl
@[simp] theorem State.emit_tile (s : State) (o : Output) (n : Nat) : (s.emit o).tile n = s.tile n := rfl
@[simp] theorem State.emit_cluster (s : State) (o : Output) (n : Nat) : (s.emit o).cluster n = s.cluster n := rfl
@[simp] theorem State.emit_die (s : State) (o : Output) (n : Nat) : (s.emit o).die n = s.die n := rfl
@[simp] theorem State.emit_strand (s : State) (o : Output) (n j : Nat) : (s.emit o).strand n j = s.strand n j := rfl
@[simp] theorem State.emit_launch (s : State) (o : Output) (n : Nat) : (s.emit o).launch n = s.launch n := rfl
@[simp] theorem State.onBun_tile (s : State) (f : Bundle → Bundle) (n : Nat) : (s.onBun f).tile n = s.tile n := rfl
@[simp] theorem State.onBun_cluster (s : State) (f : Bundle → Bundle) (n : Nat) : (s.onBun f).cluster n = s.cluster n := rfl
@[simp] theorem State.onBun_die (s : State) (f : Bundle → Bundle) (n : Nat) : (s.onBun f).die n = s.die n := rfl
@[simp] theorem State.onBun_strand (s : State) (f : Bundle → Bundle) (n j : Nat) : (s.onBun f).strand n j = s.strand n j := rfl
@[simp] theorem State.onBun_launch (s : State) (f : Bundle → Bundle) (n : Nat) : (s.onBun f).launch n = s.launch n := rfl

/-! ### The executing strand -/

theorem State.onMe_def (s : State) (f : Strand → Strand) : s.onMe f = s.onStrand s.bun.tile s.bun.strand f := rfl
theorem State.onMyTile_def (s : State) (f : Tile → Tile) : s.onMyTile f = s.onTile s.bun.tile f := rfl
@[simp] theorem State.me_onMe (s : State) (f : Strand → Strand) : (s.onMe f).me = f s.me := by
  simp [State.me, State.onMe]
@[simp] theorem State.me_sched (s : State) (cc slot : Nat) (e : Event) : (s.sched cc slot e).me = s.me := rfl
@[simp] theorem State.me_soon (s : State) (b slot : Nat) (e : Event) : (s.soon b slot e).me = s.me := rfl
@[simp] theorem State.me_spend (s : State) : s.spend.me = s.me := rfl
@[simp] theorem State.me_onCluster (s : State) (c : Nat) (f : Cluster → Cluster) : (s.onCluster c f).me = s.me := rfl
@[simp] theorem State.me_onDie (s : State) (d : Nat) (f : Die → Die) : (s.onDie d f).me = s.me := rfl
@[simp] theorem State.myTile_sched (s : State) (cc slot : Nat) (e : Event) : (s.sched cc slot e).myTile = s.myTile := rfl
@[simp] theorem State.myTile_soon (s : State) (b slot : Nat) (e : Event) : (s.soon b slot e).myTile = s.myTile := rfl
@[simp] theorem State.myTile_onMyTile (s : State) (f : Tile → Tile) : (s.onMyTile f).myTile = f s.myTile := by
  simp [State.myTile, State.onMyTile]

/-! ### Frames -/

theorem onlyStrandOf_onStrand (s : State) (n k : Nat) (f : Strand → Strand) : OnlyStrandOf s (s.onStrand n k f) n k := by
  refine ⟨rfl, fun m h => ?_, ?_, fun j h => ?_⟩
  · simp [State.tile_onStrand, h]
  · simp [State.tile_onStrand, Tile.setStrand]
  · simp [State.strand_onStrand, h]

theorem onlyMe_onMe (s : State) (f : Strand → Strand) : OnlyMe s (s.onMe f) := by
  refine ⟨rfl, fun m h => ?_, ?_, fun j h => ?_⟩
  · simp [State.onMe, State.tile_onStrand, h]
  · simp [State.onMe, State.myTile, State.tile_onStrand, Tile.setStrand]
  · simp [State.onMe, State.strand_onStrand, h]

theorem onlyMe_refl (s : State) : OnlyMe s s := ⟨rfl, fun _ _ => rfl, rfl, fun _ _ => rfl⟩

theorem onlyMe_sched {s t : State} (h : OnlyMe s t) (cc slot : Nat) (e : Event) : OnlyMe s (t.sched cc slot e) := h

theorem onlyMe_of_sched {s t : State} {cc slot : Nat} {e : Event} (h : OnlyMe (s.sched cc slot e) t) : OnlyMe s t :=
  ⟨(congrArg (fun u : State => { u with agenda := s.agenda }) h.1 : _), h.2.1, h.2.2.1, h.2.2.2⟩

/-- A destination that the scoreboard watches for a write is no constant register. -/
theorem destOf_constant {w : Write} {d : Dest} (h : destOf w = some d) : d.constant = false := by
  cases w <;> simp only [destOf] at h <;> (try split at h) <;> simp_all <;> subst h <;> simp_all [Dest.constant]

/-- What a pending write leaves: the state of `Posts` (R31). -/
theorem posts_write (s : State) (b : Nat) (w : Write) : Posts s (s.write b w) b w := by
  unfold Posts Quiet watchOf State.write State.watch
  cases hd : destOf w with
  | none => exact ⟨⟨onlyMe_refl s, rfl⟩, rfl, rfl⟩
  | some d =>
    simp only [destOf_constant hd, Bool.false_eq_true, if_false]
    refine ⟨⟨onlyMe_of_sched (onlyMe_onMe _ _), ?_⟩, rfl, ?_⟩ <;> simp only [State.me_onMe] <;> rfl

end Machine
end Sys2Proof
end

