-- ==== Sys2Proof/Laws/Memory.lean ====
section
/-! SUPPORT. Byte memories: what a write leaves to read, what a range reads as, the canonical form; little-endian bytes. -/
namespace Sys2Proof
open Machine

theorem cellsOf_read (a : Nat) (bs : List Byte) (x : Nat) : (cellsOf a bs).read x = if h : a ≤ x ∧ x < a + bs.length then bs[x-a]'(by omega) else 0 := by
  induction bs generalizing a with
  | nil => simp [cellsOf, Memory.read]
  | cons b bs ih =>
    simp only [cellsOf]
    split
    · next h => subst h; rw [ih]; grind
    · simp only [Memory.read]; rw [ih]; grind


theorem Memory.read_append (l m : Memory) (x : Nat) : (l ++ m).read x = if (l.any fun c => c.1 == x) then l.read x else m.read x := by
  induction l with
  | nil => rfl
  | cons c l ih => simp only [List.cons_append, Memory.read, ih, List.any_cons]; grind


theorem cellsOf_any (a : Nat) (bs : List Byte) (x : Nat) : (cellsOf a bs).any (fun c => c.1 == x) = true ↔ ∃ h : a ≤ x ∧ x < a + bs.length, bs[x-a]'(by omega) ≠ 0 := by
  induction bs generalizing a with
  | nil => simp [cellsOf]; 
  | cons b bs ih =>
    simp only [cellsOf]
    split
    · next h => subst h; rw [ih]; grind
    · simp only [List.any_cons, Bool.or_eq_true, beq_iff_eq]; rw [ih]; grind


theorem Memory.above_read (m : Memory) (lo x : Nat) (h : Memory.above (some lo) m = true) (hx : x ≤ lo) : m.read x = 0 := by
  induction m generalizing lo with
  | nil => rfl
  | cons c m ih => obtain ⟨j, b⟩ := c; simp only [Memory.above, Bool.and_eq_true, decide_eq_true_eq] at h
                   simp only [Memory.read]; rw [if_neg (by omega)]; exact ih j h.2 (by omega)


theorem Memory.wf_of_above (m : Memory) (lo : Option Nat) (h : Memory.above lo m = true) : m.wf = true := by
  cases m with
  | nil => rfl
  | cons c m => obtain ⟨j, b⟩ := c; simp only [Memory.wf, Memory.above, Bool.and_eq_true] at h ⊢; exact ⟨⟨trivial, h.1.2⟩, h.2⟩


theorem Memory.rest_read (m : Memory) (a x : Nat) (h : m.wf = true) : (m.rest a).read x = if a ≤ x then m.read x else 0 := by
  induction m with
  | nil => simp [Memory.rest, Memory.read]
  | cons c m ih =>
    obtain ⟨j, b⟩ := c; simp only [Memory.wf, Memory.above, Bool.and_eq_true] at h
    have := ih (Memory.wf_of_above _ _ h.2)
    simp only [Memory.rest]; split
    · rw [this]; simp only [Memory.read]; grind
    · split
      · rfl
      · simp only [Memory.read]; rw [if_neg (by omega)]; exact Memory.above_read _ j x h.2 (by omega)


theorem Memory.writes_read (m : Memory) (a : Nat) (bs : List Byte) (x : Nat) (h : m.wf = true) :
    (m.writes a bs).read x = if h : a ≤ x ∧ x < a + bs.length then bs[x-a]'(by omega) else m.read x := by
  induction m with
  | nil => simp only [Memory.writes, cellsOf_read, Memory.read]
  | cons c m ih =>
    obtain ⟨j, b⟩ := c
    have hw := h
    simp only [Memory.wf, Memory.above, Bool.and_eq_true] at h
    simp only [Memory.writes]
    split
    · simp only [Memory.read]; rw [ih (Memory.wf_of_above _ _ h.2)]; grind
    · rw [Memory.read_append, cellsOf_read, Memory.rest_read _ _ _ hw]
      have hlow : x < a → Memory.read ((j, b) :: m) x = 0 := fun hx => by
        simp only [Memory.read]; rw [if_neg (by omega)]; exact Memory.above_read _ j x h.2 (by omega)
      have := cellsOf_any a bs x
      by_cases hc : (cellsOf a bs).any (fun c => c.1 == x) = true
      · rw [if_pos hc]; obtain ⟨h1, h2⟩ := this.1 hc; simp [h1]
      · rw [if_neg hc]
        by_cases hr : a ≤ x ∧ x < a + bs.length
        · rw [dif_pos hr, if_neg (by omega)]; by_contra h0; exact hc (this.2 ⟨hr, fun e => h0 e.symm⟩)
        · rw [dif_neg hr]; split
          · rfl
          · exact (hlow (by omega)).symm

theorem leNat_lt (bs : List Byte) : leNat bs < 2 ^ (8 * bs.length) := by
  induction bs with
  | nil => simp [leNat]
  | cons b bs ih => have := b.isLt; simp only [leNat, List.length_cons]; rw [show 8 * (bs.length+1) = 8 + 8 * bs.length by ring, pow_add]; omega


theorem leBytes_eq (n : Nat) (x : Nat) : leBytes n x = (List.range n).map fun j => BitVec.ofNat 8 (x / 256 ^ j) := by
  induction n generalizing x with
  | zero => rfl
  | succ n ih => 
    rw [leBytes, ih, List.range_succ_eq_map]; simp [Nat.div_div_eq_div_mul, pow_succ']


theorem Memory.reads_length (m : Memory) (a n : Nat) : (m.reads a n).length = n := by
  induction m generalizing a n with
  | nil => simp [Memory.reads]
  | cons c m ih => obtain ⟨j, b⟩ := c; simp only [Memory.reads]; split
                   · exact ih _ _
                   · split
                     · simp
                     · simp [ih]; omega


theorem Machine.Tile.readBytes_length (x : Tile) (a n : Nat) : (x.readBytes a n).length = n := by
  unfold Tile.readBytes; split
  · exact Memory.reads_length _ _ _
  · simp


theorem Memory.reads_get (m : Memory) (a n : Nat) (h : m.wf = true) (j : Nat) (hj : j < n) : (m.reads a n)[j]? = some (m.read (a + j)) := by
  induction m generalizing a n j with
  | nil => simp [Memory.reads, Memory.read, hj]
  | cons c m ih =>
    obtain ⟨k, b⟩ := c
    have hw := h
    simp only [Memory.wf, Memory.above, Bool.and_eq_true] at h
    have hr := fun x hx => Memory.above_read _ k x h.2 hx
    have ih := fun a n j hj => ih a n (Memory.wf_of_above _ _ h.2) j hj
    simp only [Memory.reads]
    split
    · rw [ih _ _ _ hj]; simp only [Memory.read]; rw [if_neg (by omega)]
    · split
      · simp only [Memory.read]; rw [if_neg (by omega), hr _ (by omega)]; simp [hj]
      · rw [List.getElem?_append]; simp only [List.length_replicate, Memory.read]
        split
        · next hlt => rw [if_neg (by omega), hr _ (by omega), List.getElem?_replicate, if_pos hlt]
        · split
          · rw [show j - (k - a) = 0 by omega]; simp
          · rw [show j - (k-a) = (j - (k-a) - 1) + 1 by omega, List.getElem?_cons_succ, ih _ _ _ (by omega)]; congr 2; omega

theorem leNat_leBytes (n x : Nat) : leNat (leBytes n x) = x % 256 ^ n := by
  induction n generalizing x with
  | zero => simp [leBytes, leNat, Nat.mod_one]
  | succ n ih => rw [leBytes, leNat, ih, BitVec.toNat_ofNat, show (2:Nat)^8 = 256 by norm_num, pow_succ' 256 n, Nat.mod_mul]


theorem leBytes_length (n x : Nat) : (leBytes n x).length = n := by rw [leBytes_eq]; simp

/-! ### The canonical form -/

theorem Memory.above_iff (m : Memory) (lo : Option Nat) : Memory.above lo m = true ↔
    (∀ l, lo = some l → ∀ c ∈ m, l < c.1) ∧ m.Pairwise (fun c d => c.1 < d.1) ∧ ∀ c ∈ m, c.2 ≠ 0 := by
  induction m generalizing lo with
  | nil => simp [Memory.above]
  | cons c m ih =>
    obtain ⟨j, x⟩ := c
    simp only [Memory.above, Bool.and_eq_true, ih, List.pairwise_cons, List.mem_cons, forall_eq_or_imp, bne_iff_ne]
    constructor
    · rintro ⟨⟨h1, h2⟩, h3, h4, h5⟩
      have h3 := h3 j rfl
      refine ⟨fun l e => ?_, ⟨h3, h4⟩, h2, h5⟩
      subst e; simp only [decide_eq_true_eq] at h1
      exact ⟨h1, fun d hd => lt_trans h1 (h3 d hd)⟩
    · rintro ⟨h1, ⟨h3, h4⟩, h2, h5⟩
      refine ⟨⟨?_, h2⟩, fun l e => ?_, h4, h5⟩
      · cases lo with
        | none => rfl
        | some l => simpa using (h1 l rfl).1
      · cases e; exact h3

theorem Memory.wf_iff (m : Memory) : m.wf = true ↔ m.Pairwise (fun c d => c.1 < d.1) ∧ ∀ c ∈ m, c.2 ≠ 0 := by
  rw [Memory.wf, Memory.above_iff]; simp

theorem Memory.wf_filter (m : Memory) (f : Host.Cell → Bool) (h : m.wf = true) : Memory.wf (m.filter f) = true := by
  rw [Memory.wf_iff] at h ⊢
  exact ⟨h.1.filter _, fun c hc => h.2 c (List.mem_filter.1 hc).1⟩

theorem Memory.wf_append (l m : Memory) (hl : l.wf = true) (hm : m.wf = true) (h : ∀ c ∈ l, ∀ d ∈ m, c.1 < d.1) :
    Memory.wf (l ++ m) = true := by
  rw [Memory.wf_iff] at hl hm ⊢
  refine ⟨List.pairwise_append.2 ⟨hl.1, hm.1, h⟩, fun c hc => ?_⟩
  rcases List.mem_append.1 hc with hc | hc
  · exact hl.2 c hc
  · exact hm.2 c hc

theorem cellsOf_mem (a : Nat) (bs : List Byte) (c : Host.Cell) (h : c ∈ cellsOf a bs) :
    a ≤ c.1 ∧ c.1 < a + bs.length ∧ c.2 ≠ 0 := by
  induction bs generalizing a with
  | nil => simp [cellsOf] at h
  | cons b bs ih =>
    simp only [cellsOf] at h
    split at h
    · obtain ⟨h1, h2, h3⟩ := ih _ h; exact ⟨by omega, by simp only [List.length_cons]; omega, h3⟩
    · next hb =>
      rcases List.mem_cons.1 h with rfl | h
      · exact ⟨le_refl _, by simp, hb⟩
      · obtain ⟨h1, h2, h3⟩ := ih _ h; exact ⟨by omega, by simp only [List.length_cons]; omega, h3⟩

theorem cellsOf_wf (a : Nat) (bs : List Byte) : Memory.wf (cellsOf a bs) = true := by
  rw [Memory.wf_iff]
  refine ⟨?_, fun c hc => (cellsOf_mem a bs c hc).2.2⟩
  induction bs generalizing a with
  | nil => exact List.Pairwise.nil
  | cons b bs ih =>
    simp only [cellsOf]
    split
    · exact ih _
    · exact List.pairwise_cons.2 ⟨fun c hc => by have := cellsOf_mem _ _ _ hc; dsimp only; omega, ih _⟩

theorem Memory.rest_sub (m : Memory) (a : Nat) (h : m.wf = true) : m.rest a = m.filter fun c => a ≤ c.1 := by
  rw [Memory.wf_iff] at h
  obtain ⟨h, -⟩ := h
  induction m with
  | nil => rfl
  | cons c m ih =>
    obtain ⟨j, x⟩ := c
    rw [List.pairwise_cons] at h
    simp only [Memory.rest, List.filter_cons]
    split
    · rw [ih h.2, if_neg (by simpa using by omega)]
    · rw [if_pos (by simpa using by omega)]
      rw [List.filter_eq_self.2 fun c hc => ?_]
      have := h.1 c hc; simp; omega

theorem Memory.wf_tail {c : Host.Cell} {m : Memory} (h : Memory.wf (c :: m) = true) : m.wf = true := by
  rw [Memory.wf_iff] at h ⊢; exact ⟨(List.pairwise_cons.1 h.1).2, fun d hd => h.2 d (List.mem_cons_of_mem _ hd)⟩

theorem Memory.writes_mem (m : Memory) (a : Nat) (bs : List Byte) (h : m.wf = true) (c : Host.Cell)
    (hc : c ∈ m.writes a bs) : c ∈ m ∨ a ≤ c.1 := by
  induction m with
  | nil => exact .inr (cellsOf_mem _ _ _ hc).1
  | cons d m ih =>
    obtain ⟨j, x⟩ := d
    simp only [Memory.writes] at hc
    split at hc
    · rcases List.mem_cons.1 hc with rfl | hc
      · exact .inl (by simp)
      · rcases ih (Memory.wf_tail h) hc with hc | hc
        · exact .inl (by simp [hc])
        · exact .inr hc
    · rcases List.mem_append.1 hc with hc | hc
      · exact .inr (cellsOf_mem _ _ _ hc).1
      · rw [Memory.rest_sub _ _ h] at hc; exact .inl (List.mem_filter.1 hc).1

theorem Memory.writes_wf (m : Memory) (a : Nat) (bs : List Byte) (h : m.wf = true) : (m.writes a bs).wf = true := by
  induction m with
  | nil => exact cellsOf_wf a bs
  | cons d m ih =>
    obtain ⟨j, x⟩ := d
    have hw := Memory.wf_tail h
    simp only [Memory.writes]
    split
    · next hj =>
      have := ih hw
      rw [Memory.wf_iff] at h this ⊢
      refine ⟨List.pairwise_cons.2 ⟨fun c hc => ?_, this.1⟩, fun c hc => ?_⟩
      · rcases Memory.writes_mem m a bs hw c hc with hc | hc
        · exact (List.pairwise_cons.1 h.1).1 c hc
        · dsimp only; omega
      · rcases List.mem_cons.1 hc with rfl | hc
        · exact h.2 _ (by simp)
        · exact this.2 c hc
    · rw [Memory.rest_sub _ _ h]
      refine Memory.wf_append _ _ (cellsOf_wf _ _) (Memory.wf_filter _ _ h) fun c hc d hd => ?_
      have := cellsOf_mem _ _ _ hc
      have := (List.mem_filter.1 hd).2
      simp only [decide_eq_true_eq] at this; omega

theorem Memory.write_mem (m : Memory) (a : Nat) (b : Byte) (c : Host.Cell) (hc : c ∈ m.write a b) :
    c ∈ m ∨ (c.1 = a ∧ b ≠ 0 ∧ c.2 = b) := by
  induction m with
  | nil => simp only [Memory.write] at hc; split at hc <;> simp_all
  | cons d m ih =>
    obtain ⟨j, x⟩ := d
    simp only [Memory.write] at hc
    split at hc
    · split at hc
      · exact .inl hc
      · rcases List.mem_cons.1 hc with rfl | hc
        · exact .inr ⟨rfl, by assumption, rfl⟩
        · exact .inl hc
    · split at hc
      · split at hc
        · exact .inl (List.mem_cons_of_mem _ hc)
        · rcases List.mem_cons.1 hc with rfl | hc
          · exact .inr ⟨rfl, by assumption, rfl⟩
          · exact .inl (List.mem_cons_of_mem _ hc)
      · rcases List.mem_cons.1 hc with rfl | hc
        · exact .inl (by simp)
        · rcases ih hc with hc | hc
          · exact .inl (List.mem_cons_of_mem _ hc)
          · exact .inr hc

theorem Memory.write_wf (m : Memory) (a : Nat) (b : Byte) (h : m.wf = true) : (m.write a b).wf = true := by
  induction m with
  | nil => simp only [Memory.write]; split <;> simp_all [Memory.wf, Memory.above]
  | cons d m ih =>
    obtain ⟨j, x⟩ := d
    have hw := Memory.wf_tail h
    have h' := (Memory.wf_iff _).1 h
    rw [List.pairwise_cons] at h'
    simp only [Memory.write]
    split
    · split
      · exact h
      · next hlt hb =>
        rw [Memory.wf_iff]
        refine ⟨List.pairwise_cons.2 ⟨fun c hc => ?_, ((Memory.wf_iff _).1 h).1⟩, fun c hc => ?_⟩
        · rcases List.mem_cons.1 hc with rfl | hc
          · exact hlt
          · exact lt_trans hlt (h'.1.1 c hc)
        · rcases List.mem_cons.1 hc with rfl | hc
          · exact hb
          · exact h'.2 c hc
    · split
      · next he =>
        subst he
        split
        · exact hw
        · next hb =>
          rw [Memory.wf_iff]
          refine ⟨List.pairwise_cons.2 ⟨fun c hc => h'.1.1 c hc, h'.1.2⟩, fun c hc => ?_⟩
          rcases List.mem_cons.1 hc with rfl | hc
          · exact hb
          · exact h'.2 c (List.mem_cons_of_mem _ hc)
      · have := (Memory.wf_iff _).1 (ih hw)
        rw [Memory.wf_iff]
        refine ⟨List.pairwise_cons.2 ⟨fun c hc => ?_, this.1⟩, fun c hc => ?_⟩
        · rcases Memory.write_mem _ _ _ _ hc with hc | hc
          · exact h'.1.1 c hc
          · dsimp only; omega
        · rcases List.mem_cons.1 hc with rfl | hc
          · exact h'.2 _ (by simp)
          · exact this.2 c hc

theorem Memory.write_read (m : Memory) (a : Nat) (b : Byte) (x : Nat) (h : m.wf = true) :
    (m.write a b).read x = if x = a then b else m.read x := by
  induction m with
  | nil => simp only [Memory.write]; split <;> simp_all [Memory.read]; split <;> simp_all
           grind
  | cons d m ih =>
    obtain ⟨j, y⟩ := d
    have hw := Memory.wf_tail h
    have ha := (Memory.above_iff m (some j)).2
    have h' := (Memory.wf_iff _).1 h
    rw [List.pairwise_cons] at h'
    have hz := fun x hx => Memory.above_read m j x (ha ⟨fun l e c hc => by cases e; exact h'.1.1 c hc, h'.1.2, fun c hc => h'.2 c (List.mem_cons_of_mem _ hc)⟩) hx
    simp only [Memory.write]
    split
    · split
      · next hlt hb =>
        subst hb; split
        · next e => subst e; simp only [Memory.read]; rw [if_neg (by omega)]; exact hz _ (by omega)
        · rfl
      · simp only [Memory.read]; grind
    · split
      · next he =>
        subst he; split
        · next hb =>
          subst hb; split
          · next e => subst e; exact hz _ (by omega)
          · simp only [Memory.read]; rw [if_neg (by omega)]
        · simp only [Memory.read]; grind
      · simp only [Memory.read, ih hw]; grind

theorem Memory.writeNib_wf (m : Memory) (a : Nat) (hi : Bool) (x : BitVec 4) (h : m.wf = true) :
    (m.writeNib a hi x).wf = true := Memory.write_wf _ _ _ h

theorem Memory.clear_wf (m : Memory) (lo hi : Nat) (h : m.wf = true) : (m.clear lo hi).wf = true := Memory.wf_filter _ _ h

theorem Memory.part_wf (m : Memory) (lo hi a : Nat) (h : m.wf = true) : (m.part lo hi a).wf = true := by
  have := (Memory.wf_iff _).1 (Memory.wf_filter m (fun c => lo ≤ c.1 && c.1 < hi) h)
  have hm : ∀ c ∈ m.filter fun c => lo ≤ c.1 && c.1 < hi, lo ≤ c.1 := fun c hc => by
    have := (List.mem_filter.1 hc).2; simp at this; exact this.1
  rw [Memory.wf_iff]
  refine ⟨?_, fun c hc => ?_⟩
  · unfold Memory.part
    rw [List.pairwise_map]
    exact this.1.imp_of_mem fun hc hd e => by have := hm _ hc; have := hm _ hd; dsimp only; omega
  · obtain ⟨d, hd, rfl⟩ := List.mem_map.1 hc
    exact this.2 d hd

theorem Memory.part_mem (m : Memory) (lo hi a : Nat) (c : Host.Cell) (hc : c ∈ m.part lo hi a) : a ≤ c.1 ∧ c.1 < a + (hi - lo) := by
  obtain ⟨d, hd, rfl⟩ := List.mem_map.1 hc
  have := (List.mem_filter.1 hd).2
  simp only [Bool.and_eq_true, decide_eq_true_eq] at this; dsimp only; omega

theorem Memory.splice_wf (m : Memory) (lo hi : Nat) (new : Memory) (h : m.wf = true) (hn : new.wf = true) (hl : lo ≤ hi)
    (hr : ∀ c ∈ new, lo ≤ c.1 ∧ c.1 < hi) : (m.splice lo hi new).wf = true := by
  unfold Memory.splice
  refine Memory.wf_append _ _ (Memory.wf_append _ _ (Memory.wf_filter _ _ h) hn fun c hc d hd => ?_) (Memory.wf_filter _ _ h) fun c hc d hd => ?_
  · have := (List.mem_filter.1 hc).2; have := hr d hd; simp at *; omega
  · have h2 := (List.mem_filter.1 hd).2
    simp only [decide_eq_true_eq] at h2
    rcases List.mem_append.1 hc with hc | hc
    · have := (List.mem_filter.1 hc).2; simp at this; omega
    · have := hr c hc; omega
end Sys2Proof
end

