-- ==== Sys2Proof/Laws/Ops.lean ====
section
/-! SUPPORT. What each shared operation does: checks, pending faults, owned bytes, the fabric queue, commands. -/
namespace Sys2Proof.Machine

theorem guarded_ok {pre : State → Check} {eff : State → State} {s : State} (h : pre s = .ok) : guarded pre eff s = .next (eff s) := by
  unfold guarded; simp [h]

theorem guarded_trap {pre : State → Check} {eff : State → State} {s : State} {c a i} (hc : s.bun.checked = false) (h : pre s = .trap c a i) : guarded pre eff s = .next (s.trapHere c a i) := by
  unfold guarded; simp [h, hc]

theorem guarded_block {pre : State → Check} {eff : State → State} {s : State} {w} (hc : s.bun.checked = false) (h : pre s = .block w) : guarded pre eff s = .next (s.blockOn w) := by
  unfold guarded; simp [h, hc]

/-- the byte lookup of own writes in a list -/
def ow (store : Bool) (a : Nat) (l : List Owned) : Option Byte :=
  (l.find? fun o => o.store == store && o.word == a / 4 && o.mask.getLsbD (a % 4)).map fun o => o.data.extractLsb' (8 * (a % 4)) 8

theorem mask_set (m : BitVec 4) (i j : Nat) (_hi : i < 4) (hj : j < 4) : (m ||| BitVec.ofNat 4 (2^i)).getLsbD j = (m.getLsbD j || decide (i = j)) := by
  rw [BitVec.getLsbD_or, BitVec.getLsbD_ofNat, Nat.testBit_two_pow]; simp [hj]

theorem one_mask (i j : Nat) (_hi : i < 4) (hj : j < 4) : (BitVec.ofNat 4 (2^i)).getLsbD j = decide (i = j) := by
  rw [BitVec.getLsbD_ofNat, Nat.testBit_two_pow]; simp [hj]

theorem data_set (d : BitVec 32) (b : Byte) (i j : Nat) (hi : i < 4) (hj : j < 4) :
   ((d &&& ~~~((0xFF#32) <<< (8 * i))) ||| (b.setWidth 32 <<< (8 * i))).extractLsb' (8*j) 8 = if i = j then b else d.extractLsb' (8*j) 8 := by
  have hff : ∀ k, (255#32).getLsbD k = decide (k < 8) := by
    intro k
    by_cases h : k < 32
    · have : ∀ k : Fin 32, (255#32).getLsbD k = decide (k.val < 8) := by decide
      exact this ⟨k, h⟩
    · rw [BitVec.getLsbD_of_ge _ _ (by omega)]; simp; omega
  apply BitVec.eq_of_getLsbD_eq
  intro k hk
  split
  · next h => subst h
              simp only [BitVec.getLsbD_extractLsb', BitVec.getLsbD_or, BitVec.getLsbD_and, BitVec.getLsbD_not, BitVec.getLsbD_shiftLeft, BitVec.getLsbD_setWidth, hff]
              simp [hk, show 8*i+k < 32 by omega]; omega
  · simp only [BitVec.getLsbD_extractLsb', BitVec.getLsbD_or, BitVec.getLsbD_and, BitVec.getLsbD_not, BitVec.getLsbD_shiftLeft, BitVec.getLsbD_setWidth, hff]
    simp [hk, show 8*j+k < 32 by omega]
    by_cases hlt : 8*j+k < 8*i
    · simp [hlt]
    · simp only [hlt, decide_false, Bool.not_false, Bool.true_and, Bool.false_or]
      rw [BitVec.getLsbD_of_ge b _ (by omega)]; simp; omega

theorem data_one (b : Byte) (i : Nat) (hi : i < 4) : (b.setWidth 32 <<< (8 * i) : BitVec 32).extractLsb' (8*i) 8 = b := by
  have := data_set 0 b i i hi hi; simpa using this

theorem ow_ownByte (st : Bool) (word d off i : Nat) (b : Byte) (hi : i < 4) (l : List Owned) (sp : Bool) (a : Nat) :
   ow sp a (ownByte st word d off i b l) = if sp = st ∧ a / 4 = word ∧ a % 4 = i then some b else ow sp a l := by
  have ha : a % 4 < 4 := Nat.mod_lt _ (by decide)
  induction l with
  | nil =>
    simp only [ownByte, ow, List.find?_cons, List.find?_nil, one_mask i _ hi ha]
    by_cases h : sp = st ∧ a / 4 = word ∧ a % 4 = i
    · obtain ⟨rfl, rfl, rfl⟩ := h; simp [data_one b _ ha]
    · have : (st == sp && word == a / 4 && decide (i = a % 4)) = false := by
        by_contra hc; simp only [Bool.not_eq_false, Bool.and_eq_true, beq_iff_eq, decide_eq_true_eq] at hc; exact h ⟨hc.1.1.symm, hc.1.2.symm, hc.2.symm⟩
      simp [this, h]
  | cons o l ih =>
    simp only [ownByte]
    split
    · next hm =>
      simp only [Bool.and_eq_true, beq_iff_eq] at hm
      simp only [ow, List.find?_cons, mask_set _ _ _ hi ha]
      by_cases hs : sp = st ∧ a / 4 = word
      · obtain ⟨rfl, rfl⟩ := hs
        by_cases h : a % 4 = i
        · subst h; simp [hm.1, hm.2, data_set _ b _ _ ha ha]
        · have h' : ¬ i = a % 4 := fun e => h e.symm
          simp only [hm.1, hm.2, beq_self_eq_true, Bool.true_and, h', decide_false, Bool.or_false, h, and_false, if_false]
          cases o.mask.getLsbD (a % 4) <;> simp [data_set _ b _ _ hi ha, h']
      · have h2 : (o.store == sp && o.word == a / 4) = false := by
          by_contra hc; simp at hc; exact hs ⟨hc.1.symm.trans hm.1, hc.2.symm.trans hm.2⟩
        have h3 : ¬ (sp = st ∧ a / 4 = word ∧ a % 4 = i) := fun e => hs ⟨e.1, e.2.1⟩
        simp [h2, h3]
    · next hm =>
      unfold ow at ih ⊢
      simp only [List.find?_cons]
      by_cases hf : (o.store == sp && o.word == a / 4 && o.mask.getLsbD (a % 4)) = true
      · rw [hf]
        have : ¬ (sp = st ∧ a / 4 = word ∧ a % 4 = i) := by
          rintro ⟨rfl, rfl, -⟩; simp only [Bool.and_eq_true] at hf; exact hm (by simp only [Bool.and_eq_true]; exact hf.1)
        simp [this]
      · rw [Bool.not_eq_true] at hf; rw [hf]; exact ih

theorem ow_append (sp : Bool) (a : Nat) (l m : List Owned) : ow sp a (l ++ m) = (ow sp a l).or (ow sp a m) := by
  simp only [ow, List.find?_append]; cases List.find? _ l <;> simp

theorem ow_fold (st : Bool) (a d off : Nat) (bs : List Byte) (k : Nat) (l : List Owned) (sp : Bool) (x : Nat) :
   ow sp x ((bs.zipIdx k).foldl (fun l b => ownByte st ((a + b.2) / 4) d ((off + b.2) / 4 * 4) ((a + b.2) % 4) b.1 l) l) =
   if h : sp = st ∧ a + k ≤ x ∧ x < a + k + bs.length then some (bs[x - (a + k)]'(by omega)) else ow sp x l := by
  induction bs generalizing k l with
  | nil => simp; 
  | cons b bs ih =>
    simp only [List.zipIdx_cons, List.foldl_cons]
    rw [ih, ow_ownByte _ _ _ _ _ _ (Nat.mod_lt _ (by decide))]
    by_cases h : sp = st ∧ x = a + k
    · obtain ⟨rfl, rfl⟩ := h
      rw [dif_neg (by omega), if_pos ⟨rfl, rfl, rfl⟩, dif_pos (by simp)]; simp
    · have : ¬ (sp = st ∧ x / 4 = (a + k) / 4 ∧ x % 4 = (a + k) % 4) := by rintro ⟨e, e1, e2⟩; exact h ⟨e, by omega⟩
      rw [if_neg this]
      by_cases h2 : sp = st ∧ a + (k+1) ≤ x ∧ x < a + (k+1) + bs.length
      · rw [dif_pos h2, dif_pos (by simp only [List.length_cons]; exact ⟨h2.1, by omega, by omega⟩)]
        have e : x - (a + k) = (x - (a + (k+1))) + 1 := by omega
        simp only [e, List.getElem_cons_succ]
      · rw [dif_neg h2, dif_neg (by simp only [List.length_cons]; intro hh; apply h2; have : x ≠ a + k := fun e => h ⟨hh.1, e⟩
                                    refine ⟨hh.1, by omega, by omega⟩)]

theorem ownWrite_own (x : Strand) (st : Bool) (a d off : Nat) (bs : List Byte) (sp : Bool) (j : Nat) :
   (x.own st a d off bs).ownWrite sp j = if h : sp = st ∧ a ≤ j ∧ j < a + bs.length then some (bs[j - a]'(by omega)) else x.ownWrite sp j := by
  have e : ∀ y : Strand, y.ownWrite sp j = ow sp j (y.owned ++ (y.rels.reverse.filter fun r => !r.written).flatMap (·.words)) := fun y => rfl
  rw [e, e, ow_append, ow_append]
  have := ow_fold st a d off bs 0 x.owned sp j
  simp only [Nat.add_zero] at this
  have e2 : (x.own st a d off bs).owned = bs.zipIdx.foldl (fun l b => ownByte st ((a + b.2) / 4) d ((off + b.2) / 4 * 4) ((a + b.2) % 4) b.1 l) x.owned := rfl
  rw [e2, this]
  split <;> simp <;> rfl

theorem sameBytes_onMe (s : State) (f : Strand → Strand) : SameBytes s (s.onMe f) := by
  refine ⟨fun n a => ?_, fun c a => rfl, fun d a => rfl⟩
  rw [State.onMe, State.tile_onStrand]; split
  · next h => subst h; rfl
  · rfl

theorem owns_own (s : State) (st : Bool) (a d off n : Nat) (x : DWord) :
    Owns s (s.onMe fun y => y.own st a d off (leBytes n x.toNat)) st a n x := by
  refine ⟨onlyMe_onMe .., rfl, ?_, fun sp j => ?_⟩
  · rw [State.me_onMe]; rfl
  · rw [State.me_onMe, ownWrite_own, leBytes_eq]
    simp [specByte]

theorem memRead_length (s : State) (d off n : Nat) : (s.memRead d off n).length = n := by
  unfold State.memRead; split
  · exact Memory.reads_length ..
  · simp

theorem seenStore_length (s : State) (x : Strand) (c a n : Nat) : (s.seenStore x c a n).length = n := by
  simp [State.seenStore, Memory.reads_length]

theorem insertKey_mem (k : Nat) (e : Event) (l : List (Nat × Event)) : (k, e) ∈ insertKey k e l := by
  induction l with
  | nil => simp [insertKey]
  | cons c l ih => obtain ⟨j, x⟩ := c; simp only [insertKey]; split <;> simp [ih]

theorem touch_hit {s : State} {c : Nat} {va : DWord} {e : TlbEntry} (h : s.xlate c va = .hit e false) (hm : e.mode ≠ 3) : s.touch c va = s := by
  unfold State.xlate at h; unfold State.touch
  split at h
  · exact absurd h (by simp)
  · next hlt =>
    rw [if_neg hlt]
    dsimp only at h ⊢
    split at h
    · next e' he => injection h with h1; subst h1; rw [if_pos hm]
    · split at h
      · split at h <;> simp at h
      · split at h
        · simp at h
        · split at h <;> simp at h

theorem dueCc_le (s : State) (b : Nat) : s.dueCc b ≤ s.cc + b := by unfold State.dueCc; omega

theorem dueCc_gt (s : State) (b : Nat) (h : 0 < b) : s.cc < s.dueCc b := by unfold State.dueCc; omega

theorem keyOf_mono {a b : Nat} (h : a ≤ b) (k : Nat) : keyOf a k ≤ keyOf b k := by unfold keyOf; omega

theorem each_keeps {α : Type} (P : State → State → Prop) (h0 : ∀ s, P s s) (ht : ∀ a b c, P a b → P b c → P a c) (l : List α) (f : State → α → State) (hf : ∀ s x, P s (f s x)) (s : State) : P s (s.each l f) := by
  unfold State.each
  induction l generalizing s with
  | nil => exact h0 s
  | cons x l ih => exact ht _ _ _ (hf s x) (ih _)

/-- Only the agenda differs. -/
def OnlyAgenda (s t : State) : Prop := ∃ l, t = { s with agenda := l }

theorem OnlyAgenda.trans {a b c : State} (h : OnlyAgenda a b) (g : OnlyAgenda b c) : OnlyAgenda a c := by
  obtain ⟨l, rfl⟩ := h; obtain ⟨m, rfl⟩ := g; exact ⟨m, rfl⟩

theorem departWhere_only (s : State) (d : Nat) (f : Rick → Bool) : OnlyAgenda s (s.departWhere d f) := by
  unfold State.departWhere
  exact each_keeps OnlyAgenda (fun s => ⟨s.agenda, rfl⟩) (fun a b c => OnlyAgenda.trans) _ (fun u (r : Rick) => u.sched u.cc slotFlush (.rickAgeDeparture d r.id)) (fun u (r : Rick) => ⟨(u.sched u.cc slotFlush (.rickAgeDeparture d r.id)).agenda, rfl⟩) s

theorem onlyMe_onMe2 (s : State) (f g : Strand → Strand) : OnlyMe s ((s.onMe f).onMe g) := by
  obtain ⟨a1, a2, a3, a4⟩ := onlyMe_onMe s f
  obtain ⟨b1, b2, b3, b4⟩ := onlyMe_onMe (s.onMe f) g
  refine ⟨rfl, fun n h => (b2 n h).trans (a2 n h), ?_, fun k h => (b4 k h).trans (a4 k h)⟩
  have := congrArg (fun z : Tile => { z with strands := s.myTile.strands }) b3
  exact this.trans a3

theorem addFault_me (s : State) (b : Nat) (hb : 0 < b) (i : TrapInfo) :
  s.addFault s.bun.tile s.bun.strand (s.dueCc b) i = (s.onMe fun x => { x with faults := x.faults ++ [(s.dueCc b, i)] }).sched (s.dueCc b) 12 (.waitSatisfied s.bun.tile s.bun.strand) := by
  have hgt := dueCc_gt s b hb
  unfold State.addFault; dsimp only
  rw [← State.onMe_def, if_neg (by show ¬ (s.dueCc b ≤ s.cc); omega)]

theorem faultsLater_add (s : State) (b : Nat) (hb : 0 < b) (c e q isw addr) (i : TrapInfo) (h : i.cause = c ∧ i.engine = e ∧ i.seq = q ∧ i.isw = isw ∧ i.addr = addr ∧ i.pc = s.bun.first) :
   FaultsLater s (s.addFault s.bun.tile s.bun.strand (s.dueCc b) i) b c e q isw addr := by
  rw [addFault_me s b hb]
  refine ⟨onlyMe_sched (onlyMe_onMe s _) .., ?_, s.dueCc b, i, dueCc_gt s b hb, dueCc_le s b, ?_, h⟩ <;>
   rw [State.me_sched, State.me_onMe]

theorem faultsLater_watch (s : State) (d : Dest) (n b : Nat) (hb : 0 < b) (c e q isw addr) (i : TrapInfo) (h : i.cause = c ∧ i.engine = e ∧ i.seq = q ∧ i.isw = isw ∧ i.addr = addr ∧ i.pc = s.bun.first) :
   FaultsLater s ((s.watch d n).addFault s.bun.tile s.bun.strand (s.dueCc b) i) b c e q isw addr := by
  cases hd : d.constant with
  | true => rw [show s.watch d n = s by simp [State.watch, hd]]; exact faultsLater_add s b hb c e q isw addr i h
  | false =>
    rw [show s.watch d n = s.onMe fun x => { x with board := (d, n) :: x.board } by simp [State.watch, hd]]
    generalize hf : (fun x : Strand => { x with board := (d, n) :: x.board }) = f
    have := addFault_me (s.onMe f) b hb i
    rw [show (s.onMe f).dueCc b = s.dueCc b from rfl] at this
    rw [show s.bun.tile = (s.onMe f).bun.tile from rfl, show s.bun.strand = (s.onMe f).bun.strand from rfl, this]
    refine ⟨onlyMe_sched (onlyMe_onMe2 s _ _) .., ?_, s.dueCc b, i, dueCc_gt s b hb, dueCc_le s b, ?_, h⟩ <;>
      rw [State.me_sched, State.me_onMe, State.me_onMe, ← hf]

theorem seen_length (s : State) (x : Strand) (d off va n : Nat) : (s.seen x d off va n).length = n := by
  simp [State.seen, memRead_length]

theorem fold_fold (A : Nat → Nat) (D : Nat → Word) (l : List Nat) (x : Strand) : ∃ v, l.foldl (fun y i => y.fold (A i) (D i)) x = { x with digest := v } := by
  induction l generalizing x with
  | nil => exact ⟨x.digest, rfl⟩
  | cons i l ih =>
    rw [List.foldl_cons]
    obtain ⟨v, hv⟩ := ih (x.fold (A i) (D i))
    refine ⟨v, hv.trans ?_⟩
    unfold Strand.fold; split <;> rfl

theorem foldBytes_digest (x : Strand) (a : Nat) (bs : List Byte) : ∃ v, x.foldBytes a bs = { x with digest := v } := by
  unfold Strand.foldBytes
  split
  · exact ⟨x.digest, rfl⟩
  · exact fold_fold _ _ _ _

theorem sameBytes_trans {a b c : State} (h : SameBytes a b) (g : SameBytes b c) : SameBytes a c :=
  ⟨fun n x => (g.1 n x).trans (h.1 n x), fun n x => (g.2.1 n x).trans (h.2.1 n x), fun n x => (g.2.2 n x).trans (h.2.2 n x)⟩

theorem sameBytes_onTile (s : State) (n : Nat) (f : Tile → Tile) (h : ∀ x, (f x).scratch = x.scratch) : SameBytes s (s.onTile n f) := by
  refine ⟨fun m a => ?_, fun c a => rfl, fun d a => rfl⟩
  rw [State.tile_onTile]; split
  · next e => subst e; rw [h]
  · rfl

theorem sameBytes_sched {s t : State} (h : SameBytes s t) (cc slot : Nat) (e : Event) : SameBytes s (t.sched cc slot e) := h
theorem sameBytes_soon {s t : State} (h : SameBytes s t) (b slot : Nat) (e : Event) : SameBytes s (t.soon b slot e) := h
theorem sameBytes_refl (s : State) : SameBytes s s := ⟨fun _ _ => rfl, fun _ _ => rfl, fun _ _ => rfl⟩

theorem toStation_eq (s : State) (i : FabItem) : ∃ l, s.toStation i = ({ s with agenda := l } : State).onMyTile fun x => { x with fq := x.fq ++ [i] } := by
  unfold State.toStation; dsimp only
  split
  · exact ⟨(s.sched (max s.cc s.myTile.fqCc) (slotQueue s.bun.tile) (.fabricQueueArrival s.bun.tile)).agenda, rfl⟩
  · exact ⟨s.agenda, rfl⟩

/-! ### The executing tile and strand -/

theorem State.me_onMyTile (s : State) (f : Tile → Tile) (h : ∀ x : Tile, (f x).strands = x.strands) :
    (s.onMyTile f).me = s.me := by
  simp [State.onMyTile, State.me, Tile.strand, h, State.strand]

theorem State.myTile_onMe (s : State) (f : Strand → Strand) :
    (s.onMe f).myTile = s.myTile.setStrand s.bun.strand (f s.me) := by
  simp [State.onMe, State.myTile, State.tile_onStrand, State.me]

@[simp] theorem State.me_agenda (s : State) (l : List (Nat × Event)) : ({ s with agenda := l } : State).me = s.me := rfl
@[simp] theorem State.myTile_agenda (s : State) (l : List (Nat × Event)) :
    ({ s with agenda := l } : State).myTile = s.myTile := rfl

/-! ### Commands -/

@[simp] theorem State.command_fst (s : State) (e : Nat) (b : Bool) : (s.command e b).1 = s.origin (s.me.number e) := rfl
theorem State.command_snd (s : State) (e : Nat) (b : Bool) :
    (s.command e b).2 = s.onMe fun x => { x.issued e (s.me.number e) b with seqs := x.seqs.bump e } := rfl
@[simp] theorem State.command_me (s : State) (e : Nat) (b : Bool) :
    (s.command e b).2.me = { s.me.issued e (s.me.number e) b with seqs := s.me.seqs.bump e } := State.me_onMe ..

theorem State.me_toStation (s : State) (i : FabItem) : (s.toStation i).me = s.me := by
  obtain ⟨l, h⟩ := toStation_eq s i
  rw [h]; exact State.me_onMyTile ({ s with agenda := l }) _ fun _ => rfl

theorem State.myTile_toStation (s : State) (i : FabItem) :
    (s.toStation i).myTile = { s.myTile with fq := s.myTile.fq ++ [i] } := by
  obtain ⟨l, h⟩ := toStation_eq s i
  rw [h, State.myTile_onMyTile]; rfl

theorem sameBytes_toStation (s : State) (i : FabItem) : SameBytes s (s.toStation i) := by
  obtain ⟨l, h⟩ := toStation_eq s i
  rw [h]; exact sameBytes_onTile _ _ _ fun _ => rfl

end Sys2Proof.Machine
end

