-- ==== Sys2Proof/Tests/Slice0.lean ====
section
/-! SUPPORT. Small tests of the model: every row's word, written out from the fields of spec/opcode_table.json, decodes to
its instruction; each check of wellFormed refuses a term that it is for; for each statement with hypotheses, concrete states
and operands that meet them, at boundary values; and single steps whose results stand in the spec. -/
namespace Sys2Proof.Tests
open Sys2Proof Sys2Proof.Machine

-- One theorem at a time: checked side by side they ask for more threads than the limit on memory admits.
set_option Elab.async false

/-! ### Decoding: one word for each row with an encoding, with varied fields -/

theorem test_words_01 :
    decodeOne [0x00000000] = .ok (false, .nop, []) ∧
    decodeOne [0x00286910] = .ok (false, .add 8 13 8 4, []) ∧
    decodeOne [0x002D4626] = .ok (false, .addImm 13 8 550 [], []) ∧
    decodeOne [0x004FC1BC] = .ok (false, .sub 15 24 13 7, []) ∧
    decodeOne [0x80587E4B, 0xE800009A, 0x68000006] = .ok (false, .subImm 24 15 587 [154, 6], []) ∧
    decodeOne [0x00761A48] = .ok (false, .mul 22 3 18 2, []) ∧
    decodeOne [0x8063B670, 0x68000BBB] = .ok (false, .mulImm 3 22 624 [3003], []) ∧
    decodeOne [0x009D72F4] = .ok (false, .mulh 29 14 23 5, []) :=
  ⟨rfl, rfl, rfl, rfl, rfl, rfl, rfl, rfl⟩

theorem test_words_02 :
    decodeOne [0x008EEE95] = .ok (false, .mulhImm 14 29 661 [], []) ∧
    decodeOne [0x00A4CB80] = .ok (false, .mulhn 4 25 28 0, []) ∧
    decodeOne [0x80B926BA, 0xE8000181, 0x6800000F] = .ok (false, .mulhnImm 25 4 698 [385, 15], []) ∧
    decodeOne [0x00CB202C] = .ok (false, .div 11 4 1 3, []) ∧
    decodeOne [0x80C45EDF, 0x68001776] = .ok (false, .divImm 4 11 735 [6006], []) ∧
    decodeOne [0x00F278D8] = .ok (false, .divn 18 15 6 6, []) ∧
    decodeOne [0x00EF9704] = .ok (false, .divnImm 15 18 772 [], []) ∧
    decodeOne [0x0119D164] = .ok (false, .rem 25 26 11 1, []) :=
  ⟨rfl, rfl, rfl, rfl, rfl, rfl, rfl, rfl⟩

theorem test_words_03 :
    decodeOne [0x811ACF29, 0xE8000268, 0x68000018] = .ok (false, .remImm 26 25 809 [616, 24], []) ∧
    decodeOne [0x01202A10] = .ok (false, .remn 0 5 16 4, []) ∧
    decodeOne [0x8125074E, 0x68002331] = .ok (false, .remnImm 5 0 846 [9009], []) ∧
    decodeOne [0x014782BC] = .ok (false, .addw 7 16 21 7, []) ∧
    decodeOne [0x01503F73] = .ok (false, .addwImm 16 7 883 [], []) ∧
    decodeOne [0x016EDB48] = .ok (false, .subw 14 27 26 2, []) ∧
    decodeOne [0x817B7798, 0xE800034F, 0x68000021] = .ok (false, .subwImm 27 14 920 [847, 33], []) ∧
    decodeOne [0x019533F4] = .ok (false, .mulw 21 6 31 5, []) :=
  ⟨rfl, rfl, rfl, rfl, rfl, rfl, rfl, rfl⟩

theorem test_words_04 :
    decodeOne [0x8186AFBD, 0x68002EEC] = .ok (false, .mulwImm 6 21 957 [12012], []) ∧
    decodeOne [0x01BC8880] = .ok (false, .and 28 17 4 0, []) ∧
    decodeOne [0x01B1E7E2] = .ok (false, .andImm 17 28 994 [], []) ∧
    decodeOne [0x01C3E12C] = .ok (false, .or 3 28 9 3, []) ∧
    decodeOne [0x81DC1C07, 0xE8000436, 0x6800002A] = .ok (false, .orImm 28 3 7 [1078, 42], []) ∧
    decodeOne [0x01EA39D8] = .ok (false, .xor 10 7 14 6, []) ∧
    decodeOne [0x81E7542C, 0x68003AA7] = .ok (false, .xorImm 7 10 44 [15015], []) ∧
    decodeOne [0x02119264] = .ok (false, .andn 17 18 19 1, []) :=
  ⟨rfl, rfl, rfl, rfl, rfl, rfl, rfl, rfl⟩

theorem test_words_05 :
    decodeOne [0x02128C51] = .ok (false, .andnImm 18 17 81 [], []) ∧
    decodeOne [0x0238EB10] = .ok (false, .shl 24 29 24 4, []) ∧
    decodeOne [0x823DC476, 0xE800051D, 0x68000033] = .ok (false, .shlImm 29 24 118 [1309, 51], []) ∧
    decodeOne [0x025F43BC] = .ok (false, .shr 31 8 29 7, []) ∧
    decodeOne [0x8248FC9B, 0x68004662] = .ok (false, .shrImm 8 31 155 [18018], []) ∧
    decodeOne [0x02669848] = .ok (false, .shra 6 19 2 2, []) ∧
    decodeOne [0x027334C0] = .ok (false, .shraImm 19 6 192 [], []) ∧
    decodeOne [0x028DF0F4] = .ok (false, .shlw 13 30 7 5, []) :=
  ⟨rfl, rfl, rfl, rfl, rfl, rfl, rfl, rfl⟩

theorem test_words_06 :
    decodeOne [0x829E6CE5, 0xE8000604, 0x6800003C] = .ok (false, .shlwImm 30 13 229 [1540, 60], []) ∧
    decodeOne [0x02B44980] = .ok (false, .shrw 20 9 12 0, []) ∧
    decodeOne [0x82A9A50A, 0x6800521D] = .ok (false, .shrwImm 9 20 266 [21021], []) ∧
    decodeOne [0x02DBA22C] = .ok (false, .shraw 27 20 17 3, []) ∧
    decodeOne [0x02D4DD2F] = .ok (false, .shrawImm 20 27 303 [], []) ∧
    decodeOne [0x02E2FAD8] = .ok (false, .min 2 31 22 6, []) ∧
    decodeOne [0x82FF1554, 0xE80006EB, 0x68000045] = .ok (false, .minImm 31 2 340 [1771, 69], []) ∧
    decodeOne [0x03095364] = .ok (false, .max 9 10 27 1, []) :=
  ⟨rfl, rfl, rfl, rfl, rfl, rfl, rfl, rfl⟩

theorem test_words_07 :
    decodeOne [0x830A4D79, 0x68005DD8] = .ok (false, .maxImm 10 9 377 [24024], []) ∧
    decodeOne [0x0330A810] = .ok (false, .minn 16 21 0 4, []) ∧
    decodeOne [0x0335859E] = .ok (false, .minnImm 21 16 414 [], []) ∧
    decodeOne [0x035700BC] = .ok (false, .maxn 23 0 5 7, []) ∧
    decodeOne [0x8340BDC3, 0xE80007D2, 0x6800004E] = .ok (false, .maxnImm 0 23 451 [2002, 78], []) ∧
    decodeOne [0x03698814] = .ok (false, .clz 9 17 5, []) ∧
    decodeOne [0x03961818] = .ok (false, .popc 22 3 6, []) ∧
    decodeOne [0x03BE5948] = .ok (false, .bfx 30 11 10 2, []) :=
  ⟨rfl, rfl, rfl, rfl, rfl, rfl, rfl, rfl⟩

theorem test_words_08 :
    decodeOne [0x83ABF5E8, 0x68006993] = .ok (false, .bfxImm 11 30 488 [27027], []) ∧
    decodeOne [0x03C5B1F4] = .ok (false, .bfi 5 22 15 5, []) ∧
    decodeOne [0x03D62E0D] = .ok (false, .bfiImm 22 5 525 [], []) ∧
    decodeOne [0x03E11070] = .ok (false, .sel 1 2 3 4, []) ∧
    decodeOne [0x0416D290] = .ok (false, .cmp 5 .ge true 9 18, []) ∧
    decodeOne [0x04097D81] = .ok (false, .cmpImm 2 .gen false 30 129 [], []) ∧
    decodeOne [0x04253E00] = .ok (false, .plog 1 2 3 .andn true, []) ∧
    decodeOne [0x04475000] = .ok (false, .stg .stream 13 8, []) :=
  ⟨rfl, rfl, rfl, rfl, rfl, rfl, rfl, rfl⟩

theorem test_words_09 :
    decodeOne [0x04758C00] = .ok (false, .rstg 21 .kiln 6, []) ∧
    decodeOne [0x0484000A] = .ok (false, .geti 4 .panel, []) ∧
    decodeOne [0x080A1007] = .ok (false, .ldb 5 1 .global 7 [], []) ∧
    decodeOne [0x0850A462] = .ok (false, .ldbn 8 10 .scratch 98 [], []) ∧
    decodeOne [0x089738BD] = .ok (false, .ldh 11 19 .store 189 [], []) ∧
    decodeOne [0x08DDC118] = .ok (false, .ldhn 14 28 .global 280 [], []) ∧
    decodeOne [0x09225573] = .ok (false, .ldw 17 5 .scratch 371 [], []) ∧
    decodeOne [0x0968E9CE] = .ok (false, .ldwn 20 14 .store 462 [], []) :=
  ⟨rfl, rfl, rfl, rfl, rfl, rfl, rfl, rfl⟩

theorem test_words_10 :
    decodeOne [0x09AF7229] = .ok (false, .ldd 23 23 .global 553 [], []) ∧
    decodeOne [0x0A340684] = .ok (false, .stb 26 0 .scratch 644 [], []) ∧
    decodeOne [0x0A7A9ADF] = .ok (false, .sth 29 9 .store 735 [], []) ∧
    decodeOne [0x0A81233A] = .ok (false, .stw 0 18 .global 826 [], []) ∧
    decodeOne [0x0AC7B795] = .ok (false, .std 3 27 .scratch 917 [], []) ∧
    decodeOne [0x0C014005] = .ok (false, .pref 20 5 [], []) ∧
    decodeOne [0x0C415131] = .ok (false, .disc 21 305 [], []) ∧
    decodeOne [0x0C81625D] = .ok (false, .luse 22 605 [], []) :=
  ⟨rfl, rfl, rfl, rfl, rfl, rfl, rfl, rfl⟩

theorem test_words_11 :
    decodeOne [0x101EFFFE] = .ok (false, .br 3 true 0x2FFFE, []) ∧
    decodeOne [0x107FFFFC] = .ok (false, .jmp 0x3FFFFC, []) ∧
    decodeOne [0x10800009] = .ok (false, .call 9, []) ∧
    decodeOne [0x10FE0000] = .ok (false, .jr 31, []) ∧
    decodeOne [0x11278001] = .ok (false, .lset true 7 0x8001, []) ∧
    decodeOne [0x11500701] = .ok (false, .lseti false 0x803 0x101, []) ∧
    decodeOne [0x11A00000] = .ok (false, .lexit true, []) ∧
    decodeOne [0x11C000C8] = .ok (false, .dly 200, []) :=
  ⟨rfl, rfl, rfl, rfl, rfl, rfl, rfl, rfl⟩

theorem test_words_12 :
    decodeOne [0x12200001] = .ok (false, .node 0x200001, []) ∧
    decodeOne [0x124D0005] = .ok (false, .sels 6 0x10005, []) ∧
    decodeOne [0x12800000] = .ok (false, .yield, []) ∧
    decodeOne [0x12C00000] = .ok (false, .halt, []) ∧
    decodeOne [0x1300BEEF] = .ok (false, .trap 0xBEEF, []) ∧
    decodeOne [0x13600000] = .ok (false, .gangEnter, []) ∧
    decodeOne [0x13400000] = .ok (false, .gangExit, []) ∧
    decodeOne [0x180D9881] = .ok (false, .vadd .i32 12 24 16 1, []) :=
  ⟨rfl, rfl, rfl, rfl, rfl, rfl, rfl, rfl⟩

theorem test_words_13 :
    decodeOne [0x18221FAC] = .ok (false, .vsub .i4 16 31 21 4, []) ∧
    decodeOne [0x184686D7] = .ok (false, .vadds .i8 20 6 26 7, []) ∧
    decodeOne [0x186B0DFA] = .ok (false, .vsubs .i16 24 13 31 2, []) ∧
    decodeOne [0x188F9425] = .ok (false, .vmul .i32 28 20 4 5, []) ∧
    decodeOne [0x18A01B48] = .ok (false, .vmulh .i4 0 27 9 0, []) ∧
    decodeOne [0x18C48273] = .ok (false, .vmad .i8 4 2 14 3, []) ∧
    decodeOne [0x18E9099E] = .ok (false, .vmin .i16 8 9 19 6, []) ∧
    decodeOne [0x190D90C1] = .ok (false, .vmax .i32 12 16 24 1, []) :=
  ⟨rfl, rfl, rfl, rfl, rfl, rfl, rfl, rfl⟩

theorem test_words_14 :
    decodeOne [0x192217EC] = .ok (false, .vminn .i4 16 23 29 4, []) ∧
    decodeOne [0x19469E17] = .ok (false, .vmaxn .i8 20 30 2 7, []) ∧
    decodeOne [0x196B0502] = .ok (false, .vabs .i16 24 5 2, []) ∧
    decodeOne [0x198901DE] = .ok (false, .vand .i16 8 1 27 6, []) ∧
    decodeOne [0x19AD8801] = .ok (false, .vor .i32 12 8 0 1, []) ∧
    decodeOne [0x19D20F2C] = .ok (false, .vxor .bf16 16 15 5 4, []) ∧
    decodeOne [0x19EF8C65] = .ok (false, .vshl .i32 28 12 12 5, []) ∧
    decodeOne [0x1A001388] = .ok (false, .vshr .i4 0 19 17 0, []) :=
  ⟨rfl, rfl, rfl, rfl, rfl, rfl, rfl, rfl⟩

theorem test_words_15 :
    decodeOne [0x1A249AB3] = .ok (false, .vshra .i8 4 26 22 3, []) ∧
    decodeOne [0x1A471D7A] = .ok (false, .vaddw .i8 24 29 15 2, []) ∧
    decodeOne [0x1A6B84A5] = .ok (false, .vmulw .i16 28 4 20 5, []) ∧
    decodeOne [0x1A800BC8] = .ok (false, .vmulq .i4 0 11 25 0, []) ∧
    decodeOne [0x1AA492F3] = .ok (false, .vmadq .i8 4 18 30 3, []) ∧
    decodeOne [0x1AD1191E] = .ok (false, .vfadd .bf16 8 25 3 6, []) ∧
    decodeOne [0x1AF58041] = .ok (false, .vfsub .f32 12 0 8 1, []) ∧
    decodeOne [0x1B12076C] = .ok (false, .vfmul .bf16 16 7 13 4, []) :=
  ⟨rfl, rfl, rfl, rfl, rfl, rfl, rfl, rfl⟩

theorem test_words_16 :
    decodeOne [0x1B368E97] = .ok (false, .vfma .f32 20 14 18 7, []) ∧
    decodeOne [0x1B5315BA] = .ok (false, .vfmin .bf16 24 21 23 2, []) ∧
    decodeOne [0x1B779CE5] = .ok (false, .vfmax .f32 28 28 28 5, []) ∧
    decodeOne [0x1B900300] = .ok (false, .vfabs .bf16 0 3 0, []) ∧
    decodeOne [0x1BB48A03] = .ok (false, .vfneg .f32 4 10 3, []) ∧
    decodeOne [0x1BD11106] = .ok (false, .vfrcp .bf16 8 17 6, []) ∧
    decodeOne [0x1BF59801] = .ok (false, .vfrsq .f32 12 24 1, []) ∧
    decodeOne [0x1C121F04] = .ok (false, .vfexp2 .bf16 16 31 4, []) :=
  ⟨rfl, rfl, rfl, rfl, rfl, rfl, rfl, rfl⟩

theorem test_words_17 :
    decodeOne [0x1C368607] = .ok (false, .vflog2 .f32 20 6 7, []) ∧
    decodeOne [0x1C5B0DFA] = .ok (false, .vlmul .l4 24 13 31 2, []) ∧
    decodeOne [0x1C7F9405] = .ok (false, .vlrcp .l8 28 20 5, []) ∧
    decodeOne [0x1C96B9E8] = .ok (false, .vcmp .f32 5 .ge 19 26, []) ∧
    decodeOne [0x1CB69657] = .ok (false, .vsel .f32 20 22 10 7, []) ∧
    decodeOne [0x1CD01B00] = .ok (false, .vreds .bf16 0 27 0, []) ∧
    decodeOne [0x1CF48203] = .ok (false, .vredx .f32 4 2 3, []) ∧
    decodeOne [0x1D010906] = .ok (false, .vredn .i4 8 9 6, []) :=
  ⟨rfl, rfl, rfl, rfl, rfl, rfl, rfl, rfl⟩

theorem test_words_18 :
    decodeOne [0xA008698A, 0x6C000001] = .ok (false, .vld .i16 3 9 17 2 [0x4000001], []) ∧
    decodeOne [0x203BC107] = .ok (false, .vst .l4 30 1 0 7 [], []) ∧
    decodeOne [0x20448531] = .ok (false, .vgth .i8 4 5 6 1, []) ∧
    decodeOne [0x2075CF83] = .ok (false, .vsct .f32 14 15 16 3, []) ∧
    decodeOne [0x20911504] = .ok (false, .vbc .bf16 8 21 4, []) ∧
    decodeOne [0xA0A12AC8, 0x68000003] = .ok (false, .vget .i4 9 10 200 [3], []) ∧
    decodeOne [0x20CD6C7F] = .ok (false, .vput .i32 11 12 127 [], []) ∧
    decodeOne [0x20E8221C] = .ok (false, .vprm .i16 1 2 3 4, []) :=
  ⟨rfl, rfl, rfl, rfl, rfl, rfl, rfl, rfl⟩

theorem test_words_19 :
    decodeOne [0x21098000] = .ok (false, .vtrp .i16 3, []) ∧
    decodeOne [0x2134223B] = .ok (false, .vcvt .f32 1 2 .i8 .rup 3, []) ∧
    decodeOne [0x215C8534] = .ok (false, .vqnt .l8 4 5 6 true, []) ∧
    decodeOne [0x2178E848] = .ok (false, .vdqnt .l4 7 8 9 false, []) ∧
    decodeOne [0x21814B65] = .ok (false, .vrnd 10 11 12 5, []) ∧
    decodeOne [0x21A46405] = .ok (false, .viota .i8 3 4 5, []) ∧
    decodeOne [0x21D4C741] = .ok (false, .vext .f32 6 7 8 1, []) ∧
    decodeOne [0x21FD2A5A] = .ok (false, .vcmpr .l8 9 10 11 2, []) :=
  ⟨rfl, rfl, rfl, rfl, rfl, rfl, rfl, rfl⟩

theorem test_words_20 :
    decodeOne [0x22126006] = .ok (false, .vmovm true 19 6, []) ∧
    decodeOne [0x2865E000] = .ok (false, .afmt true 2 false true 1 true 3 0, []) ∧
    decodeOne [0x28814037] = .ok (false, .wld 40 55, []) ∧
    decodeOne [0x29000000] = .ok (false, .aswp, []) ∧
    decodeOne [0x2983205B] = .ok (false, .strm 100 91, []) ∧
    decodeOne [0x2A05FE00] = .ok (false, .drn 191 true .log 0, []) ∧
    decodeOne [0x2A8038B8] = .ok (false, .aclr 7 184, []) ∧
    decodeOne [0x2B000001] = .ok (false, .agng true, []) :=
  ⟨rfl, rfl, rfl, rfl, rfl, rfl, rfl, rfl⟩

theorem test_words_21 :
    decodeOne [0x2B800001] = .ok (false, .asta true, []) ∧
    decodeOne [0xB01C0001, 0x68000005] = .ok (false, .ksa 3 0x40001 [5], []) ∧
    decodeOne [0x3127F801] = .ok (false, .ksw 4 127 0x801 [], []) ∧
    decodeOne [0x32280009] = .ok (false, .kso 5 9 [], []) ∧
    decodeOne [0x33000000] = .ok (false, .kclr, []) ∧
    decodeOne [0x38520000] = .ok (false, .dcpy .arrive true .global .scratch, []) ∧
    decodeOne [0x38A60000] = .ok (false, .dunf .count false .store .scratch, []) ∧
    decodeOne [0x39360000] = .ok (false, .dpubInit .count 5, []) :=
  ⟨rfl, rfl, rfl, rfl, rfl, rfl, rfl, rfl⟩

theorem test_words_22 :
    decodeOne [0x39180000] = .ok (false, .dpub .none 6, []) ∧
    decodeOne [0x39830000] = .ok (false, .dfil .none false .global .remote, []) ∧
    decodeOne [0x3A5B0000] = .ok (false, .dgth .arrive true .scratch .remote, []) ∧
    decodeOne [0x3A800001] = .ok (false, .dsta true, []) ∧
    decodeOne [0x400048C8] = .ok (false, .qpat 9 200, []) ∧
    decodeOne [0x4087F800] = .ok (false, .qldy 255 0, []) ∧
    decodeOne [0x41000400] = .ok (false, .qdom 2, []) ∧
    decodeOne [0x41C00A09] = .ok (false, .qstp 0x801 1 9, []) :=
  ⟨rfl, rfl, rfl, rfl, rfl, rfl, rfl, rfl⟩

theorem test_words_23 :
    decodeOne [0x42081800] = .ok (false, .qsav, []) ∧
    decodeOne [0x42881800] = .ok (false, .qrst, []) ∧
    decodeOne [0x43000620] = .ok (false, .qrdv true 17, []) ∧
    decodeOne [0x43800001] = .ok (false, .qsta true, []) ∧
    decodeOne [0x48022800] = .ok (false, .rsw 1 2 true, []) ∧
    decodeOne [0x48464480] = .ok (false, .ram 3 4 .maxn true, []) ∧
    decodeOne [0x488A6400] = .ok (false, .rld 5 6 false true, []) ∧
    decodeOne [0x48CE0000] = .ok (false, .rfl 7 false, []) :=
  ⟨rfl, rfl, rfl, rfl, rfl, rfl, rfl, rfl⟩

theorem test_words_24 :
    decodeOne [0x4900000B] = .ok (false, .mgrp 11, []) ∧
    decodeOne [0x49400344] = .ok (false, .mlr .agree .l8 false true, []) ∧
    decodeOne [0x49900000] = .ok (false, .rfq 8, []) ∧
    decodeOne [0x49D20001] = .ok (false, .rsta 9 true, []) ∧
    decodeOne [0x50022400] = .ok (false, .cadd 1 2 true, []) ∧
    decodeOne [0xD0064800, 0x6800ABCD] = .ok (false, .caddRemote 3 4 false 0xABCD, []) ∧
    decodeOne [0x504A6400] = .ok (false, .cwt 5 6 true, []) ∧
    decodeOne [0x508E8000] = .ok (false, .crd 7 8, []) :=
  ⟨rfl, rfl, rfl, rfl, rfl, rfl, rfl, rfl⟩

theorem test_words_25 :
    decodeOne [0x50D2A000] = .ok (false, .aarm 9 10, []) ∧
    decodeOne [0x5116C000] = .ok (false, .awt 11 12 false, []) ∧
    decodeOne [0x51400203] = .ok (false, .phs true false .system, []) ∧
    decodeOne [0x51800005] = .ok (false, .bar true .die, []) ∧
    decodeOne [0x51C002A0] = .ok (false, .fen 0x2A, []) ∧
    decodeOne [0x521A0000] = .ok (false, .splt 13, []) ∧
    decodeOne [0x52400000] = .ok (false, .dgsOn, []) ∧
    decodeOne [0x52400001] = .ok (false, .dgsOff, []) :=
  ⟨rfl, rfl, rfl, rfl, rfl, rfl, rfl, rfl⟩

theorem test_words_26 :
    decodeOne [0x525C0002] = .ok (false, .dgsRd 14, []) ∧
    decodeOne [0x525F0003] = .ok (false, .dgsFold 15 16, []) ∧
    decodeOne [0x58000000] = .ok (false, .upcf, []) ∧
    decodeOne [0x5880000A] = .ok (false, .updm true true false, []) ∧
    decodeOne [0x59000001] = .ok (false, .upmo false true, []) ∧
    decodeOne [0x59800001] = .ok (false, .upst true, []) ∧
    decodeOne [0x600A0047] = .ok (false, .srd 5 (.qcfg 7), []) ∧
    decodeOne [0x604C000C] = .ok (false, .swr 6 .stopflag, []) :=
  ⟨rfl, rfl, rfl, rfl, rfl, rfl, rfl, rfl⟩

theorem test_words_27 :
    decodeOne [0x60800001] = .ok (false, .tret true, []) ∧
    decodeOne [0x60C2200A] = .ok (false, .tlbi 1 2 true false .package, []) ∧
    decodeOne [0x61064133] = .ok (false, .shot 3 4 19 false false .system, []) ∧
    decodeOne [0x614E0000] = .ok (false, .csav 7, []) ∧
    decodeOne [0x61900000] = .ok (false, .crst 8, []) ∧
    decodeOne [0x61C80006] = .ok (false, .stop 4 true .launch, []) ∧
    decodeOne [0x62100010] = .ok (false, .slp 8 16, []) ∧
    decodeOne [0x62443000] = .ok (false, .sflt 2 3 .memory, []) :=
  ⟨rfl, rfl, rfl, rfl, rfl, rfl, rfl, rfl⟩

/-- The chain bit: an L word follows only a word whose bit 31 is 1, and a word whose bit 31 is 1 and that no L word follows
belongs to a bundle that goes on (R20, R26, R28). -/
theorem test_chain : decodeOne [0x803FF7FF, 0x68000001] = .ok (false, .addImm 31 30 0x3FF [1], []) ∧
    decodeOne [0x80220000, 0x00000000] = .ok (true, .add 2 0 0 0, [0]) ∧
    decodeOne [0x803FF7FF, 0xE8000001, 0] = .ok (true, .addImm 31 30 0x3FF [1], [0]) := ⟨rfl, rfl, rfl⟩

/-- Words that R40 and Table WRD-11 reject. -/
theorem test_rejected : decodeOne [0x78000000] = .error .reservedClass ∧ decodeOne [0x00200001] = .error .reservedBits ∧
    decodeOne [0x07E00000] = .error .reservedOp ∧ decodeOne [0x04018000] = .error .limit ∧
    decodeOne [0x80200000, 0x68000000] = .error .lWord ∧ decodeOne [] = .error .noWord ∧
    decodeOne [0x61C00003] = .error .limit := ⟨rfl, rfl, rfl, rfl, rfl, rfl, rfl⟩

/-! ### Ill-formed terms, one for each check of wellFormed -/

theorem test_ill_formed_ext : wellFormed (.addImm 1 2 3 [0, 0, 0]) = false ∧ wellFormed (.cmpImm 1 .eq false 2 3 [0, 0, 0]) = false ∧
    wellFormed (.ldw 1 2 .global 3 [0, 0, 0]) = false ∧ wellFormed (.pref 1 3 [0, 0, 0]) = false ∧
    wellFormed (.vld .i8 1 2 3 0 [0, 0]) = false ∧ wellFormed (.vget .i8 1 2 3 [0, 0]) = false ∧
    wellFormed (.ksa 1 2 [0, 0]) = false ∧ wellFormed (.ksw 1 2 3 [0, 0]) = false := by decide

theorem test_ill_formed_staging : wellFormed (.stg .array 8 1) = false ∧ wellFormed (.rstg 1 .kiln 8) = false ∧
    wellFormed (.stg .stream 8 1) = true := by decide

theorem test_ill_formed_vector : wellFormed (.vadd .f32 1 2 3 0) = false ∧ wellFormed (.vfadd .i8 1 2 3 0) = false ∧
    wellFormed (.vlmul .i8 1 2 3 0) = false ∧ wellFormed (.vcmp .f32 1 .ltn 2 3) = false ∧
    wellFormed (.vreds .l8 1 2 0) = false ∧ wellFormed (.vaddw .i32 2 4 5 0) = false ∧ wellFormed (.vaddw .i16 3 4 5 0) = false ∧
    wellFormed (.vmulq .i16 4 5 6 0) = false ∧ wellFormed (.vmulq .i8 6 5 6 0) = false := by decide

theorem test_ill_formed_moves : wellFormed (.vld .i4 1 2 3 0 []) = false ∧ wellFormed (.vgth .l4 1 2 3 0) = false ∧
    wellFormed (.vget .i32 1 2 128 []) = false ∧ wellFormed (.vput .i4 1 2 0 [4]) = false ∧ wellFormed (.vtrp .i4 0) = false ∧
    wellFormed (.vtrp .i8 4) = false ∧ wellFormed (.vcvt .i8 1 2 .i8 .rne 0) = false ∧
    wellFormed (.vcvt .i8 1 2 .i16 .rtz 0) = false ∧ wellFormed (.vqnt .i8 1 2 3 false) = false ∧
    wellFormed (.vqnt .l8 1 2 1 false) = false ∧ wellFormed (.vdqnt .f32 1 2 3 false) = false := by decide

theorem test_ill_formed_array : wellFormed (.afmt false 3 false false 0 false 0 0) = false ∧
    wellFormed (.afmt false 0 false false 3 false 0 0) = false ∧ wellFormed (.afmt false 0 false false 0 false 0 1) = false ∧
    wellFormed (.afmt false 0 false true 0 false 0 2) = false ∧ wellFormed (.wld 96 0) = false ∧ wellFormed (.wld 95 1) = false ∧
    wellFormed (.strm 191 1) = false ∧ wellFormed (.drn 192 false .f32 0) = false ∧ wellFormed (.aclr 0 192) = false ∧
    wellFormed (.ksw 1 96 0 []) = false ∧ wellFormed (.ksw 1 127 0 []) = true := by decide

theorem test_ill_formed_engines : wellFormed (.dcpy .none true .global .store) = false ∧
    wellFormed (.dcpy .none false .remote .remote) = false ∧ wellFormed (.dunf .none false .remote .scratch) = false ∧
    wellFormed (.dunf .none false .global .store) = false ∧ wellFormed (.dfil .none false .store .scratch) = false ∧
    wellFormed (.dgth .none false .remote .scratch) = false ∧ wellFormed (.dpub .arrive 0) = false ∧
    wellFormed (.dpubInit .arrive 0) = false ∧ wellFormed (.qpat 256 0) = false ∧ wellFormed (.qldy 255 1) = false ∧
    wellFormed (.rld 1 2 true true) = false ∧ wellFormed (.rfl 1 true) = false ∧ wellFormed (.mlr .max .f32 true false) = false ∧
    wellFormed (.mlr .agree .i32 false false) = false ∧ wellFormed (.rfq 31) = false ∧ wellFormed (.rfq 0) = false := by decide

theorem test_ill_formed_system : wellFormed (.caddRemote 1 2 false 65536) = false ∧ wellFormed (.crd 1 0) = false ∧
    wellFormed (.phs false false .die) = false ∧ wellFormed (.bar false .system) = false ∧ wellFormed (.fen 0) = false ∧
    wellFormed (.fen 64) = false ∧ wellFormed (.dgsRd 31) = false ∧ wellFormed (.dgsRd 0) = false ∧
    wellFormed (.tlbi 1 2 false false .system) = false ∧ wellFormed (.shot 1 2 0 false false .die) = false ∧
    wellFormed (.shot 1 2 1 false true .package) = false := by decide

theorem test_ill_formed_events : wellFormed (.strandSelect 2048) = false ∧ wellFormed (.waitSatisfied 0 4) = false ∧
    wellFormed (.kilnCommandStart 256) = false ∧ wellFormed (.governorEpoch 8) = false ∧ wellFormed (.holderCountUpdate 0 0 8 true) = false ∧
    wellFormed (.admission 16) = false ∧ wellFormed (.idleSuperstep 0 65) = false ∧ wellFormed (.clockChange 825) = false ∧
    wellFormed (.powerLimit 800 65) = false ∧ wellFormed (.flitCrcFailure 6 0) = false ∧ wellFormed (.counterReadSlot 16) = false ∧
    wellFormed (.mgrpComplete ⟨2048, 0, 0, 0, 0, 0⟩ 0 0) = false := by decide

/-! ### Small states -/

/-- The machine with a launch running on tile 0, strand 0 (R295), whose words execute. -/
def testState : State := State.reset.withFetchWord 32 0
/-- `testState` with a value in a scalar register of its strand. -/
def testG (r : Reg) (x : DWord) : State := testState.onMe fun y => y.writeG r x
/-- `testState` with its strand changed. -/
def testMe (f : Strand → Strand) : State := testState.onMe f
/-- `testState` with its tile changed. -/
def testTile (f : Tile → Tile) : State := testState.onMyTile f
/-- `testState` with cluster 0 changed. -/
def testCluster (f : Cluster → Cluster) : State := testState.onCluster 0 f
/-- `testState` with die 0 changed. -/
def testDie (f : Die → Die) : State := testState.onDie 0 f
/-- `testState` with what its bundle is changed. -/
def testBun (f : Bundle → Bundle) : State := testState.onBun f
/-- `testState` with its launch changed. -/
def testLaunch (f : Launch → Launch) : State := testState.onLaunch 0 f
/-- A cluster-TLB entry for page 0, at frame 5 of stack 0. -/
def testEntry (mode : BitVec 2) (ro : Bool) : TlbEntry := ⟨0, 0, 1, mode, ro, 0, 0, 5, 0, false⟩
/-- `testState` whose cluster has an entry for page 0. -/
def testTlb (mode : BitVec 2) (ro : Bool) : State := testCluster fun x => { x with tlb := [testEntry mode ro] }
/-- The origin of a command of strand 0 of tile 0. -/
def testOrg : Origin := ⟨0, 0, 0, 0, 0, 0⟩
/-- `testState` as a privileged strand. -/
def testPriv : State := testMe fun x => { x with trap := { x.trap with priv := true, inh := true } }

/-- What holds of a map's values and of its default holds of what stands at any key. -/
theorem test_get {α : Type} (P : α → Prop) (d : α) (hd : P d) : ∀ m : SMap α, (∀ e ∈ m, P e.2) → ∀ k, P (SMap.get d m k)
  | [], _, _ => hd
  | (j, x) :: m, h, k => by
    rw [SMap.get]
    split
    · exact h (j, x) (by simp)
    · exact test_get P d hd m (fun e he => h e (by simp [he])) k

/-! ### The hypotheses of the statements can be met -/

theorem witness_ScalarForms : scalarRows.length = 27 ∧ testState.me.readP 0 = true ∧ testState.me.readP 1 = false ∧
    (0 < 8 ∧ 0 < 10) := by decide +kernel

theorem witness_StagingAndGeti : testState.launchOf testState.bun.tile = some (fetchLaunch 0) := by decide +kernel

theorem witness_PendingWrites : ((7 : BitVec 4).toNat < 8) ∧ (testState.tile 0).scratch.wf = true := by decide +kernel

theorem witness_ScratchpadWords :
    (let ea := (memAddr (testG 1 0x1FFFF8) 1 8 0 []).toNat; ea % 8 = 0 ∧ ea + 8 = 0x200000) ∧
    (let ea := (memAddr (testG 1 0x1FFFFF) 1 1 0 []).toNat; ea % 1 = 0 ∧ ea + 1 = 0x200000) ∧
    testState.myTile.scratch.wf = true := by decide +kernel

theorem witness_ClusterStoreWords :
    let s := (testG 1 0x3FFFF8).onCluster 0 fun x => { x with cw := 15 }
    (s.cluster s.myCluster).busy = false ∧ (memAddr s 1 8 0 []).toNat % 8 = 0 ∧
    (memAddr s 1 8 0 []).toNat + 8 = (16 - (s.cluster s.myCluster).cw) * 0x400000 ∧
    (s.cluster s.myCluster).store.wf = true := by decide +kernel

theorem witness_GlobalWords :
    let at_ (m : BitVec 2) (p : BitVec 16) (ro : Bool) : TlbEntry := ⟨0, 0, 1, m, ro, 0, p, 5, 0, false⟩
    let s (m : BitVec 2) (p : BitVec 16) (ro : Bool) := (testG 1 0xFFF8).onCluster 0 fun x => { x with tlb := [at_ m p ro] }
    let both := (s 0 0 false).onMyTile fun x => { x with tlb := [at_ 0 0 false] }
    memAddr (s 0 0 false) 1 8 0 [] = 0xFFF8 ∧ (0xFFF8 : DWord).toNat % 8 = 0 ∧
    ([(0 : BitVec 2), 1, 2, 3].all fun m => [(0 : BitVec 16), 16].all fun p => [true, false].all fun ro =>
      (s m p ro).coreXlate (s m p ro).bun.tile 0xFFF8 == .hit (at_ m p ro) false) = true ∧
    (testG 1 0x10000000000000).coreXlate 0 0x10000000000000 = .fault 7 3 false ∧
    testState.coreXlate 0 0 = .fault 1 3 true ∧
    (testState.absent 16 = true ∧ testState.absent 0 = false ∧ testState.ownPackage 0 = true) ∧
    (s 0 0 false).entriesOn 0 0 0xFFF8 8 = false ∧ (s 0 0 false).isBad (stnOf 0) ((at_ 0 0 false).offset 0xFFF8) 8 = false ∧
    (both.tileLookup both.bun.tile 0 = some (at_ 0 0 false) ∧ (both.cluster both.myCluster).lookup 0 = some (at_ 0 0 false) ∧
      both.coreXlate 0 0xFFF8 = .hit (at_ 0 0 false) false) ∧
    ((testState.die 0).bad = [] ∧ (testState.die 0).wrong = []) ∧ testState.myTile.fabCount < 16 := by decide +kernel

theorem witness_MemoryTrapsAndHints :
    let full := testCluster fun x => { x with walks := List.replicate 80 ⟨0, 9, none, 7, 3⟩ }
    testState.bun.checked = false ∧ (memAddr (testG 1 1) 1 8 0 []).toNat % 8 ≠ 0 ∧
    (memAddr (testG 1 0x200000) 1 8 0 []).toNat % 8 = 0 ∧ 0x200000 < (memAddr (testG 1 0x200000) 1 8 0 []).toNat + 8 ∧
    ((testCluster fun x => { x with busy := true }).cluster 0).busy = true ∧ (testState.cluster 0).busy = false ∧
    (16 - (testState.cluster 0).cw) * 0x400000 < (memAddr testState 0 8 0 []).toNat + 8 ∧
    full.coreXlate full.bun.tile (memAddr full 0 8 0 []) = .full := by decide +kernel

theorem witness_ControlWords : ((testG 1 0xFFFFFFFF).me.readG 1).toNat < 2 ^ 32 ∧
    2 ^ 32 ≤ ((testG 1 0x100000000).me.readG 1).toNat ∧ testState.bun.checked = false ∧ testState.bun.follow = false ∧
    testState.me.gang ≠ .ganged ∧ (testMe fun x => { x with gang := .ganged }).me.gang = .ganged := by decide +kernel

theorem witness_LoopWords :
    let s := (testG 1 0xFFFFFFFF).onBun fun b => { b with len := 1 }
    let big := (testG 1 0x100000000).onBun fun b => { b with len := 1 }
    let loop (o : Loop) := (testMe fun x => { x with loop1 := o }).onBun fun b => { b with len := 1 }
    let inner := loop ⟨0, 4, 2, true, false⟩
    let later := loop ⟨1, 9, 2, true, false⟩
    loopFits s false (s.me.readG 1) 1 ∧ loopFits s false ((0 : BitVec 12).setWidth 64) 1 ∧
    loopFits inner false ((5 : BitVec 12).setWidth 64) 4 ∧ 0 < s.bun.len ∧
    (s.bun.checked = false ∧ s.bun.follow = false) ∧ (big.bun.len ≤ 1 ∧ 0xFFFFFFFF < (big.me.readG 1).toNat) ∧
    loopConflict inner false 5 ∧ loopConflict later false 9 ∧ s.bun.len ≤ 1 := by
  simp only [loopFits, loopConflict]; decide +kernel

theorem witness_BundleSequence :
    let s := testMe fun x => { x with loop0 := ⟨0, 0, 2, true, false⟩ }
    let two := testMe fun x => { x with loop0 := ⟨0, 0, 2, true, true⟩, loop1 := ⟨0, 0, 1, true, false⟩ }
    let away := two.onBun fun b => { b with target := some 7 }
    s.bun.follow = false ∧ s.bun.target = none ∧ s.bun.jump = none ∧ (s.me.loop false).act = true ∧
    (s.me.loop false).stop = s.bun.first ∧ (testBun fun b => { b with target := some 7 }).bun.target = some 7 ∧
    (testBun fun b => { b with jump := some 7 }).bun.jump = some 7 ∧
    (SharedEnd two.me false two.bun.first ∧ two.bun.target = none ∧ two.bun.jump = none) ∧
    (away.bun.tret ≠ some true ∧ (away.me.loop false).act = true ∧ ¬InBody (away.image 0).code (away.me.loop false) 7) ∧
    (let x := { two.me with pc := 1 }
     (x.loop false).act = true ∧ (x.loop false).stop.toNat + chainLen [] (x.loop false).stop.toNat ≤ x.pc.toNat) := by
  simp only [SharedEnd, InBody]; decide +kernel

theorem witness_NodeWords :
    let g : Image := ⟨[2, 8, 100, 0, 5, 0, 9, 200, 0, 6, 0], [⟨3, 4, 0, []⟩, ⟨5, 4, 0, [3]⟩], 0, [], []⟩
    let s := testLaunch fun l => { l with img := g }
    let rows := (List.range ((s.image s.bun.tile).schedCount 0)).map ((s.image s.bun.tile).schedEntry 0)
    (s.image 0).nodeOf 3 = some ⟨3, 4, 0, []⟩ ∧ (s.image 0).nodeOf 4 = none ∧ (s.image 0).nodeOf 5 = some ⟨5, 4, 0, [3]⟩ ∧
    s.me.nodeDone 3 = false ∧ s.bun.follow = false ∧ s.bun.checked = false ∧
    (s.bun.first + (0 : BitVec 17).signExtend 32).toNat = 0 ∧ (∃ r ∈ rows, 6 ≤ r.2.2) ∧
    rows.Pairwise (fun a b => a.2.2 < b.2.2) ∧ ∀ r ∈ rows, r.2.2 < 7 := by decide +kernel

theorem witness_GangWords :
    (SMap.find (testMe fun x => { x with barPassed := [(gangCode, 0)] }).me.barPassed gangCode).isSome ∧
    testState.bun.checked = false ∧ SMap.find testState.me.barPassed gangCode = none ∧
    (testMe fun x => { x with gang := .ganged }).me.gang = .ganged ∧ testState.me.gang ≠ .ganged := by decide +kernel

theorem witness_VectorIntegers : vectorRows.length = 18 ∧ widenRows.map (·.group) = [2, 2, 4, 4] ∧
    VType.i16.width * 2 = 32 ∧ VType.i8.width * 4 = 32 := by decide +kernel

theorem witness_VectorFloats : floatRows.length = 14 ∧
    (∀ t ∈ [VType.l4, .l8], (FmtV.reset.log t).sgn = true ∧ 1 < (FmtV.reset.log t).bits ∧ 1 ≠ (FmtV.reset.log t).nar) := by
  decide +kernel

theorem witness_VectorFloats_values : (codeFinite 24 0x3F800000 ∧ codeFinite 24 0x40000000 ∧ codeFinite 8 0xBF80 ∧ codeFinite 24 0) ∧
    codeVal 24 0 = 0 ∧ codeVal 24 0x3F800000 = 1 ∧ codeVal 24 0x40000000 = 2 ∧ codeVal 8 0xBF80 = -1 ∧
    (2 : ℚ) = 2 ^ (1 : ℤ) ∧ (0 : Nat) < 2 ^ VType.l4.width := by
  simp only [codeFinite, codeVal, codeNeg]; norm_num [VType.width]

theorem witness_CompareAndReduce : VType.i32.isInt ∧ VType.bf16.isFp ∧ VType.l4.isLog ∧
    (actives .i32 (testState.me.readM 1) = []) ∧ actives .i32 (testState.me.readM 0) ≠ [] ∧
    ((0 : Nat) ≠ (FmtV.reset.log .l8).nar ∧ 128 = (FmtV.reset.log .l8).nar) := by decide +kernel

theorem witness_VectorMemory :
    let s := testG 1 0x1FFE00
    let far := testG 1 0x1FFE04
    let odd := testG 1 2
    (∀ i ∈ actives .i32 (s.me.readM 0), (specAddr .i32 s 1 0 [] i).toNat % 4 = 0 ∧ (specAddr .i32 s 1 0 [] i).toNat + 4 ≤ 0x200000) ∧
    (127 ∈ actives .i32 (far.me.readM 0) ∧ (∀ j ∈ actives .i32 (far.me.readM 0), j < 127 →
      (specAddr .i32 far 1 0 [] j).toNat % 4 = 0 ∧ (specAddr .i32 far 1 0 [] j).toNat + 4 ≤ 0x200000) ∧
      (specAddr .i32 far 1 0 [] 127).toNat % 4 = 0 ∧ 0x200000 < (specAddr .i32 far 1 0 [] 127).toNat + 4) ∧
    (0 ∈ actives .i32 (odd.me.readM 0) ∧ (specIndex .i32 odd 1 0 0).toNat % 4 ≠ 0) ∧ s.bun.checked = false ∧
    VType.l4.width = 4 ∧ s.myTile.pairs = [] ∧ s.myTile.scratch.wf = true ∧
    (specAddr .l4 s 1 0 [] 0).toNat + 512 = 0x200000 := by decide +kernel

theorem witness_MoveAndConvert : laneOk .i4 255 [3] = true ∧ laneOk .i32 127 [] = true ∧ (3 : BitVec 3).toNat < 4 ∧
    VType.l8.isLog ∧ 15 < VType.i4.lanes / 8 ∧ (FmtV.reset.l4f ≠ 3 ∧ FmtV.reset.l8f ≠ 3) ∧ (255 : Nat) < 2 ^ VType.l8.width ∧
    (codeFinite 24 0x3F800000 ∧ ¬codeFinite 24 0x7F800000 ∧ 0x7F800000 % 2 ^ 23 = 0) ∧ (VType.i8 ≠ .f32 ∧ VType.i8.isInt ∧ VType.f32.isFp) ∧
    ((0x10000 : Word) ≠ 0x80000000 ∧ (0x10000 : Word).toInt % 4096 = 0) := by
  simp only [codeFinite]; decide +kernel

theorem witness_MoveAndConvert_values : LogIs 8 3 64 1 ∧ (∃ M : ℚ, 0 < M ∧ |codeVal 24 0x3F800000| = M) := by
  constructor
  · norm_num [LogIs, logExp]
  · exact ⟨1, by norm_num, by simp only [codeVal, codeNeg]; norm_num⟩

/-- An array command in flight on tile 0. -/
def testArr (op : ArrOp) : ArrCmd := ⟨0, op, testOrg, 0, 2, 0, .reset, 0, 192, 0, 0, none, 0, [], 10, false, [], false, false⟩
/-- A stream command of strand 0 of tile 0. -/
def testStream (op : SOp) (src dst : DSpace) (d1 d3 : DWord) : SCmd :=
  ⟨0, op, .none, false, src, dst, #v[0, d1, 0, d3, 0, 0, 0, 0], [], testOrg, 0, 0, 0, 0, 0, 0, none, 0⟩
/-- A kiln command of strand 0 of tile 0. -/
def testKiln (op : KOp) (n : Vector DWord 8) : KCmd := ⟨op, false, false, n, testOrg, 0, 0, .zero, none, 0⟩
/-- A descriptor of an unfolding of a 1 by 1 input with one tap (Table STR-8). -/
def testUnfold : List Byte := [1, 0, 1, 0, 1, 0, 0, 0, 1, 1, 1, 1, 1, 1, 0, 0, 1, 0, 0, 0, 0, 0, 0, 0, 128, 0, 0, 0, 1, 0, 0, 0,
  1, 0, 0, 0, 0, 0, 0, 0, 0, 0, 0]

/-- `testState` with a panel of strand 0 on every tile of cluster 0. -/
def testPanel : State :=
  (testMe fun x => { x with gang := .ganged }).onCluster 0 fun x => { x with panel := some ⟨[0, 1], 0, 0, []⟩, gangs := [0, 0] }

theorem witness_ArrayRegisters : testState.det = false ∧ testState.myTile.wFree ≤ testState.cc ∧
    testState.myTile.sFree ≤ testState.cc ∧ (testMe fun x => { x with gang := .ganged }).me.gang = .ganged ∧
    testState.bun.checked = false ∧ testState.me.gang ≠ .ganged ∧
    testState.cc < (testTile fun x => { x with wFree := 1, sFree := 1 }).myTile.wFree ∧
    testState.cc < (testTile fun x => { x with wFree := 1, sFree := 1 }).myTile.sFree := by decide +kernel

theorem witness_ArrayCommandWords :
    let s := testTile fun x => { x with a := #v[0, 0x1FFE80, 192, 0xC0001FFEE0, 0x180001FFD00, 0, 0, 0] }
    let odd := testTile fun x => { x with a := #v[0, 0, 0, 0, 8, 0, 0, 0] }
    let far := testTile fun x => { x with a := #v[0, 0, 0, 0, 0x200000, 0, 0, 0] }
    let busy := testTile fun x => { x with dFree := 1 }
    (s.det = false ∧ s.myTile.wFree ≤ s.cc ∧ s.myTile.sFree ≤ s.cc ∧ s.myTile.dFree ≤ s.cc ∧ s.bun.checked = false) ∧
    RowsFit (lo32 s.arrStg[1]) (lo32 s.arrStg[2]) 2 (masterBytes s.fmtA.record) ∧ s.fmtA.sp = 0 ∧
    RowsFit (lo32 s.arrStg[3]) (hi32 s.arrStg[3]) (if ringOf s.arrStg = 0 then 2 else min 2 (ringOf s.arrStg))
      (actBytes s.fmtA s.myTile.bankA.fmt) ∧
    RowsFit (lo32 s.arrStg[4]) (hi32 s.arrStg[4]) 2 (outBytes s.fmtA .f32) ∧ s.myTile.chain = false ∧
    busy.cc < busy.myTile.dFree ∧ lo32 odd.arrStg[4] % 16 ≠ 0 ∧ lo32 far.arrStg[4] % 16 = 0 ∧
    0x200000 < lo32 far.arrStg[4] + outBytes far.fmtA .f32 := by
  simp only [RowsFit]; decide +kernel

theorem witness_ArrayArithmetic : let f := FmtA.reset.act
    (0 ≠ f.nar ∧ 1 ≠ f.nar) ∧ (0x7FFF : Nat) ≠ 0x8000 ∧ (ArrayFmt f ∧ ArrayFmt ⟨4, 2, false⟩ ∧ ArrayFmt ⟨8, 4, true⟩) ∧
    (0xFFFE ≠ codeTop ⟨8, 4, true⟩ + 1 ∧ 255 < 2 ^ 8 ∧ codeM ⟨8, 4, true⟩ 255 = codeM ⟨8, 4, true⟩ 127) ∧
    (FmtA.reset.af ≠ 3 ∧ (0 : Word).toInt % 65536 = 0 ∧ (1 : DWord).toInt.natAbs = 2 ^ 0) := by
  simp only [ArrayFmt]; decide +kernel

theorem witness_ArrayBeats :
    let s (op : ArrOp) := testTile fun x => { x with arr := [testArr op] }
    0 < (testArr .wld).beats ∧ ((s .wld).tile 0).beatOf (· == .wld) 0 0 = some (testArr .wld) ∧
    ((s .strm).tile 0).beatOf (· == .strm) 0 0 = some (testArr .strm) ∧ (testArr .strm).chain = false ∧
    ((s (.drn true .log)).tile 0).beatOf (fun o => match o with | .drn .. => true | _ => false) 0 0 =
      some (testArr (.drn true .log)) ∧
    ((s .aclr).tile 0).beatOf (· == .aclr) 0 0 = some (testArr .aclr) := by decide +kernel

theorem witness_ArrayCompletion :
    ((testTile fun x => { x with arr := [testArr .strm] }).tile 0).arr.find? (·.id == 0) = some (testArr .strm) ∧
    (testState.strand 0 0).inPanel 2 0 = false ∧
    (let s := (testPanel.onTile 0 fun x => { x with arr := [{ testArr .strm with nar := true }] })
     (s.tile 0).arr.find? (·.id == 0) = some { testArr .strm with nar := true } ∧ (s.strand 0 0).inPanel 2 0 = true ∧
     (testArr .strm).refused = false ∧ (s.strand 0 ((s.cluster 0).gangs.headD 0)).gang = .ganged ∧
     (s.cluster 0).panel = some ⟨[0, 1], 0, 0, []⟩) := by decide +kernel

theorem witness_StreamCommandWords : let c := testStream .dcpy .global .scratch 0 1
    testState.myTile.sq.length < 16 ∧ testState.bun.checked = false ∧
    16 ≤ (testTile fun x => { x with sq := List.replicate 16 c }).myTile.sq.length ∧
    testState.myTile.sNew.1 = testState.cc ∧ (testTile fun x => { x with sNew := (1, 0) }).myTile.sNew.1 ≠ testState.cc := by
  decide +kernel

theorem witness_StreamStarts : let c := testStream .dfil .global .scratch 0x1FFFFF 1
    let far := testStream .dfil .global .scratch 0x1FFFFF 2
    let copy := testStream .dcpy .scratch .scratch 0x1FFFFF 1
    ((testTile fun x => { x with sq := [c] }).tile 0).sq = c :: [] ∧ (testState.tile 0).sp.length < 4 ∧
    (∀ p ∈ (testState.tile 0).sp, p.op.isDpub = false) ∧ testState.slack = [] ∧ LinearScratch c ∧ LinearScratch copy ∧
    c.d[3] ≠ 0 ∧ c.src = .global ∧ 0x200000 < far.d[1].toNat + far.d[3].toNat ∧
    (let t := testTile fun x => { x with sq := [{ c with id := 4 }], sp := [c] }
     (t.tile 0).sq = { c with id := 4 } :: [] ∧ ∃ p ∈ (t.tile 0).sp, p.id + 4 ≤ { c with id := 4 }.id) ∧
    (let out := { testStream .dcpy .scratch .scratch 0x1FFFFF 2 with d := #v[0x1FFFFE, 0x1FFFFF, 0, 3, 0, 0, 0, 0] }
     out.cmpl = .none ∧ out.d[2] = 0 ∧ ([out.d[0], out.d[1]].filterMap fun (x : DWord) =>
       if 0x200000 < x.toNat + out.d[3].toNat then some (max x.toNat 0x200000) else none).min? = some 0x200000) := by
  simp only [LinearScratch]; decide +kernel

theorem witness_StreamBytes : let c := testStream .dcpy .scratch .scratch 0x1FFFFF 1
    let s := testTile fun x => { x with sp := [c] }
    let w := { testStream .dunf .scratch .scratch 128 4 with desc := testUnfold, row := 1 }
    let u := unfoldOf w.desc
    (s.tile 0).inProgress 0 = some c ∧ LinearScratch c ∧ PlainScratch s 0 ∧ (s.strand 0 0).rels = [] ∧
    c.d[0].toNat + c.d[3].toNat ≤ c.d[1].toNat ∧
    ((testTile fun x => { x with sp := [w] }).tile 0).inProgress 0 = some w ∧ u.ok = true ∧ u.depth ≤ w.row ∧
    (testState.ctrGet (dieOf 0) u.cred).toNat < w.c0.toNat + w.row - u.depth + 1 ∧ { w with row := 0 }.row < u.depth ∧
    w.d[0].toNat + (u.h - 1) * u.istr + u.w * u.cb ≤ 0x200000 ∧
    w.d[0].toNat + (u.h - 1) * u.istr + u.w * u.cb ≤ w.d[1].toNat + w.row % u.depth * u.pitch := by
  simp only [LinearScratch, PlainScratch]; decide +kernel

theorem witness_ArriveAndPublish :
    let w := testMe fun x => { x with block := some (.arrival 16 0) }
    let init := testStream (.dpub true 1) .scratch .scratch 256 128
    let swap := testStream (.dpub false 1) .scratch .scratch 256 128
    let p : Pair := ⟨0, 256, 128, false⟩
    let s := testTile fun x => { x with sp := [swap], pairs := [(1, p)] }
    PlainScratch w 0 ∧ (w.strand 0 0).block = some (.arrival 16 0) ∧ (w.strand 0 0).wake = false ∧
    genReached ((w.tile 0).genAt 16) 0 = true ∧
    ((testTile fun x => { x with sp := [init] }).tile 0).inProgress 0 = some init ∧ init.cmpl = .none ∧ init.op = .dpub true 1 ∧
    (testState.strand 0 0).rels = [] ∧ (s.tile 0).inProgress 0 = some swap ∧ swap.op = .dpub false 1 ∧
    (s.tile 0).pairs = [(1, p)] ∧ (s.tile 0).strmReads p s.cc = none ∧ p.base + p.len ≤ p.alt := by
  simp only [PlainScratch]; decide +kernel

theorem witness_KilnWords : let k := testKiln .upcf (Vector.replicate 8 0)
    let point := testMe fun x => { x with splitGen := some 3 }
    (testState.cluster testState.myCluster).kq.length < 8 ∧ testState.bun.checked = false ∧
    8 ≤ ((testCluster fun x => { x with kq := List.replicate 8 k }).cluster 0).kq.length ∧
    ((testG 1 16).me.readG 1).toNat ≤ 16 ∧ 16 < ((testG 1 17).me.readG 1).toNat ∧
    (point.me.splitGen = some 3 ∧ (point.cluster point.myCluster).lastSplitGen = none) ∧ testState.me.splitGen = none := by
  decide +kernel

theorem witness_KilnRuns : let cfg := testKiln .upcf (Vector.replicate 8 0)
    let dm := testKiln (.updm false) #v[0, 0, 0, 128, 0, 0, 1, 0]
    let many := testKiln (.updm false) #v[0, 0, 0, 0, 0, 0, 16777217, 0]
    let s (k : KCmd) := testCluster fun x => { x with cw := 15, kq := [k] }
    ((s cfg).cluster 0).krun = none ∧ ((s cfg).cluster 0).kq = cfg :: [] ∧ cfg.n[2].toNat < 2 ^ 16 ∧
    2 ^ 16 ≤ (testKiln .upcf (Vector.replicate 8 65536)).n[2].toNat ∧ ((s dm).cluster 0).busy = false ∧
    (PlainKiln ((s dm).cluster 0) dm ∧ (s dm).slack = [] ∧ ((s dm).strand 0 0).rels = []) ∧
    PlainKiln ((s dm).cluster 0) { dm with bf := true } ∧
    (codeFinite 24 0x3F800000 ∧ codeFinite 24 0x40000000) ∧
    (let k := { testKiln .upmo #v[0, 0, 0, 0, 0, 0, 1, 0x10000FFFF] with cnt := true }
     k.err = none ∧ k.n[7].toNat % 2 ^ 24 < 65536 ∧ (testState.ctrGet 0 65535).toNat + k.n[7].toNat / 2 ^ 32 < 2 ^ 64) ∧
    (many.op = .updm false ∧ many.n[0].toNat % 2 = 0 ∧ many.n[3].toNat % 4 = 0 ∧ 16777216 < many.n[6].toNat) ∧
    ((testCluster fun x => { x with krun := some dm }).cluster 0).krun = some dm ∧ dm.cnt = false := by
  simp only [PlainKiln, codeFinite]; decide +kernel

/-- A kiln command with moments at the end of page 0. -/
def testMoment (op : KOp) : KCmd := testKiln op #v[0, 0, 0, 128, 0xFFFC, 0xFFF8, 1, 0]
/-- `testTlb` whose cluster 0 has a store. -/
def testStore : State := (testTlb 0 false).onCluster 0 fun x => { x with cw := 15 }

theorem witness_KilnRuns_moments : ∀ w op, (w, op) ∈ [(false, KOp.updm true), (true, .upmo)] →
    PlainKiln (testStore.cluster 0) (testMoment op) ∧
    MomentsAt testStore 0 (testMoment op) w (fun _ => 0x5FFFC) (fun _ => 0x5FFF8) := by
  intro w op h
  have one : (testMoment op).n[6].toNat = 1 := rfl
  have cases : (w = false ∧ op = .updm true) ∨ (w = true ∧ op = .upmo) := by simpa using h
  refine ⟨?_, ?_⟩
  · obtain ⟨rfl, rfl⟩ | ⟨rfl, rfl⟩ := cases <;> simp only [PlainKiln] <;> decide +kernel
  · have at4 : (testMoment op).n[4] = 0xFFFC := rfl
    have at5 : (testMoment op).n[5] = 0xFFF8 := rfl
    simp only [MomentsAt, one, at4, at5]
    refine ⟨by decide, by decide, by decide +kernel, by decide +kernel, by decide +kernel, by decide, by decide, ?_, ?_, ?_, ?_⟩
    · intro i hi a ha
      obtain rfl : i = 0 := by omega
      simp only [List.mem_cons, List.not_mem_nil, or_false] at ha
      obtain rfl | rfl := ha <;> decide +kernel
    · intro i hi
      obtain rfl : i = 0 := by omega
      obtain ⟨rfl, rfl⟩ | ⟨rfl, rfl⟩ := cases <;> decide +kernel
    · intros; omega
    · intros; omega

theorem witness_SplitRuns : let p : Split := ⟨testOrg, 8⟩
    let s := testCluster fun x => { x with split := some p, splits := 1 }
    let late := s.onCluster 0 fun x => { x with
      cw := 4, kq := [testKiln (.updm false) #v[0x2000000, 0, 0, 0, 0, 0, 1, 0]] }
    (testState.cluster 0).split = none ∧ (s.cluster 0).split = some p ∧ s.splitWaits 0 p.wn = false ∧ s.slack = [] ∧
    late.splitWaits 0 p.wn = true ∧ (∃ i, i < 32 ∧ (testState.cluster (32 * 0 + i)).cw ≠ 0) := by
  decide +kernel

theorem witness_QuiltWords :
    let s := testMe fun x => { x with q := #v[0, 0x1FEFC0, 0, 65536, 32, 0, 0, 0] }
    let dom := testTile fun x => { x with qdoms := [(0, ⟨true, 1, 32⟩)] }
    (s.myTile.qFree ≤ s.cc ∧ (s.me.q[1].setWidth 32).toNat % 16 = 0 ∧ (s.me.q[1].setWidth 32).toNat + 16 * 260 = 0x200000) ∧
    ((∀ e, e < 4 → e = (0 : BitVec 2).toNat ∨ (1 : BitVec 4).getLsbD e = true →
      (dom.myTile.qdom e).conf = true ∧ 1 ≤ (dom.myTile.qdom e).div) ∧
      ((4095 : BitVec 12).toNat + 1) * (dom.myTile.qdom 0).div ≤ 65536) ∧
    (1 ≤ s.me.q[3].toNat ∧ s.me.q[3].toNat ≤ 65536 ∧ 8 ≤ s.me.q[4].toNat ∧ s.me.q[4].toNat ≤ 32) ∧
    testState.me.q[3].toNat = 0 ∧ testState.cc < (testTile fun x => { x with qFree := 1 }).myTile.qFree ∧
    ((testMe fun x => { x with q := #v[0, 8, 0, 0, 0, 0, 0, 0] }).me.q[1].setWidth 32).toNat % 16 ≠ 0 ∧
    0x200000 < ((testMe fun x => { x with q := #v[0, 0x1FEFD0, 0, 0, 0, 0, 0, 0] }).me.q[1].setWidth 32).toNat + 4160 ∧
    testState.myTile.qCauseCc = testState.cc ∧ (testTile fun x => { x with qCauseCc := 1 }).myTile.qCauseCc ≠ testState.cc := by
  decide +kernel

theorem witness_QuiltRuns : let c (op : QOp) : QCmd := ⟨op, testOrg, 0, 1, 0, 0, 0, none, 0⟩
    let s (op : QOp) := testTile fun x => { x with qcmd := some (c op) }
    let done := { s .rdv with cc := 1 }
    (∀ op ∈ [QOp.pat, .ldy, .sav, .rst, .stp 0 1], ((s op).tile 0).qcmd = some (c op)) ∧
    ((c .pat).start + 0 = testState.cc ∧ 0 < (c .pat).beats) ∧ PlainScratch (s .pat) 0 ∧
    (∀ e, e < 8 → (((s (.stp 0 1)).tile 0).qdom e).n ≤ 32) ∧
    ((c .rdv).start + (c .rdv).beats ≤ done.cc ∧ (done.strand 0 0).inPanel 4 0 = false) ∧
    (let f : QFault := ⟨1, 0, 0, 0, 0⟩
     let e : QCmd := { c .ldy with fault := some f }
     let t := { testPanel.onTile 0 fun x => { x with qcmd := some e } with cc := 1 }
     (t.tile 0).qcmd = some e ∧ e.start + e.beats ≤ t.cc ∧ (t.strand 0 0).inPanel 4 0 = true ∧
     (t.strand 0 ((t.cluster 0).gangs.headD 0)).gang = .ganged ∧ (t.cluster 0).panel = some ⟨[0, 1], 0, 0, []⟩) ∧
    (∃ e ∈ (testTile fun x => { x with arr := [testArr .strm] }).tiles, e.2.sp ≠ [] ∨ e.2.arr ≠ []) := by
  simp only [PlainScratch]; decide +kernel

/-- An entry of strand 0 of tile 0 for the first byte of frame 5 of stack 0. -/
def testEnt (k : EntryKind) : Entry := ⟨k, 0, 0, 0x50000, 7, false, testOrg, []⟩
/-- A rick of die 0 that holds one entry. -/
def testRick : Rick := ⟨0, 0, 0, 2048, [⟨testEnt .store, 0, 0, 0⟩]⟩
/-- A cord of one entry to stack 0. -/
def testCord : Cord := ⟨0, 0, 0, 0, [testEnt (.ram .add)], 0⟩
/-- A remote load of one doubleword of stack 0. -/
def testRemote : RemoteLoad := ⟨0, 0, 0x50000, 1, 8, false, 3, testOrg, 9, 0, 0, List.replicate 8 none, none⟩
/-- A member of a reduction of one i32 element with itself alone. -/
def testMember (phase : MlrPhase) : MlrMember :=
  ⟨0, true, phase, testOrg, 0, 0, 1, 0, .sum, .i32, false, 1, 0, 0, [0], 0, 65536, 0, 0, 0, 0, false, 0, 0, 0, [5], [], none⟩
/-- A barrier of tile 0's strand 0 alone. -/
def testBar (full : Bool) (due : Option Nat) : Barrier := ⟨0, false, .cluster, 0, 0, [(0, 0, false)], full, due⟩
/-- A release of one word. -/
def testRel (store : Bool) : Release := ⟨0, [⟨store, 0, 0, 0, 15, 0xAABBCCDD⟩], [], false, false, false, false, testOrg⟩
/-- A translation command of strand 0 of tile 0. -/
def testTrans (all : Bool) : TransCmd := ⟨0, false, .cluster, 0, 0, all, 0, false, 0, 0, 0, testOrg, false⟩

theorem witness_FabricWords :
    ((testG 1 4).me.readG 1).toNat % 4 = 0 ∧ ((testG 1 8).me.readG 1).toNat % 8 = 0 ∧ testState.myTile.fabCount < 16 ∧
    (testTlb 0 false).xlate (testTlb 0 false).myCluster 0xFFF8 = .hit (testEntry 0 false) false ∧
    testState.bun.checked = false ∧ ((testG 1 2).me.readG 1).toNat % 4 ≠ 0 ∧
    16 ≤ (testTile fun x => { x with fq := List.replicate 16 (.flush true 0 testOrg) }).myTile.fabCount ∧
    testState.myTile.rfq = [] ∧
    (let det := testLaunch fun l => { l with det := true }
     det.det = true ∧ ¬(det.det = true ∧ MlrOp.sum = .sum ∧ MlrType.i32 ≠ .i32 ∧ false = false)) ∧
    (let full := testTile fun x => { x with fq := List.replicate 16 (.flush true 0 testOrg) }
     full.fabPops 0 = true ∧ (full.onMyTile fun x => { x with fqCc := 1 }).fabPops 0 = false) ∧
    (testTile fun x => { x with rfq := [⟨0, 0, 1, 2, false, 1, 0, 0, 0, 0⟩] }).myTile.rfq.head? =
      some ⟨0, 0, 1, 2, false, 1, 0, 0, 0, 0⟩ := by decide +kernel

theorem witness_FabricQueues :
    let item : FabItem := .entry .store 0 7 false testOrg 0
    let q (i : FabItem) (ro : Bool) := (testTlb 1 ro).onMyTile fun x => { x with fq := [i] }
    let r := (q item false).onDie 0 fun x => { x with ricks := [testRick] }
    0 < ((testTile fun x => { x with fqCc := 1 }).tile 0).fqCc ∧
    (∀ ro ∈ [true, false], let s := q item ro
      (s.tile 0).fqCc ≤ s.cc ∧ (s.tile 0).fq = item :: [] ∧ testOrg.tile = 0 ∧
      s.xlate (clusterOf 0) 0 = .hit (testEntry 1 ro) false ∧ stnOf (testEntry 1 ro).peer ≤ 7 ∧
      s.absent (testEntry 1 ro).peer = false ∧ (s.strand 0 0).rels = [] ∧ (s.tile 0).rfq.length < 16 ∧
      (∀ x ∈ (s.die 0).ricks, x.peer ≠ 0) ∧
      (s.die 0).ricks.length + (if (s.die 0).freed.1 = s.cc then (s.die 0).freed.2 else 0) < 128) ∧
    ((r.die 0).ricks = [testRick] ∧ testRick.peer = 0 ∧ testRick.launch = r.queueOf 0 ∧ testRick.aged r.cc = false ∧
      testRick.entries.length < 31 ∧ (testEnt .store).kind = .store) ∧
    ((q (.flush true 0 testOrg) false).tile 0).fq = .flush true 0 testOrg :: [] ∧ testRick.holds 0 0 = true ∧
    (r.die 0).ricks.find? (·.id == 0) = some testRick ∧ r.slack = [] ∧
    ∀ x ∈ (testState.die 0).ricks, x.id ≠ 0 := by decide +kernel

theorem witness_FabricHomes :
    let c := { testCord with id := 1 }
    let held : State := { testState with agenda := [(0, .cordPerform testCord)] }
    let two : Cord := { testCord with entries := [testEnt .store, { testEnt (.ram .add) with dbl := true }] }
    let r : RemoteLoad := { testRemote with sent := some (1, 9) }
    let far : State := { testState with extent := (4, 1, 1) }
    (0 < packetDue (.load r) ∧ testState.cc < packetDue (.load r)) ∧
    ((0, Event.cordPerform testCord) ∈ held.agenda ∧ packetOf (Event.cordPerform testCord) = some (.cord testCord) ∧
      packetDie (.cord testCord) = packetDie (.cord c) ∧ packetPeer (.cord testCord) = packetPeer (.cord c) ∧
      packetId (.cord testCord) < packetId (.cord c)) ∧
    (packetDie (.cord testCord) = packetDie (.load r) ∧ packetPeer (.cord testCord) = packetPeer (.load r) ∧
      packetId (.cord testCord) < packetId (.load r) ∧ r.sent.isSome ∧ testRemote.sent = none) ∧
    (∀ x ∈ testState.agenda, packetOf x.2 = none) ∧ testState.ownPackage two.peer = true ∧ (testState.die 0).bad = [] ∧
    (testState.die 0).mem.wf = true ∧ (∀ e ∈ two.entries, e.kind ≠ .cadd ∧ e.also = [] ∧ testState.shared 0 e.off = false ∧
      (testState.strand e.org.tile e.org.strand).rels = []) ∧
    (testState.slack = [] ∧ testState.ownPackage r.peer = true ∧ 1 ≤ r.size) ∧
    (far.absent 0x20 = false ∧ far.absent (far.peerOf 0) = false ∧ far.portTo 0x20 = some 0 ∧ far.portTo 0x30 = some 1) := by
  decide +kernel

/-- `testTlb` with one member of a reduction. -/
def testMlr (m : MlrMember) : State := { testTlb 0 false with mlrs := [m] }

/-- A member alone stands together with itself. -/
theorem test_together (l : List MlrMember) (m : MlrMember) (h : l = [m]) (hm : m.members = [m.peer]) : MlrTogether l m := by
  subst h
  refine ⟨by simp, by simp [hm], ?_, ?_⟩
  · intro x hx p
    rw [specParts, List.mem_filter, List.mem_singleton] at hx
    rw [hx.1]
  · intro x hx _ _ _ hp
    rw [List.mem_singleton] at hx
    exact absurd (by simp [hx, hm]) hp

/-- The members that stand in `testState` once one has joined. -/
def testJoin : List MlrMember := testState.mlrs ++ [testMember .joined]

theorem test_join : testJoin = [testMember .joined] := by decide +kernel

theorem test_parts : specParts [testMember .joined] (testMember .joined) = [testMember .joined] := by decide +kernel

theorem witness_CollectiveRuns_join :
    MlrTogether testJoin (testMember .joined) ∧ (∀ x ∈ specParts testJoin (testMember .joined), x.phase = .joined) ∧
    (∀ p ∈ (testMember .joined).members, ∃ y ∈ specParts testJoin (testMember .joined), y.peer = p) ∧
    (∀ x ∈ specParts testJoin (testMember .joined), ∀ y ∈ specParts testJoin (testMember .joined), mlrAgrees x y = true) ∧
    (∀ p ∈ (testMember .joined).members, (p, (testMember .joined).tag, (testMember .joined).round) ∉ testState.mlrFailed) ∧
    (testState.slack = [] ∧ testState.between 0 0 ≤ 128) := by
  rw [test_join, test_parts]
  refine ⟨test_together [testMember .joined] _ (Eq.refl _) (Eq.refl _), ?_, ?_, ?_, ?_, by decide +kernel, by decide +kernel⟩ <;>
    try simp only [List.mem_singleton]
  · rintro x rfl; decide
  · intro p hp
    obtain rfl : p = 0 := by simpa [testMember] using hp
    exact ⟨_, rfl, rfl⟩
  · rintro x rfl y rfl; decide +kernel
  · intro p hp
    obtain rfl : p = 0 := by simpa [testMember] using hp
    decide +kernel

theorem witness_CollectiveRuns :
    let m := testMember .joined
    let r := testMember .resolved
    (∀ x ∈ testState.mlrs ++ [m], x.tag = m.tag → x.round = m.round → x.phase = .failed ∨ x.peer ≠ 1) ∧
    (testMlr m).mlrs.find? (·.id == m.id) = some m ∧ (testMlr r).mlrs.find? (·.id == r.id) = some r ∧
    (testMember .failed).local_ = true ∧
    (r.phase = .resolved ∧ r.local_ = true ∧ r.cpl = false ∧ r.fail = none ∧ r.dst.toNat % 4 = 0) ∧
    (testMlr r).xlate (clusterOf 0) 0 = .hit (testEntry 0 false) false ∧ r.dst.toNat + 4 * r.n ≤ 2 ^ 52 ∧
    (testMlr r).ownPackage 0 = true ∧ (testMlr r).absent 0 = false ∧ stnOf (0 : BitVec 16) = dieOf r.org.tile ∧
    ((testMlr r).die 0).holders = [] ∧ ((testMlr r).die 0).bad = [] ∧ ((testMlr r).die 0).mem.wf = true := by
  decide +kernel

theorem witness_CollectiveRuns_together : MlrTogether (testMlr (testMember .resolved)).mlrs (testMember .resolved) :=
  test_together _ _ rfl rfl

theorem witness_SyncWords :
    testState.ctrOk testState.myDie 65535 = true ∧ testState.ctrOk testState.myDie 65536 = false ∧
    (testDie fun x => { x with ctrNfr := 1 }).ctrOk 0 65536 = true ∧ testState.myTile.yq.length < 8 ∧
    8 ≤ (testTile fun x => { x with yq := List.replicate 8 ⟨0, 1, testOrg, none, false⟩ }).myTile.yq.length ∧
    testState.bun.checked = false ∧ testState.myTile.fabCount < 16 ∧ (testState.ctrGet 0 0).toNat = 0 ∧
    testState.me.rels = [] ∧ (testMe fun x => { x with rels := [testRel true] }).me.rels ≠ [] ∧
    (0x1FFFF0 % 16 = 0 ∧ 0x1FFFF0 + 16 ≤ 0x200000) ∧ testState.myTile.pairs = [] ∧ testState.myTile.scratch.wf = true ∧
    genReached (testState.myTile.genAt 0x1FFFF0) 0 = true ∧ genReached (testState.myTile.genAt 0x1FFFF0) 1 = false ∧
    SMap.find (testMe fun x => { x with barPassed := [(0, 4)] }).me.barPassed (Machine.scopeCode .cluster) = some 4 ∧
    SMap.find testState.me.barPassed (Machine.scopeCode .cluster) = none ∧ testState.me.mismatch = false ∧
    testState.me.outst = [] ∧
    (∃ o ∈ (testMe fun x => { x with outst := [⟨2, 0, false, none, false⟩] }).me.outst, ∃ i < 6, (1 : BitVec 8).getLsbD i = true ∧
      o.engine = fenEngine i) := by decide +kernel

theorem witness_Releases :
    let s := testMe fun x => { x with owned := [⟨true, 0, 0, 0, 15, 7⟩] }
    let t (b : Bool) := testMe fun x => { x with rels := [testRel b] }
    (s.me.owned ≠ [] ∧ s.slack = [] ∧ s.myTile.fq = [] ∧ s.me.rels = []) ∧
    (∀ b ∈ [true, false], ((t b).strand 0 0).rels = [testRel b] ∧ (testRel b).written = false ∧ (testRel b).entries = [] ∧
      (testRel b).halts = false ∧ (t b).bars = [] ∧ ((t b).tile 0).yq = [] ∧ ((t b).die 0).mem.wf = true ∧
      ((t b).die 0).bad = [] ∧ ((t b).die 0).holders = [] ∧ ((t b).cluster (clusterOf 0)).store.wf = true) ∧
    (∀ w ∈ (testRel false).words, w.store = false ∧ w.die = 0) ∧ ∀ w ∈ (testRel true).words, w.store = true := by
  decide +kernel

theorem witness_SyncRuns :
    let w := testMe fun x => { x with block := some (.counter 3 1) }
    let s (b : Barrier) : State := { testState with bars := [b] }
    let o : Barrier := { testBar false none with joined := [] }
    let k : Walk := ⟨0, 0, some (testEntry 0 false), 0, 0⟩
    let c := testCluster fun x => { x with walks := [k] }
    (w.strand 0 0).block = some (.counter 3 1) ∧ (w.strand 0 0).wake = false ∧ (testState.tile 1).running = none ∧
    (testState.ctrGet 0 3).toNat + (1 : DWord).toNat < 2 ^ 64 ∧ testState.ctrOk 0 65536 = false ∧
    2 ^ 64 ≤ ((testDie fun x => { x with counters := [(3, BitVec.allOnes 64)] }).ctrGet 0 3).toNat + (1 : DWord).toNat ∧
    ((s (testBar true none)).bars.find? (·.id == 0) = some (testBar true none) ∧ testState.parked 0 = false ∧
      (∀ j ∈ (testBar true none).joined, (testState.strand j.1 j.2.1).rels = []) ∧
      ∀ j ∈ (testBar true none).joined, j.2.2 = false) ∧
    (o.full = false ∧ ∃ p ∈ (s o).participants o, ∀ j ∈ o.joined, (j.1, j.2.1) ≠ p) ∧
    ((testBar true (some 0)).due = some 0 ∧ testState.launch 0 = some (fetchLaunch 0)) ∧
    (c.cluster 0).walking 0 = some k ∧ (c.cluster 0).lookup 0 = none ∧ (c.cluster 0).tlb.length < 4096 ∧
    ((testCluster fun x => { x with walks := [⟨0, 0, none, 7, 3⟩] }).cluster 0).walking 0 = some ⟨0, 0, none, 7, 3⟩ := by
  decide +kernel

theorem witness_SystemWords :
    testState.bun.checked = false ∧ testState.me.trap.priv = false ∧ SysReg.efrv ≠ .waypart ∧
    testPriv.me.trap.priv = true ∧ testPriv.me.trap.inh = true ∧
    (testMe fun x => { x with trap := { x.trap with priv := true } }).me.trap.inh = false ∧ testState.slack = [] ∧
    specStops testState .strand 0 0 0 ∧ specStops testState .tile 0 0 0 ∧ specStops testState .launch 0 0 0 ∧
    (0 : DWord).toNat ≤ testState.cc ∧ testState.cc < (1 : DWord).toNat ∧
    testState.queueReady testState.bun.tile 15 = false ∧
    (0x1FFFC0 % 64 = 0 ∧ 0x1FFFC0 + 64 ≤ 0x200000 ∧ 0x200000 < 0x200000 + 64 ∧ (0x1FFFC4 % 64 ≠ 0)) := by
  simp only [specStops]; decide +kernel

theorem witness_RegisterWrites : clusterOf 0 ∈ testState.launchClusters 0 ∧
    ([SysReg.agelimit, .mlrjoin, .ctrarea, .memgov, .savepool, .bundlelimit, .stopwin, .qcfg 0].all fun r =>
      (sysFields r).any fun f => !f.ok 0 || !f.ok (BitVec.allOnes 64)) = true ∧ ofStrand .schedmode = true ∧
    ofStrand .waypart = false ∧ testPriv.me.trap.priv = true ∧ testPriv.me.fmtVLog = [] ∧ testPriv.myTile.fmtALog = [] := by
  decide +kernel

theorem witness_TranslationCommands :
    let top : DWord := 0xFFFFFFFFF0000
    testPriv.me.trap.priv = true ∧ testPriv.bun.checked = false ∧
    (top.toNat < 2 ^ 52 ∧ top.toNat % 2 ^ 16 = 0) ∧ ¬(top.toNat % 2 ^ 17 = 0) ∧ ¬((2 : DWord) ^ 52).toNat < 2 ^ 52 ∧
    testPriv.myTile.tq < 4 ∧ 4 ≤ (testPriv.onMyTile fun x => { x with tq := 4 }).myTile.tq ∧
    ((testState.ctrOk (dieOf 0) 0 = true ∧ (testState.ctrGet 0 0).toNat + 1 < 2 ^ 64) ∧ (testState.strand 0 0).rels = []) ∧
    (testTrans true).cnt = false ∧ testState.agenda = [] ∧
    (∃ e ∈ testRick.entries, e.ctx = (testTrans true).ctx ∧ e.xgen ≠ { testTrans true with xgen := 1 }.xgen) ∧
    (let s := testMe fun x => { x with rels := [testRel true] }
     let c : TransCmd := { testTrans true with cnt := true, gate := 1 }
     (∃ x ∈ (s.strand c.org.tile c.org.strand).rels, x.id < c.gate) ∧ ¬∃ x ∈ (testState.strand 0 0).rels, x.id < c.gate) := by
  decide +kernel

/-- A machine whose strand 0 of tile 0 owns one word of page 0, which its cluster's TLB maps. -/
def testOwn (m : BitVec 2) : State :=
  { State.reset with
    tiles := [(0, { Tile.reset with strands := [(0, { Strand.reset 0 with owned := [⟨false, 0, 0, 0, 15, 7⟩] })] })]
    clusters := [(0, { Cluster.reset with tlb := [testEntry m false] })] }

theorem test_own (m : BitVec 2) : ∀ n k, ¬(n = 0 ∧ k = 0) → ((testOwn m).strand n k).owned = [] := by
  intro n k h
  by_cases hn : n = 0
  · by_cases hk : k = 0
    · exact absurd ⟨hn, hk⟩ h
    · subst hn
      simp [testOwn, State.strand, State.tile, Tile.strand, SMap.get, Ne.symm hk, Strand.reset]
  · simp [testOwn, State.strand, State.tile, Tile.strand, SMap.get, Ne.symm hn, Tile.reset, Strand.reset]

theorem witness_TranslationCommands_covered : let c := testTrans true
    (∀ n k, ¬(n / 256 = 0 ∧ ∃ w ∈ (State.reset.strand n k).owned, specCoversWord State.reset c n w)) ∧
    (((testOwn 0).strand 0 0).owned = [⟨false, 0, 0, 0, 15, 7⟩] ∧ specCoversWord (testOwn 0) c 0 ⟨false, 0, 0, 0, 15, 7⟩ ∧
      (testOwn 0).engXlate 0 0 = .ok (testEntry 0 false)) ∧
    ∀ n k, ((testOwn 0).strand n k).owned ≠ [] → n = 0 ∧ k = 0 := by
  refine ⟨?_, ?_, fun n k h => by_contra fun g => h (test_own 0 n k g)⟩
  · rintro n k ⟨-, w, hw, -⟩
    exact absurd hw (by simp [State.strand, State.tile, State.reset, SMap.get, Tile.strand, Tile.reset, Strand.reset])
  · simp only [specCoversWord]; decide +kernel

/-- `testState` with its launch in a phase and what it needs to be admitted: a pool of save areas on die 0 (R289). -/
def testPhase (p : Phase) : State := (testLaunch fun l => { l with phase := p }).onDie 0 fun x => { x with poolEn := true }
/-- The launch of `testPhase`. -/
def testRun (p : Phase) : Launch := { fetchLaunch 0 with phase := p }
/-- The bytes of a launch record of one unit on cluster 0, whose strand 0 runs (Table SCH-2). -/
def testRecord : Memory := [(24, 1), (28, 2), (29, 4)]
/-- A package whose queue 0 has one launch submitted (R283, R284). -/
def testQueue : State :=
  { State.reset with
    ready := 8, qcfg := [(0, ⟨true, 0, 0, 5⟩)]
    dies := [(0, { Die.reset with mem := testRecord, counters := [(5, 1)] })] }

theorem witness_RegionWords :
    let s (ro : Bool) (mem : Memory) := ((testPriv.onCluster 0 fun x => { x with tlb := [testEntry 0 ro] }).onMe fun x =>
      x.writeG 1 0xB800).onDie 0 fun x => { x with mem := mem }
    let odd := (testPriv.onMe fun x => x.writeG 1 64)
    let v : Memory := [(0x50000 + 0xB800 + 0x177, 0x80)]
    (odd.me.trap.priv = true ∧ odd.bun.checked = false ∧ (odd.me.readG 1).toNat % 128 ≠ 0) ∧
    (∀ ro ∈ [true, false], let va := ((s ro []).me.readG 1).toNat
      va % 128 = 0 ∧ va < 2 ^ 52 ∧ va % 65536 + 0x4800 = 65536 ∧ (s ro []).me.trap.priv = true ∧
      ((s ro []).cluster (s ro []).myCluster).lookup (va / 65536) = some (testEntry 0 ro) ∧ (s ro []).ownPackage 0 = true ∧
      (s ro []).absent 0 = false ∧ ((s ro []).die 0).bad = [] ∧ ((s ro []).die 0).holders = [] ∧ ((s ro v).die 0).mem.wf = true) ∧
    (let w := testMe fun x => { x with regionDue := some 0 }
     (∃ c, w.me.regionDue = some c ∧ c ≤ w.cc) ∧ testState.me.regionDue = none) ∧
    (((s false []).die 0).mem.read 0x5B977).getLsbD 7 = false ∧ (((s false v).die 0).mem.read 0x5B977).getLsbD 7 = true := by
  decide +kernel

theorem witness_Traps :
    let f := testState.flush 0 0
    let h := testMe fun x => { x with trap := { x.trap with en := true } }
    let node (b : Nat) := testMe fun x => { x with node := some ⟨1, 0, 0, b, none, false⟩ }
    let idle := testTile fun x => { x with running := none }
    let none_ := idle.onMe fun x => { x with started := false }
    ((f.tile 0).pairs = [] ∧ (f.tile 0).scratch.wf = true ∧ (f.strand 0 0).trap.en = false) ∧
    (((h.flush 0 0).strand 0 0).trap.en = true ∧ ((h.flush 0 0).strand 0 0).trap.inh = false) ∧
    ((f.die 0).healthQ.recs.length < 32 ∧ (f.tile 0).launch = some 0 ∧ f.launch 0 = some (fetchLaunch 0)) ∧
    (∀ b ∈ [0, 1], let x := (node b).strand 0 0
      (node b).launchOf 0 = some (fetchLaunch 0) ∧ (fetchLaunch 0).unbound = false ∧ x.stopped = .no ∧ x.halted = false ∧
      x.hold = none ∧ x.thermal = false ∧ x.gang ≠ .ganged ∧ x.node = some ⟨1, 0, 0, b, none, false⟩) ∧
    testState.cc < 0 + 1 ∧ 0 + 0 ≤ testState.cc ∧
    ((testMe fun x => { x with gang := .waiting }).flush 0 0 |>.strand 0 0).gang = .waiting ∧
    (let held := (node 0).onStrand 0 0 fun x => { x with hold := some .split }
     let lead := (node 0).onStrand 0 0 fun x => { x with gang := .ganged }
     (held.strand 0 0).hold = some .split ∧ (held.strand 0 0).gang ≠ .ganged ∧ (lead.strand 0 0).gang = .ganged ∧ 0 % 8 = 0) ∧
    ((idle.tile 0).running = none ∧ (idle.tile 0).unitOn = true ∧ (idle.tile 0).saving ≠ .deep ∧
      (∃ i < 4, idle.canRun 0 (((idle.tile 0).last + 1 + i) % 4) = true ∧
        ∀ j, j < i → idle.canRun 0 (((idle.tile 0).last + 1 + j) % 4) = false)) ∧
    ∀ j, j < 4 → none_.canRun 0 j = false := by decide +kernel

theorem witness_SuperstepRuns :
    let u : TestUnit := ⟨11, 0, 0, 0⟩
    let s (f : Launch → Launch) (t : List TestUnit) : State := { testLaunch f with tests := t }
    let edge := fun l : Launch => { l with edge := some 0 }
    let held (r : Nat) := fun l : Launch => { l with heldTo := some 0, idleRun := r }
    testState.launch 0 = some (fetchLaunch 0) ∧ (fetchLaunch 0).uses u = true ∧
    ((s edge [u]).tests.any (edge (fetchLaunch 0)).uses = true ∧ (s edge []).tests.any (fetchLaunch 0).uses = false) ∧
    ((edge (fetchLaunch 0)).active = true ∧ (edge (fetchLaunch 0)).idleRun < 16 ∧
      (edge (fetchLaunch 0)).edge = some testState.cc ∧ (testState.die (testState.slotHome 0).1).bad = []) ∧
    (fetchLaunch 0).heldTo ≠ some testState.cc ∧ (held 15 (fetchLaunch 0)).heldTo = some testState.cc ∧
    (let later : State := { testLaunch (held 16) with riseAt := 5 }
     later.launch 0 = some (held 16 (fetchLaunch 0)) ∧ later.cc < later.riseAt) ∧
    (held 15 (fetchLaunch 0)).idleRun < 16 ∧ 16 ≤ (held 16 (fetchLaunch 0)).idleRun ∧
    (testState.tests = [] ∧ testState.wantIdle = 0 ∧ testState.riseAt ≤ testState.cc ∧ testState.wantMhz = none) := by
  decide +kernel

theorem witness_TimingInputs :
    let serial := testLaunch fun l => { l with runs := 2 }
    let atEdge := testLaunch fun l => { l with edge := some 0 }
    let off := testLaunch fun l => { l with phase := .taken }
    let g := (testState.die 0).gov
    let bad := testDie fun x => { x with bad := [0] }
    let late : State := { testState with late := true, power := { testState.power with msAt := 1 } }
    serial.serial = true ∧ testState.serial = false ∧ off.aligned = true ∧ testState.aligned = false ∧
    atEdge.launch 0 = some { fetchLaunch 0 with edge := some 0 } ∧ (fetchLaunch 0).active = true ∧
    ((testState.die 0).hot = false ∧ g.hold = false ∧ g.wmin.toNat ≤ g.wcur.toNat ∧ g.wcur.toNat ≤ g.wmax.toNat ∧
      g.lo.toNat < g.hi.toNat ∧ (testState.die 0).corrected < g.lo.toNat) ∧
    (testDie fun x => { x with hot := true }).die 0 ≠ testState.die 0 ∧
    (testState.die 0).bad.contains (testState.die 0).scrub = false ∧ (bad.die 0).bad.contains (bad.die 0).scrub = true ∧
    (WholeLines (testState.die 0) ∧ (testState.die 0).mem.wf = true) ∧ (1100 ∈ specSteps7 ∧ 825 ∉ specSteps7 ∧ testState.mhz ∈ specSteps7) ∧
    ((∀ e ∈ late.agenda.head?, late.horizon ≤ e.1) ∧ late.late = true ∧ late.power.msAt ≤ late.cc + 1) ∧
    (testState.power.limited = false ∧ testState.power.fallFree = false) := by
  simp only [WholeLines]; decide +kernel

theorem witness_LaunchTakes :
    let s := testQueue
    let r := launchRecOf (leNat (s.memRead 0 0 128))
    let ad := testPhase .taken
    let cold := testLaunch fun l => { l with phase := .taken, img := .empty }
    let high : State := { ad with agenda := [(13, .admission 4)] }
    let low : State := { ad with launches := [(0, testRun .running), (4, testRun .taken)] }
    (s.ready.getLsbD 3 = true ∧ (s.queueCfg 0).en = true ∧ s.launch 0 = none ∧ s.ctrOk 0 5 = true ∧
      SMap.get 0 s.qtaken 0 < (s.ctrGet 0 (s.queueCfg 0).scid.toNat).toNat) ∧
    (s.recordOk r = true ∧ r.wucount = 1) ∧ s.recordOk { r with wucount := 65537 } = false ∧ State.reset.launch 0 = none ∧
    ad.launch 0 = some (testRun .taken) ∧ (testRun .taken).phase = .taken ∧ ad.serial = false ∧ ad.aheadPending 0 = false ∧
    high.aheadPending 0 = true ∧ (cold.readImage (fetchLaunch 0).desc = none ∧ (testRun .taken).img.code ≠ []) ∧
    (ad.resourcesOk (testRun .taken) = true ∧ (testLaunch fun _ => testRun .taken).resourcesOk (testRun .taken) = false) ∧
    ad.holders 0 (testRun .taken) = [] ∧ (testRun .taken).desc.fabshare + ad.shares ≤ 65536 ∧
    (low.holders 4 (testRun .taken)).all (fun r => r.1 / 4 < 4 / 4) = true ∧ low.holders 4 (testRun .taken) ≠ [] ∧
    (low.launch 0 = some (testRun .running) ∧ (testRun .running).preempted = false) := by decide +kernel

theorem witness_LaunchUnits :
    let two := testLaunch fun l => { l with desc := { l.desc with wucount := 2 } }
    let done := testMe fun x => { x with halted := true }
    let idle := testTile fun x => { x with unitOn := false }
    let again : State := { testState with launches := [(0, { testRun .admitted with runs := 1 }), (1, testRun .running)] }
    (testRun .running).phase ≠ .admitted ∧ (∃ r ∈ again.launches, r.1 ≠ 0 ∧ (r.2.active = true ∨ r.2.phase = .admitted)) ∧
    (testPhase .admitted).launch 0 = some (testRun .admitted) ∧
    (∀ r ∈ (testPhase .admitted).launches, r.1 ≠ 0 → r.2.active = false ∧ r.2.phase ≠ .admitted) ∧
    (∃ n ∈ (fetchLaunch 0).tiles, (testState.tile n).unitOn = true) ∧ idle.launch 0 = some (fetchLaunch 0) ∧
    (fetchLaunch 0).phase = .running ∧ (∀ n ∈ (fetchLaunch 0).tiles, (idle.tile n).unitOn = false) ∧
    ((idle.tile 0).retired = false ∧ (idle.tile 0).isolated = false ∧ (fetchLaunch 0).desc.strands ≠ 0) ∧
    (testState.strand 0 0).finished = false ∧
    ((done.tile 0).unitOn = true ∧ (∀ k, k < 4 → (done.strand 0 k).finished = true) ∧ (done.tile 0).launch = some 0) ∧
    (∀ u ∈ (fetchLaunch 0).tiles, u ≠ 0 → (done.tile u).unitOn = false) ∧
    ((fetchLaunch 0).desc.wucount ≤ (fetchLaunch 0).unit + 1) ∧
    two.launch 0 = some { fetchLaunch 0 with desc := { (fetchLaunch 0).desc with wucount := 2 } } := by decide +kernel

theorem witness_LaunchEnds :
    let ok : Launch := { fetchLaunch 0 with endCode := some 2 }
    let bad : Launch := { ok with recorded := 1, reexec := true }
    let s := testTile fun x => { x with saved := true }
    let stopping : State := { s.onCluster 0 fun x => { x with saved := true } with launches := [(0, testRun .stopping)] }
    let rest := stopping.onTile 0 fun x => { x with saved := true }
    let all := (List.range 8).foldl (fun (y : State) n => y.onTile n fun x => { x with saved := true }) rest
    let whole := (testPhase .stopped).onDie 0 fun x => { x with mem := [(296 * 65536, 1)] }
    let open_ := s.onTile 1 fun x => { x with unitOn := true, saving := .deep }
    (testState.launch 0 = some (fetchLaunch 0) ∧ (fetchLaunch 0).endCode = none) ∧
    ((ok.recorded != 0 && ok.recorded != ok.digest) = false ∧ ok.desc.ccid < 65536 ∧ ok.desc.ecid < 65536) ∧
    ((bad.recorded != 0 && bad.recorded != bad.digest) = true ∧ bad.reexec = true ∧ bad.runs = 1 ∧ bad.desc.cstn < 8) ∧
    (testState.die 0).healthQ.recs.length < 32 ∧ (testRun .between).phase = .between ∧
    ((∀ n ∈ (fetchLaunch 0).tiles, (all.tile n).saved = true) ∧ (∀ c ∈ (fetchLaunch 0).clusters, (all.cluster c).saved = true) ∧
      all.launch 0 = some (testRun .stopping)) ∧
    ((testPhase .stopped).launch 0 = some (testRun .stopped) ∧ (testPhase .stopped).serial = false ∧
      (testPhase .stopped).holders 0 (testRun .stopped) = [] ∧ (testPhase .stopped).outranked 0 (testRun .stopped) = false ∧
      (∃ c ∈ (fetchLaunch 0).clusters, (testPhase .stopped).regionValid c = false) ∧ whole.regionValid 0 = true) ∧
    ((∃ n ∈ (fetchLaunch 0).tiles, (open_.tile n).saved = true) ∧ ∃ n ∈ (fetchLaunch 0).tiles, (open_.tile n).stopOpen = true) := by
  decide +kernel

/-- A tile of tile n whose four strands stand, as the loader keeps it. -/
def testKept (n : Nat) : Tile :=
  { Tile.reset with
    launch := some 0, saved := true, saveArea := testState.areaOf n
    strands := (List.range 4).map fun k => (k, Strand.reset k) }
/-- A stack that holds a whole region and a whole area for each tile of cluster 0 (R314, R316). -/
def testWhole : Memory :=
  ((List.range 8).map fun p => (37 * p * 65536, (1 : Byte))) ++ [(296 * 65536, 1)]
/-- A launch that has stopped, of which areas and region are whole. -/
def testStopped : State :=
  ((testPhase .stopped).onDie 0 fun x => { x with mem := testWhole }).onLaunch 0 fun l => { l with
    keptC := [(0, Cluster.reset)], keptT := (List.range 8).map fun n => (n, testKept n) }
/-- A launch that goes on, of which every tile and the cluster are saved. -/
def testSaved : State :=
  { (testState.onDie 0 fun x => { x with mem := testWhole }).onCluster 0 fun x => { x with saved := true } with
    tiles := (List.range 8).map fun n => (n, testKept n) }

theorem witness_LaunchEnds_restore :
    (∀ s ∈ [testStopped, testSaved], ∀ d, (s.die d).bad = [] ∧ (s.die d).mem.wf = true ∧ (s.die d).poolFrame ≤ 0xF5AE0) ∧
    (let l := testRun .stopped
     (fetchLaunch 0).desc.clbase + (fetchLaunch 0).desc.clcount ≤ 256 ∧ testStopped.serial = false ∧ testStopped.holders 0 l = [] ∧
     testStopped.outranked 0 l = false ∧ (testStopped.launch 0).map (·.phase) = some .stopped ∧
     (∀ c ∈ l.clusters, specWhole testStopped (c / 32) (specRegionAt testStopped c)) ∧
     (∀ n ∈ l.tiles, specWhole testStopped (n / 256) (specArea testStopped n) ∧ (testKept n).saveArea = testStopped.areaOf n ∧
       ∀ k, k < 4 → (SMap.find (testKept n).strands k).isSome)) ∧
    (let l := fetchLaunch 0
     testSaved.launch 0 = some l ∧ l.phase = .running ∧ (∀ n ∈ l.tiles, (testSaved.tile n).saved = true ∧
       (testSaved.tile n).stopOpen = false ∧ testSaved.tileDrained n = true ∧ specWhole testSaved (n / 256) (specArea testSaved n) ∧
       (testSaved.tile n).saveArea = testSaved.areaOf n ∧ ∀ k, k < 4 → (SMap.find (testSaved.tile n).strands k).isSome) ∧
     (∀ c ∈ l.clusters, (testSaved.cluster c).saving = false ∧ testSaved.clusterStopped c = false ∧
       specWhole testSaved (c / 32) (specRegionAt testSaved c))) := by
  refine ⟨fun s hs d => ?_, by simp only [specWhole]; decide +kernel, by simp only [specWhole]; decide +kernel⟩
  refine test_get (fun x : Die => x.bad = [] ∧ x.mem.wf = true ∧ x.poolFrame ≤ 0xF5AE0) Die.reset (by decide +kernel) s.dies ?_ d
  simp only [List.mem_cons, List.not_mem_nil, or_false] at hs
  obtain rfl | rfl := hs <;> decide +kernel

theorem witness_StopsAndSaves :
    let pend := testMe fun x => { x with trap := { x.trap with pend := true, deep := true } }
    let early := testMe fun x => { x with trap := { x.trap with pend := true }, stopUntil := 65536 }
    let alone : State := { testLaunch fun l => { l with reexec := true, runs := 2 } with stopwin := 5 }
    let s := testTile fun x => { x with saving := .deep }
    let busy := s.onMe fun x => { x with outst := [⟨2, 0, false, none, false⟩] }
    let due := testTile fun x => { x with saving := .deep, saveAt := some 0 }
    let c := testCluster fun x => { x with saving := true, launch := some 0 }
    ((testState.launchOf 0 = some (fetchLaunch 0) ∧ (fetchLaunch 0).reexec = false) ∧ 0 ∈ (testState.tile 0).live) ∧
    (1 ∉ (testState.tile 0).live ∧ (testState.strand 0 0).trap.pend = false ∧ (testState.strand 0 0).trap.deep = false) ∧
    ((pend.strand 0 0).trap.pend = true ∧ (pend.strand 0 0).halted = false ∧ (pend.tile 0).saveAt = none ∧
      (pend.tile 0).saved = false ∧ (pend.strand 0 0).trap.deep = true ∧ (pend.strand 0 0).stopped = .no) ∧
    ((early.strand 0 0).trap.deep = false ∧ (early.strand 0 0).stopped = .no ∧ early.cc < (early.strand 0 0).stopUntil) ∧
    ((alone.launchOf 0).map (fun l => (l.reexec, l.runs)) = some (true, 2)) ∧
    ((pend.tile 0).saving ≠ .deep ∧ ∃ j ∈ (pend.tile 0).live, (pend.strand 0 j).stopped = .no) ∧
    ((s.tile 0).saved = false ∧ (s.tile 0).saving ≠ .no ∧ (s.tile 0).saveAt = none ∧ s.tileDrained 0 = true ∧ s.slack = []) ∧
    busy.tileDrained 0 = false ∧
    ((due.tile 0).saveAt = some 0 ∧ due.areaHome (due.tile 0).saveArea = some (0, 0) ∧ (due.die 0).mem.wf = true ∧
      (due.tile 0).scratch.wf = true) ∧
    ((c.cluster 0).saving = true ∧ c.clusterDrained 0 = true ∧ (c.cluster 0).store.wf = true ∧ (c.cluster 0).launch = some 0) ∧
    (c.onCluster 0 fun x => { x with krun := some (testKiln .upmo (Vector.replicate 8 0)) }).clusterDrained 0 = false := by
  decide +kernel

theorem witness_HealthAndTests : let s (h : Nat) := testTile fun x => { x with hang := h, saving := .deep }
    ((s 1048575).tile 0).hang < 1048576 ∧ 1048576 ≤ ((s 1048576).tile 0).hang ∧ (testState.tile 0).saving = .no ∧
    (((s 0).tile 0).saving ≠ .no ∧ ((s 0).tile 0).saved = false) ∧ testState.slack = [] ∧
    (testState.launch 0 = some (fetchLaunch 0) ∧ SpecDepends testState (fetchLaunch 0) ⟨11, 0, 0, 0⟩ ∧ (fetchLaunch 0).phase ≠ .taken ∧
      ¬SpecDepends testState (fetchLaunch 0) ⟨11, 0, 8, 0⟩) ∧
    (let r := testCluster fun x => { x with saving := true }
     (r.cluster (0 / 8)).saving = true ∧ SpecCopier r 0) ∧ (testState.cluster 0).saving = false ∧
    (let held : State := { testState with ports := [(3, [0])] }
     SMap.get [] held.ports 3 ≠ [] ∧ SMap.get [] testState.ports 3 = [] ∧ 0 ∈ SMap.get [] held.ports 3) ∧
    (testState.die 0).mem.wf = true := by
  simp only [SpecDepends, SpecCopier]
  refine ⟨by decide +kernel, by decide +kernel, by decide +kernel, by decide +kernel, by decide +kernel, ⟨by decide +kernel, by norm_num; decide +kernel,
    by decide +kernel, by norm_num; decide +kernel⟩, ⟨by decide +kernel, by decide +kernel, ?_⟩, by decide +kernel, by decide +kernel,
    by decide +kernel⟩
  intro m _ h
  exact absurd h (Nat.not_lt_zero m)

theorem witness_HostMemoryAndBoot :
    let s : State := { testState with ready := 0xFF0000, booted := [.link], measured := [(0, [])] }
    let top := 2 ^ 39 - 8
    let bad := s.onDie 7 fun x => { x with bad := [2 ^ 36 - 128] }
    let held := s.onDie 0 fun x => { x with holders := [(0, [1])] }
    (top + 8 ≤ 2 ^ 39 ∧ top / 2 ^ 36 = (top + 8 - 1) / 2 ^ 36 ∧ s.ready.getLsbD (16 + top / 2 ^ 36) = true) ∧
    ¬(top + 1 + 8 ≤ 2 ^ 39) ∧ ((s.die 7).bad = [] ∧ (s.die 7).wrong = []) ∧ (s.die 7).mem.wf = true ∧ bad.isBad 7 (top % 2 ^ 36) 8 = true ∧
    held.shared 0 0xFFFF = true ∧ s.shared 0 0 = false ∧ ¬readyAfter testState .boot ∧ readyAfter s (.linkdie 1) ∧
    (∀ e ∈ s.measured, e.1 ≠ (stagePlace (.die 0)).1) ∧ (∀ i ∈ (stagePlace (.die 0)).2, ∃ e ∈ s.measured, e.1 = i) ∧
    ¬∀ e ∈ s.measured, e.1 ≠ (stagePlace .link).1 := by
  simp only [readyAfter]; decide +kernel

theorem witness_Attestation : testState.ready.getLsbD 2 = false ∧
    ({ testState with ready := 4 } : State).ready.getLsbD 2 = true := by decide +kernel

theorem witness_ManagementWindow :
    let s : State := { testState with ready := 0x100 }
    let full := s.onDie 0 fun x => { x with counters := [(5, BitVec.allOnes 64)] }
    HostReaches s 0 65535 ∧ ¬HostReaches s 0 65536 ∧ ¬HostReaches s 8 0 ∧ ¬HostReaches testState 0 0 ∧
    2 ^ 64 ≤ (full.ctrGet 0 5).toNat + (1 : DWord).toNat ∧ (s.ctrGet 0 5).toNat + (1 : DWord).toNat < 2 ^ 64 ∧
    ((0 : DWord).toNat ≤ (s.ctrGet 0 5).toNat ∧ (1 : DWord) ≠ 0 ∧ (1 : DWord).toNat ≤ (full.ctrGet 0 5).toNat) ∧
    (testState.ready.getLsbD 8 = false ∧ s.ready.getLsbD 8 = true) ∧ 4 % 8 ≠ 0 ∧ 0x10008 % 16 ≠ 0 ∧ 0x1FFF0 % 16 = 0 ∧
    ((s.die 0).memQ.popped ≠ s.cc + 1 ∧ ((s.onDie 0 fun x => { x with memQ := { x.memQ with popped := 1 } }).die 0).memQ.popped = 0 + 1) ∧
    (0x30000 ≤ 0x307F8 ∧ 0x307F8 < 0x30800 ∧ 0x307F8 % 0x100 / 0x40 ≠ 2 ∧ 0x307F8 % 8 = 0) ∧ 0x31000 % 8 = 0 ∧
    pkgAt (.qcfg 15) = some 0x1278 ∧ dieAt 7 .savepool = some 0x17138 := by
  simp only [HostReaches]; decide +kernel

theorem witness_DecodeOfEncode : wellFormed (.addImm 31 30 0x3FF [0x7FFFFFF, 1]) = true ∧
    encode true (.addImm 31 30 0x3FF [0x7FFFFFF, 1]) = some [0x803FF7FF, 0xEFFFFFFF, 0xE8000001] ∧
    (([0] : List Word).head?.all fun w => !isL w) = true := by decide +kernel

theorem witness_EncodeOfDecode : decodeOne [0x803FF7FF, 0xEFFFFFFF, 0x68000001, 0] =
    .ok (false, .addImm 31 30 0x3FF [0x7FFFFFF, 1], [0]) := rfl

theorem witness_DecodedWords : ([0] : List Word)[0]? = some 0 ∧
    (let s := testBun fun b => { b with len := 1 }
     s.bun = { s.bun with len := 1, target := none, jump := none, stall := 0, follow := false }) ∧
    (([] : List Word).head?.all fun w => !isL w) = true := by decide +kernel

/-- Words in place of those of the launch's image. -/
def testCode (ws : List Word) : State := testLaunch fun l => { l with img := { l.img with code := ws } }

theorem witness_StepRunsDecoded :
    let add := testCode [0x00220400]
    let bad := testCode [0x7FFFFFFF]
    let e : State := { testState with agenda := [(5, .governorEpoch 0)] }
    (Instr.event? (.governorEpoch 0) = some (.governorEpoch 0) ∧ e.agenda = (5, .governorEpoch 0) :: [] ∧ 5 < e.horizon) ∧
    (∀ s ∈ [add, bad], s.agenda = [] ∧ s.late = false ∧ s.nextCore = some 0 ∧
      (s.tile 0).running = some 0 ∧ (s.strand 0 0).started = true ∧ (s.strand 0 0).halted = false ∧
      (s.strand 0 0).stopped = .no ∧ (s.strand 0 0).hold = none ∧ (s.strand 0 0).gang = .no ∧ s.heldTile 0 = false ∧
      (s.strand 0 0).thermal = false ∧ (s.strand 0 0).overrun = false ∧ (s.strand 0 0).yielded = false ∧
      (s.strand 0 0).nextCc ≤ s.cc ∧ (s.strand 0 0).dueFault s.cc = none ∧ (s.strand 0 0).stopHere = false) ∧
    ((atBundle add 0 0).look 0 0 none = .go [(0, .addImm 2 0 0 [])] 1 ∧ hasNode [(0, .addImm 2 0 0 [])] = false) ∧
    ((add.image 0).code.drop 0).take 6 = 0x00220400 :: [] ∧ packetsOk 0 1 = true ∧ add.reaches 0 0 0 = true ∧
    isFirst (add.image 0).code 0 = true ∧ add.present 0 0 0 = true ∧
    checkAll [.addImm 2 0 0 []] (add.begin 0 0 1 false none) = .ok ∧
    ((bad.image 0).code.length = 1 ∧ ((atBundle bad 0 0).look 0 0 none matches .trap _) = true) ∧
    (State.reset.late = false ∧ State.reset.nextCore = none ∧ State.reset.agenda = []) := by
  decide +kernel

theorem witness_StepRunsDecoded_error : (bundleAt [0x7FFFFFFF] 0).toOption.isNone = true := by decide +kernel

theorem witness_StepRunsDecoded_fetch : (testCode [0x00220400]).fetch 0 0 = .ok ([(0, .addImm 2 0 0 [])], 1) := by
  rfl

/-- A bundle that the lead of cluster 0 has passed on. -/
def testItem : LeadBundle := ⟨0, 0, .issue, 0, Vector.replicate 8 0, 1, ⟨0, 0, 0, false, false⟩, ⟨0, 0, 0, false, false⟩, none, false⟩
/-- A machine in which tile 1 is a member of a panel of cluster 0, at a cc, with a scoreboard. -/
def testFollow (cc : Nat) (board : List (Dest × Nat)) : State :=
  let s := (testCode [0x00220400]).onMe fun x => { x with gang := .ganged, board := board }
  let x : Tile := s.tile 0
  { s.onCluster 0 fun y => { y with panel := some ⟨[0, 1], 0, 0, []⟩, gangs := [0, 0], stream := [testItem] } with
    cc := cc, tiles := [(0, { x with act := none }), (1, { x with act := some 0 })] }

theorem witness_StepRunsDecoded_member :
    let s := testFollow 2 []
    let b := (memberAt s 1 0 testItem).begin 1 0 1 true (some testItem.stg)
    let v := testFollow 2 [(.g 2, 9)]
    let c := (memberAt v 1 0 testItem).begin 1 0 1 true (some testItem.stg)
    (∀ u ∈ [testFollow 0 [], s, v], MemberTurn u 1 0 testItem) ∧ (testFollow 0 []).cc < testItem.cc + specSkew 1 ∧
    testItem.cc + specSkew 1 ≤ s.cc ∧ testItem.kind = .issue ∧ (s.strand 1 0).block = none ∧
    (pendingOf [.addImm 2 0 0 []] b ≤ s.cc ∧ (checkAll [.addImm 2 0 0 []] b).traps = false) ∧
    v.cc < pendingOf [.addImm 2 0 0 []] c ∧ (v.cluster 0).panel = some ⟨[0, 1], 0, 0, []⟩ := by
  simp only [MemberTurn]; decide +kernel

theorem witness_StepRunsDecoded_words : bundleAt ((testFollow 2 []).image 1).code testItem.pc.toNat = .ok ([(0, .addImm 2 0 0 [])], 1) := by
  rfl

theorem witness_MemoriesStayCanonical : Canonical testState ∧ ((step testState) matches .next _) = true := by
  refine ⟨?_, by decide +kernel⟩
  simp only [Canonical, WholeLines]
  refine ⟨by decide +kernel, by decide +kernel, by decide +kernel, by decide +kernel, by decide +kernel, ?_, by decide +kernel⟩
  intro f h
  exact absurd (h.symm.trans (show testState.wantMhz = none from rfl)) (by simp)

theorem witness_ResetState : (3 : Nat) < 4 := by decide

/-! ### Single steps -/

/-- The pending writes that a result leaves, each with its cc (R31). -/
def posted (r : Result) : List (Nat × Write) :=
  match r with
  | .next t => t.agenda.filterMap fun e => match e.2 with | .pendingWriteComplete _ _ w => some (e.1 / 65536, w) | _ => none
  | _ => []
/-- The state after a result; `testState` if there is none. -/
def after (r : Result) : State := match r with | .next t => t | _ => testState
/-- `testState` with values in g1 and g2. -/
def two (a b : DWord) : State := testState.onMe fun x => (x.writeG 1 a).writeG 2 b

/-- Table COR-3: a sum keeps its low 64 bits; g0 is no destination that anything watches. -/
theorem test_add_wraps : posted (exec (.add 3 1 2 0) (two (BitVec.allOnes 64) 2)) = [(1, .g 3 1)] := by decide +kernel
/-- R140: a guard that does not hold leaves nothing. -/
theorem test_guard : posted (exec (.add 3 1 2 1) (two 1 2)) = [] := by decide +kernel
/-- R142: no fault on a zero divisor, and the wrap of -2^63 by -1. -/
theorem test_div : posted (exec (.div 3 1 2 0) (two 7 0)) = [(20, .g 3 (BitVec.allOnes 64))] ∧
    posted (exec (.div 3 1 2 0) (two 0x8000000000000000 (BitVec.allOnes 64))) = [(20, .g 3 0x8000000000000000)] := by
  decide +kernel
/-- R142: truncation, and the sign of the dividend: -7 = -3 * 2 - 1. -/
theorem test_div_signs : posted (exec (.div 3 1 2 0) (two (-7) 2)) = [(20, .g 3 (-3))] ∧
    posted (exec (.rem 3 1 2 0) (two (-7) 2)) = [(20, .g 3 (-1))] := by decide +kernel
/-- Table COR-3: the word shift extends bit 31. -/
theorem test_shraw : posted (exec (.shraw 3 1 2 0) (two 0x80000000 4)) = [(1, .g 3 0xFFFFFFFFF8000000)] := by decide +kernel
/-- R143: a field of 8 bits from bit 4, read and written. -/
theorem test_fields : posted (exec (.bfx 3 1 2 0) (two 0xABC0 0x0804)) = [(1, .g 3 0xBC)] ∧
    posted (exec (.bfi 1 2 2 0) (two 0xFFFF 0x0804)) = [(1, .g 1 0xF04F)] := by decide +kernel
/-- R144: LT on 64 and on 32 bits. -/
theorem test_cmp : posted (exec (.cmp 3 .lt false 1 2) (two 0x80000000 0)) = [(1, .p 3 false)] ∧
    posted (exec (.cmp 3 .lt true 1 2) (two 0x80000000 0)) = [(1, .p 3 true)] := by decide +kernel
/-- R28: one L word gives the bits above the ten of the word. -/
theorem test_long_immediate : posted (exec (.addImm 3 0 1 [1]) testState) = [(1, .g 3 0x401)] ∧
    posted (exec (.addImm 3 0 0x3FF []) testState) = [(1, .g 3 (BitVec.allOnes 64))] := by decide +kernel
/-- Table COR-7: a signed byte; the displacement of a halfword counts halfwords. -/
theorem test_load_store :
    (let s := (two 0x100 0xABCD).onMyTile fun x => { x with scratch := [(0x101, 0x80)] }
     posted (exec (.ldb 3 1 .scratch 1 []) s) = [(4, .g 3 (-128))] ∧
     posted (exec (.sth 2 1 .scratch 2 []) s) = [(1, .mem 0x104 [0xCD, 0xAB])]) := by decide +kernel
/-- R149: the top doubleword is in the scratchpad, the next is a trap before the bundle: the strand is in no handler and has
none, so it halts. -/
theorem test_scratch_edge : posted (exec (.ldd 3 1 .scratch 0 []) (testG 1 0x1FFFF8)) = [(4, .g 3 0)] ∧
    ((after (exec (.ldd 3 1 .scratch 1 []) (testG 1 0x1FFFF8))).strand 0 0).halted = true := by decide +kernel
/-- R151: a branch taken backwards from word 0, and one not taken. -/
theorem test_branch : (after (exec (.br 0 false 0x3FFFF) testState)).bun.target = some 0xFFFFFFFF ∧
    (after (exec (.br 0 true 5) testState)).bun.target = none := by decide +kernel
/-- R151: CALL links the bundle after its own of two words. -/
theorem test_call : posted (exec (.call 8) (testBun fun b => { b with first := 16, len := 2 })) = [(1, .g 31 18)] ∧
    (after (exec (.call 8) (testBun fun b => { b with first := 16, len := 2 }))).bun.target = some 24 := by decide +kernel
/-- R146, R147: staging, and the selector of the die-local tile id. -/
theorem test_staging : posted (exec (.stg .stream 9 1) (testG 1 5)) = [(1, .stg .stream 9 5)] ∧
    posted (exec (.geti 4 .tile) testState) = [(1, .g 4 0)] := by decide +kernel
/-- Table COR-1: a write to g0 is lost. -/
theorem test_g0 : ((after (exec (.pendingWriteComplete 0 0 (.g 0 7)) testState)).strand 0 0).readG 0 = 0 ∧
    ((after (exec (.pendingWriteComplete 0 0 (.g 5 7)) testState)).strand 0 0).readG 5 = 7 := by decide +kernel
/-- R170: saturation of i8 lanes, 100 + 100; the wrapping sum is -56. -/
theorem test_saturation :
    let s := testState.onMe fun x => (x.writeV 1 100).writeM 1 1
    posted (exec (.vadds .i8 2 1 1 1) s) = [(2, .v 2 127)] ∧ posted (exec (.vadd .i8 2 1 1 1) s) = [(2, .v 2 200)] := by
  decide +kernel
/-- R179: the sum of two i16 lanes, 5 and -1, as 32 bits. -/
theorem test_reduction : posted (exec (.vreds .i16 2 1 0) (testState.onMe fun x => x.writeV 1 0xFFFF0005)) = [(10, .v 2 4)] := by
  decide +kernel
/-- R173: 1.5 + 0.25 in f32, exactly; R175: the reciprocal of zero raises DZ. -/
theorem test_floats : fpAdd 24 .rne 0x3FC00000 0x3E800000 = (0x3FE00000, .zero) ∧
    (fpRcp 24 .rne 0).2 = ⟨false, false, false, false, true, false⟩ := by decide +kernel
/-- R157: DLY 3 stalls for four cc. -/
theorem test_dly : (after (exec (.dly 3) testState)).bun.stall = 4 := by decide +kernel
/-- R270: an add of 3 to counter 9 of die 0, and one refused at the top. -/
theorem test_counter : (after (exec (.counterAdd 0 9 3 .silent) testState)).ctrGet 0 9 = 3 ∧
    (after (exec (.counterAdd 0 9 1 .silent) (testDie fun x => { x with counters := [(9, BitVec.allOnes 64)] }))).ctrGet 0 9 =
      BitVec.allOnes 64 := by decide +kernel
/-- R120: 8 bytes arrive at a word whose TARGET is 8: COUNT returns to 0, GEN is 1. -/
theorem test_arrival :
    let t := after (exec (.arrival 0 32 8) (testTile fun x => { x with scratch := [(32, 8)] }))
    (t.tile 0).readNat 36 4 = 0 ∧ (t.tile 0).readNat 40 4 = 1 := by decide +kernel
/-- R325: outside a handler TRET is illegal; in one it restores privilege and goes to TRAPPC. -/
theorem test_tret : (after (exec (.tret false) (testPriv.onMe fun x => { x with trap := { x.trap with pc := 44 } }))).bun.target = some 44 ∧
    (after (exec (.tret false) testPriv)).me.trap.inh = false := by decide +kernel
/-- R309: a strand whose handler is at word 64 enters it as a privileged strand, in the handler, and TRAPPC names the bundle. -/
theorem test_trap_entry :
    let s := testMe fun x => { x with trap := { x.trap with en := true, entry := 64 }, pc := 7 }
    let x := (after (exec (.takeTrap 0 0 ⟨.illegal, 0, 0, 0, 0, 7, 0, 0, 7⟩) s)).strand 0 0
    x.pc = 64 ∧ x.trap.pc = 7 ∧ x.trap.inh = true ∧ x.trap.priv = true ∧ x.trap.ppriv = false := by decide +kernel
/-- R324: a system register takes its value; AGELIMIT below 256 keeps its own (Table FAB-2). -/
theorem test_system_registers :
    (after (exec (.systemRegisterPropagate 0 0 .trapvec 0x8000000000000040) testState)).sysRead 0 0 .trapvec =
      0x8000000000000040 ∧ (after (exec (.systemRegisterPropagate 0 0 .agelimit 255) testState)).sysRead 0 0 .agelimit = 2048 := by
  decide +kernel
/-- R333: the host adds 5 to a counter of a ready die through the port; a write of 8 bytes is refused. -/
theorem test_port : let s : State := { testState with ready := 0x100 }
    (after (exec (.counterAdd 0 3 5 .host) (after (exec (.counterAddPort 16 0 3 5) s)))).ctrGet 0 3 = 5 ∧
      (after (exec (.counterAddPort 8 0 3 5) s)).hosterr = 1 := by
  decide +kernel
/-- R331: the host writes two bytes of stack 1 and reads them back. -/
theorem test_hdm : let s : State := { testState with ready := 0xFF0000 }
    (after (exec (.hdmRead 0x1000000010 2) (after (exec (.hdmWrite 0x1000000010 [1, 2]) s)))).outputs = [.data [1, 2]] := by
  decide +kernel
/-- R2, R22: a step runs the word at the pc: addImm writes g2 at the next cc, and the strand goes on at word 1. -/
theorem test_step : posted (step (testCode [0x00220405])) = [(1, .g 2 5)] ∧
    ((after (step (testCode [0x00220405]))).strand 0 0).pc = 1 := by decide +kernel
/-- Reset: EFR.V, AGELIMIT and TRAPREC of strand 1 (Tables NUM-9, FAB-2, TRP-8). -/
theorem test_reset : State.reset.sysRead 0 1 .efrv = 0x5000 ∧ State.reset.sysRead 0 1 .agelimit = 2048 ∧
    State.reset.sysRead 0 1 .traprec = 0x1FFF40 := by decide +kernel

end Sys2Proof.Tests
end

section
/-! SUPPORT. What small changes of the state leave: the parts of other strands, and every byte of memory. -/
namespace Sys2Proof

theorem SMap.proj_get_map {α β : Type} (π : α → β) (g : Nat × α → α) (h : ∀ e, π (g e) = π e.2) (d : α) (m : SMap α)
    (k : Nat) : π (SMap.get d (m.map fun e => (e.1, g e)) k) = π (SMap.get d m k) := by
  induction m with
  | nil => rfl
  | cons e m ih =>
    simp only [List.map_cons, SMap.get]
    split
    · exact h e
    · exact ih

namespace Machine

/-! ### Parts that a change of a strand leaves -/

theorem State.launchOf_onStrand (s : State) (t k : Nat) (f : Strand → Strand) (n : Nat) :
    (s.onStrand t k f).launchOf n = s.launchOf n := by
  simp only [State.launchOf, State.tile_onStrand]
  split
  · next h => subst h; rfl
  · rfl

@[simp] theorem State.image_onStrand (s : State) (t k : Nat) (f : Strand → Strand) (n : Nat) :
    (s.onStrand t k f).image n = s.image n := by
  simp only [State.image, State.launchOf_onStrand]

/-! ### Bytes -/

theorem sameBytes_onStrand (s : State) (n k : Nat) (f : Strand → Strand) : SameBytes s (s.onStrand n k f) :=
  sameBytes_onTile s n _ fun _ => rfl

theorem sameBytes_onCluster (s : State) (c : Nat) (f : Cluster → Cluster) (h : ∀ x, (f x).store = x.store) :
    SameBytes s (s.onCluster c f) := by
  refine ⟨fun _ _ => rfl, fun m a => ?_, fun _ _ => rfl⟩
  rw [State.cluster_onCluster]; split
  · next e => subst e; rw [h]
  · rfl

theorem sameBytes_onDie (s : State) (d : Nat) (f : Die → Die) (h : ∀ x, (f x).mem = x.mem) : SameBytes s (s.onDie d f) := by
  refine ⟨fun _ _ => rfl, fun _ _ => rfl, fun m a => ?_⟩
  rw [State.die_onDie]; split
  · next e => subst e; rw [h]
  · rfl

theorem sameBytes_of_parts {s t : State} (ht : t.tiles = s.tiles) (hc : t.clusters = s.clusters) (hd : t.dies = s.dies) :
    SameBytes s t := by
  refine ⟨fun n a => ?_, fun c a => ?_, fun d a => ?_⟩
  · rw [State.tile, ht]; rfl
  · rw [State.cluster, hc]; rfl
  · rw [State.die, hd]; rfl

/-- Sleepers that a queue wakes change the agenda and the free amounts alone. -/
theorem wakeSleepers_cases (s : State) : ∃ l m, s.wakeSleepers = { s with agenda := l, slack := m } :=
  each_keeps (fun a b => ∃ l m, b = { a with agenda := l, slack := m }) (fun a => ⟨a.agenda, a.slack, rfl⟩)
    (fun a b c ⟨_, _, hb⟩ ⟨l, m, hc⟩ => ⟨l, m, by rw [hc, hb]⟩) _ _ (fun _ _ => ⟨_, _, rfl⟩) s

end Machine
end Sys2Proof
end

section
/-! PROOFS. A step (O58): what it is, the turn of a strand and of a panel's member, the end of a cc. -/
namespace Sys2Proof

/-- The row of the opcode table that an event of the agenda stands for. Not computable: the compiler refuses to build the
last constructors of a type of this size. -/
noncomputable def Event.instr : Event → Instr
  | .pendingWriteComplete x0 x1 x2 => .pendingWriteComplete x0 x1 x2
  | .strandSelect x0 => .strandSelect x0
  | .waitSatisfied x0 x1 => .waitSatisfied x0 x1
  | .takeTrap x0 x1 x2 => .takeTrap x0 x1 x2
  | .overrun x0 x1 => .overrun x0 x1
  | .extentPlacement x0 x1 => .extentPlacement x0 x1
  | .pageWalkComplete x0 x1 => .pageWalkComplete x0 x1
  | .releaseComplete x0 x1 x2 => .releaseComplete x0 x1 x2
  | .counterAdd x0 x1 x2 x3 => .counterAdd x0 x1 x2 x3
  | .barrierComplete x0 => .barrierComplete x0
  | .streamCommandStart x0 => .streamCommandStart x0
  | .streamCommandComplete x0 x1 => .streamCommandComplete x0 x1
  | .arrival x0 x1 x2 => .arrival x0 x1 x2
  | .dunfRow x0 x1 x2 => .dunfRow x0 x1 x2
  | .publishSwap x0 x1 => .publishSwap x0 x1
  | .kilnCommandStart x0 => .kilnCommandStart x0
  | .kilnCommandComplete x0 => .kilnCommandComplete x0
  | .spltDrain x0 => .spltDrain x0
  | .spltComplete x0 => .spltComplete x0
  | .wldBeat x0 x1 => .wldBeat x0 x1
  | .strmBeat x0 x1 => .strmBeat x0 x1
  | .strmRowsFinal x0 x1 => .strmRowsFinal x0 x1
  | .drnBeat x0 x1 => .drnBeat x0 x1
  | .drnOutputFinal x0 x1 => .drnOutputFinal x0 x1
  | .aclrBeat x0 x1 => .aclrBeat x0 x1
  | .quiltBeat x0 x1 => .quiltBeat x0 x1
  | .quiltStepCycle x0 x1 => .quiltStepCycle x0 x1
  | .quiltCommandComplete x0 => .quiltCommandComplete x0
  | .fabricQueueArrival x0 => .fabricQueueArrival x0
  | .rickAgeDeparture x0 x1 => .rickAgeDeparture x0 x1
  | .ringSlotArrival x0 x1 x2 => .ringSlotArrival x0 x1 x2
  | .cordPerform x0 => .cordPerform x0
  | .remoteLoadRequest x0 => .remoteLoadRequest x0
  | .flitCrcFailure x0 x1 => .flitCrcFailure x0 x1
  | .mgrpComplete x0 x1 x2 => .mgrpComplete x0 x1 x2
  | .mlrJoin x0 => .mlrJoin x0
  | .mlrJoinDeadline x0 => .mlrJoinDeadline x0
  | .mlrComplete x0 => .mlrComplete x0
  | .tlbiComplete x0 => .tlbiComplete x0
  | .shootdownArrival x0 x1 => .shootdownArrival x0 x1
  | .holderCountUpdate x0 x1 x2 x3 => .holderCountUpdate x0 x1 x2 x3
  | .shotComplete x0 => .shotComplete x0
  | .governorEpoch x0 => .governorEpoch x0
  | .patrolScrub x0 x1 => .patrolScrub x0 x1
  | .launchTake x0 => .launchTake x0
  | .admission x0 => .admission x0
  | .launchStart x0 => .launchStart x0
  | .workUnitStart x0 => .workUnitStart x0
  | .workUnitComplete x0 => .workUnitComplete x0
  | .launchEnd x0 => .launchEnd x0
  | .launchResume x0 => .launchResume x0
  | .superstepBoundary x0 => .superstepBoundary x0
  | .idleSuperstep x0 x1 => .idleSuperstep x0 x1
  | .idleSuperstepEnd x0 => .idleSuperstepEnd x0
  | .clockChange x0 => .clockChange x0
  | .powerLimit x0 x1 => .powerLimit x0 x1
  | .thermalEmergency => .thermalEmergency
  | .stopFlagSet x0 x1 x2 => .stopFlagSet x0 x1 x2
  | .stopWindowExpiry x0 x1 => .stopWindowExpiry x0 x1
  | .tileSaveComplete x0 => .tileSaveComplete x0
  | .clusterRegionSave x0 => .clusterRegionSave x0
  | .clusterStopComplete x0 => .clusterStopComplete x0
  | .hangWatchdog x0 => .hangWatchdog x0
  | .sequencerOverrun x0 => .sequencerOverrun x0
  | .selfTestStart x0 => .selfTestStart x0
  | .selfTestVerdict x0 x1 x2 => .selfTestVerdict x0 x1 x2
  | .systemRegisterPropagate x0 x1 x2 x3 => .systemRegisterPropagate x0 x1 x2 x3
  | .packageReset => .packageReset
  | .functionReady x0 => .functionReady x0
  | .bootStage x0 x1 x2 => .bootStage x0 x1 x2
  | .getVersion => .getVersion
  | .getCapabilities => .getCapabilities
  | .negotiateAlgorithms => .negotiateAlgorithms
  | .getDigests => .getDigests
  | .getCertificate x0 => .getCertificate x0
  | .challenge x0 => .challenge x0
  | .getMeasurements x0 => .getMeasurements x0
  | .hdmRead x0 x1 => .hdmRead x0 x1
  | .hdmWrite x0 x1 => .hdmWrite x0 x1
  | .counterAddPort x0 x1 x2 x3 => .counterAddPort x0 x1 x2 x3
  | .counterReadSlot x0 => .counterReadSlot x0
  | .watchEntryWrite x0 x1 x2 x3 => .watchEntryWrite x0 x1 x2 x3
  | .popPortRead x0 x1 x2 => .popPortRead x0 x1 x2
  | .staggerWrite x0 => .staggerWrite x0
  | .staggerMessage x0 x1 => .staggerMessage x0 x1
  | .mgmtRegisterWrite x0 x1 x2 => .mgmtRegisterWrite x0 x1 x2
  | .coreDieTemperature x0 x1 => .coreDieTemperature x0 x1
  | .mgmtWindowRead x0 x1 => .mgmtWindowRead x0 x1

@[simp] theorem Event.event?_instr (e : Event) : e.instr.event? = some e := by cases e <;> rfl

theorem Event.eq_instr_of_event? {i : Instr} {e : Event} (h : i.event? = some e) : i = e.instr := by
  cases i <;> cases h <;> rfl

theorem Machine.runEvent_eq_exec (e : Event) (s : Machine.State) : Machine.runEvent e s = Machine.exec e.instr s := by
  cases e <;> rfl

namespace Machine

/-! ### What a step is -/

theorem step_of_due {s : State} {key : Nat} {e : Event} {r : List (Nat × Event)} (ha : s.agenda = (key, e) :: r)
    (hk : key < s.horizon) : step s = runEvent e { s with agenda := r } := by
  simp only [step, ha, if_pos hk]

theorem step_of_none_due {s : State} (h : ∀ e ∈ s.agenda.head?, s.horizon ≤ e.1) : step s = s.idle := by
  unfold step
  split
  · rfl
  · next key e r ha => rw [if_neg (Nat.not_lt.2 (h (key, e) (by simp [ha])))]

theorem step_of_nextCore {s : State} {n : Nat} (h : ∀ e ∈ s.agenda.head?, s.horizon ≤ e.1) (hl : s.late = false)
    (hn : s.nextCore = some n) : step s = coreTurn n s := by
  simp only [step_of_none_due h, State.idle, hl, hn, Bool.false_eq_true, if_false]

theorem stopHere_atBundle (s : State) (n k : Nat) : ((atBundle s n k).strand n k).stopHere = (s.strand n k).stopHere := by
  rw [atBundle, State.strand_onStrand_same]

theorem saving_atBundle (s : State) (n k : Nat) : ((atBundle s n k).tile n).saving = (s.tile n).saving := by
  rw [atBundle, State.tile_onStrand, if_pos rfl]
  rfl

theorem step_of_turn {s : State} {n k : Nat} (h : Turn s n k) : step s = (atBundle s n k).tryBundle n k := by
  obtain ⟨ha, hl, hn, hr, hstart, hhalt, hstop, hhold, hgang, hheld, htherm, hover, hyield, hcc, hfault⟩ := h
  rw [step_of_nextCore ha hl hn]
  have hsel : (if (s.strand n k).yielded = true then s.yieldTo n k else none) = none := ite_eq_right_iff.2 hyield
  simp [coreTurn, hr, hgang, strandTurn, hstart, hhalt, hstop, hhold, hheld, htherm, hover, hsel, Nat.not_lt.2 hcc, hfault,
    atBundle]

/-! ### The order of words -/

theorem wordRank_lt (c : Nat) (i : Instr) : wordRank (c, i) < 5 := by
  have hclass : (if c == 12 || c == 10 then 2 else 3) < 5 := by split <;> decide
  cases i with
  | srd | csav | node | tret | swr | sflt | aarm | dgsOn | dgsOff | gangExit | agng => exact Nat.le_of_ble_eq_true rfl
  | _ => exact hclass

theorem wordOrder_singleton (c : Nat) (i : Instr) : wordOrder [(c, i)] = [i] := by
  have hpick : ∀ r, r < 5 → (List.range 5).flatMap (fun n => ([(c, i)].filter fun _ => r == n).map (·.2)) = [i] := by
    intro r hr
    interval_cases r <;> rfl
  simp only [wordOrder]
  generalize hb : ([(c, i)].dropWhile fun w => !isAarm w.2) = behind
  have hr : (if keepsPlace i && behind.contains (c, i) then 4 else wordRank (c, i)) < 5 := by
    split
    · decide
    · exact wordRank_lt c i
  rw [← hpick _ hr]
  simp only [List.filter_cons, List.filter_nil]

theorem runWords_singleton (i : Instr) (s : State) : runWords [i] s = exec i s := by
  simp only [runWords]
  split
  · next t h => exact h.symm
  · rfl

/-! ### What a strand does with its next bundle -/

theorem tryBundle_of_trap {s : State} {n k : Nat} {i : TrapInfo} (h : s.look n k none = .trap i) :
    s.tryBundle n k = .next (s.spend.trapNow n k i) := by
  simp only [State.tryBundle, h]

/-- What `State.issue` does with the result of the words: the strand advances behind them. -/
def afterWords (u : State) (n k : Nat) (l : List (Nat × Instr)) (deep : Bool) : Result → Result
  | .next v => let ends := (u.strand n k).endsAt (u.strand n k).pc
    .next (v.advance ends l (deep && testsStop ends l))
  | r => r

@[simp] theorem Strand.setLoop_board (x : Strand) (l : Bool) (v : Loop) : (x.setLoop l v).board = x.board := by
  cases l <;> rfl

@[simp] theorem Strand.endLoop_board (x : Strand) (l : Bool) : (x.endLoop l).board = x.board := by
  simp only [Strand.endLoop]
  split <;> simp

theorem Strand.endPassed_board (x : Strand) (code : List Word) : (x.endPassed code).board = x.board := by
  simp only [Strand.endPassed, List.foldl_cons, List.foldl_nil]
  split <;> split <;> simp

theorem issue_eq_afterWords (s : State) (l : List (Nat × Instr)) (n k len : Nat) (deep : Bool) :
    s.issue l n k len false none deep =
      afterWords (begun s n k len) n k l deep (runWords (wordOrder l) (begun s n k len)) := by
  have hbegun : begun s n k len = ((s.onStrand n k fun x => { x.endPassed (s.image n).code with
      block := none, wake := false, cleared := none, regionDue := none, stopHere := false
      board := (x.endPassed (s.image n).code).board.filter fun e => s.cc < e.2 }).begin n k len false none).onBun
        fun b => { b with checked := true } := by
    simp only [begun, Strand.endPassed_board]
  rw [hbegun]
  rfl

theorem tryBundle_of_go {s : State} {n k len : Nat} {l : List (Nat × Instr)} (h : s.look n k none = .go l len)
    (hstop : (s.strand n k).stopHere = false) (hnode : hasNode l = true → s.nodeStop n k = none) :
    s.tryBundle n k = finishBundle (begun s n k len) n k l ((s.tile n).saving == .deep)
      (runWords (wordOrder l) (begun s n k len)) := by
  have hsel : (if hasNode l = true then s.nodeStop n k else none) = none := ite_eq_right_iff.2 hnode
  simp only [State.tryBundle, h, hstop, Bool.false_eq_true, if_false, hsel, issue_eq_afterWords]
  cases runWords (wordOrder l) (begun s n k len) <;> rfl

/-! ### The checks of a bundle -/

theorem look_of_ok {s : State} {n k len : Nat} {l : List (Nat × Instr)} (hf : s.fetch n k = .ok (l, len))
    (hpres : s.present n k (s.strand n k).pc.toNat = true)
    (hpriv : (s.strand n k).trap.priv = true ∨ ∀ w ∈ l, needsPriv w = false)
    (hpend : pendingOf (l.map (·.2)) (s.begin n k len false none) ≤ s.cc)
    (hok : checkAll (l.map (·.2)) (s.begin n k len false none) = .ok) : s.look n k none = .go l len := by
  have hno : (!(s.strand n k).trap.priv && l.any needsPriv) = false := by
    rcases hpriv with h | h
    · rw [h]; rfl
    · rw [List.any_eq_false.2 fun w hw => by rw [h w hw]; exact Bool.false_ne_true, Bool.and_false]
  obtain ⟨hregs, hrows⟩ := Nat.max_le.1 hpend
  have hcc : (s.begin n k len false none).cc = s.cc := rfl
  simp only [State.look, hf, hpres, hno, hok, hcc, Bool.not_true, Bool.false_eq_true, if_false, Nat.not_lt.2 hregs,
    Nat.not_lt.2 hrows]

theorem fetch_eq_of_first {s : State} {n k : Nat} (hlt : (s.strand n k).pc.toNat < (s.image n).code.length)
    (hreach : s.reaches n k (s.strand n k).pc.toNat = true)
    (hfirst : isFirst (s.image n).code (s.strand n k).pc.toNat = true) :
    s.fetch n k = (bundleAt (s.image n).code (s.strand n k).pc.toNat).mapError
      fun _ => s.preciseAt n k .illegal none none := by
  simp only [State.fetch, Nat.not_le.2 hlt, hreach, hfirst, decide_false, Bool.not_true, Bool.or_self, Bool.false_eq_true,
    if_false]
  cases bundleAt (s.image n).code (s.strand n k).pc.toNat <;> rfl

theorem bundleAt_of_decodeOne {code ws rest : List Word} {pc : Nat} {w : Word} {i : Instr}
    (hcode : (code.drop pc).take 6 = w :: ws) (hdec : decodeOne (w :: ws) = .ok (false, i, rest))
    (hpack : packetsOk pc (ws.length + 1 - rest.length) = true) :
    bundleAt code pc = .ok ([(classOf w, i)], ws.length + 1 - rest.length) := by
  have hclass : ∀ c, classesOk [(c, i)] = true := fun c => by
    simp only [classesOk, List.all_eq_true, decide_eq_true_eq]
    intro d _
    refine (List.length_filter_le _ _).trans ?_
    split <;> simp
  have hapart : destsApart [i] = true := rfl
  simp [bundleAt, hcode, decodeBundle, hdec, hpack, hclass, hapart]

theorem look_of_decode_error {s : State} {n k : Nat} {e : DecodeErr}
    (hlt : (s.strand n k).pc.toNat < (s.image n).code.length) (hreach : s.reaches n k (s.strand n k).pc.toNat = true)
    (hfirst : isFirst (s.image n).code (s.strand n k).pc.toNat = true)
    (hdec : bundleAt (s.image n).code (s.strand n k).pc.toNat = .error e) :
    s.look n k none = .trap (s.preciseAt n k .illegal none none) := by
  have hf : s.fetch n k = .error (s.preciseAt n k .illegal none none) := by
    rw [fetch_eq_of_first hlt hreach hfirst, hdec]; rfl
  simp only [State.look, hf]

/-! ### A member of a panel -/

theorem skew_posOf (n : Nat) : skew (posOf n) = specSkew n := by
  have h : ∀ m, m < 8 → skew m = [0, 2, 4, 6, 100, 102, 104, 106].getD m 0 := by decide
  exact h _ (Nat.mod_lt _ (by decide))

/-- What `followTurn` does with the result of an item: the member goes on to its next. -/
def afterItem (c n k : Nat) (it : LeadBundle) : Result → Result
  | .next s => .next (s.nextItem c n k it)
  | r => r

theorem step_of_memberTurn {s : State} {n k : Nat} {it : LeadBundle} (h : MemberTurn s n k it) :
    step s = if s.cc < it.cc + specSkew n then .next (s.onTile n fun y => { y with act := some (it.cc + specSkew n) })
      else afterItem (n / 8) n k it (s.runItem (n / 8) n k it) := by
  obtain ⟨ha, hl, hn, hr, hpos, hgang, hbar, hhalt, hstop, hit⟩ := h
  have hpos' : posOf n ≠ 0 := hpos
  rw [step_of_nextCore ha hl hn]
  simp only [coreTurn, hr, hgang, hbar, followTurn, clusterOf, hhalt, hstop, hit, hpos', skew_posOf, beq_self_eq_true,
    bne_self_eq_false, Option.isNone_none, Bool.and_self, Bool.or_self, Bool.false_eq_true, if_true, if_false]
  split
  · rfl
  · cases s.runItem (n / 8) n k it <;> rfl

theorem issue_follow_eq_afterWords (s : State) (l : List (Nat × Instr)) (n k len : Nat) (it : LeadBundle) :
    (memberAt s n k it).issue l n k len true (some it.stg) false =
      afterWords (memberBegun s n k len it) n k l false (runWords (wordOrder l) (memberBegun s n k len it)) := rfl

theorem onStrand_onStrand_eq_memberAt (s : State) (n k : Nat) (it : LeadBundle) :
    ((s.onStrand n k fun x => { x with gangSeq := it.seq + 1 }).onStrand n k fun x => { x with pc := it.pc }) =
      memberAt s n k it := rfl

@[simp] theorem memberAt_cc (s : State) (n k : Nat) (it : LeadBundle) : (memberAt s n k it).cc = s.cc := rfl

@[simp] theorem image_memberAt (s : State) (n k : Nat) (it : LeadBundle) (m : Nat) :
    (memberAt s n k it).image m = s.image m := by
  simp only [memberAt, State.image_onStrand]

section
variable {s : State} {n k len : Nat} {it : LeadBundle} {l : List (Nat × Instr)}

theorem afterItem_runItem_of_checked (hkind : it.kind = .issue) (hblock : (s.strand n k).block = none)
    (hb : bundleAt (s.image n).code it.pc.toNat = .ok (l, len))
    (hpend : pendingOf (l.map (·.2)) ((memberAt s n k it).begin n k len true (some it.stg)) ≤ s.cc)
    (htrap : (checkAll (l.map (·.2)) ((memberAt s n k it).begin n k len true (some it.stg))).traps = false) :
    afterItem (n / 8) n k it (s.runItem (n / 8) n k it) =
      finishMember (memberBegun s n k len it) n k l it (runWords (wordOrder l) (memberBegun s n k len it)) := by
  simp only [State.runItem, hkind, State.memberIssue, State.strand_onStrand_same, hblock, Option.isSome_none,
    Bool.false_eq_true, if_false, onStrand_onStrand_eq_memberAt, image_memberAt, hb, memberAt_cc, Nat.not_lt.2 hpend,
    issue_follow_eq_afterWords]
  split
  · next h => rw [h] at htrap; cases htrap
  · cases runWords (wordOrder l) (memberBegun s n k len it) <;> rfl

theorem runItem_of_pending (hkind : it.kind = .issue) (hblock : (s.strand n k).block = none)
    (hb : bundleAt (s.image n).code it.pc.toNat = .ok (l, len))
    (hpend : s.cc < pendingOf (l.map (·.2)) ((memberAt s n k it).begin n k len true (some it.stg))) (c : Nat) :
    s.runItem c n k it =
      .next ((memberAt s n k it).memberFault c n k ((memberAt s n k it).preciseAt n k .schedule none none)) := by
  simp only [State.runItem, hkind, State.memberIssue, State.strand_onStrand_same, hblock, Option.isSome_none,
    Bool.false_eq_true, if_false, onStrand_onStrand_eq_memberAt, image_memberAt, hb, memberAt_cc]
  exact if_pos hpend

end

/-! ### Bytes -/

theorem sameBytes_memberAt (s : State) (n k : Nat) (it : LeadBundle) : SameBytes s (memberAt s n k it) :=
  sameBytes_trans (sameBytes_onStrand ..) (sameBytes_onStrand ..)

theorem sameBytes_memberFault (s : State) (c n k : Nat) (i : TrapInfo) : SameBytes s (s.memberFault c n k i) :=
  sameBytes_trans (b := s.spend.onStrand n k fun x => { x with block := some .gang, panelTraps := x.panelTraps ++ [i] })
    (sameBytes_onStrand s.spend n k _) (sameBytes_onCluster _ c _ fun _ => rfl)

/-- A member that goes on to its next item drops items of its cluster that all have run, and says when it looks again. -/
theorem nextItem_cases (s : State) (c n k : Nat) (it : LeadBundle) :
    ∃ u : State, (u = s ∨ u = s.onCluster c fun x => { x with stream := x.stream.filter fun i => it.seq < i.seq }) ∧
      (s.nextItem c n k it = u ∨ ∃ a, s.nextItem c n k it = u.onTile n fun y => { y with act := a }) := by
  simp only [State.nextItem]
  generalize hu : (if posOf n = 7 then
      s.onCluster c fun x => { x with stream := x.stream.filter fun i => it.seq < i.seq } else s) = u
  refine ⟨u, ?_, ?_⟩
  · split at hu
    · exact .inr hu.symm
    · exact .inl hu.symm
  · split
    · exact .inr ⟨_, rfl⟩
    · split
      · exact .inr ⟨_, rfl⟩
      · exact .inl rfl

theorem sameBytes_nextItem (s : State) (c n k : Nat) (it : LeadBundle) : SameBytes s (s.nextItem c n k it) := by
  obtain ⟨u, hu, hnext⟩ := nextItem_cases s c n k it
  have hsu : SameBytes s u := by
    rcases hu with rfl | rfl
    · exact sameBytes_refl u
    · exact sameBytes_onCluster s c _ fun _ => rfl
  rcases hnext with h | ⟨a, h⟩ <;> rw [h]
  · exact hsu
  · exact sameBytes_trans hsu (sameBytes_onTile u n _ fun _ => rfl)

theorem panel_nextItem (s : State) (c n k : Nat) (it : LeadBundle) :
    ((s.nextItem c n k it).cluster c).panel = (s.cluster c).panel := by
  obtain ⟨u, hu, hnext⟩ := nextItem_cases s c n k it
  have hsu : (u.cluster c).panel = (s.cluster c).panel := by
    rcases hu with rfl | rfl
    · rfl
    · rw [State.cluster_onCluster_same]
  rcases hnext with h | ⟨a, h⟩ <;> rw [h] <;> exact hsu

/-! ### The panel of a member -/

theorem panel_memberFault_schedule {s : State} {c : Nat} {p : Panel} (n k : Nat) {i : TrapInfo}
    (hp : (s.cluster c).panel = some p) (hi : i.cause = .schedule) :
    ((s.memberFault c n k i).cluster c).panel = some { p with traps := p.traps ++ [(s.cc, i)] } := by
  have hp' : ((s.spend.onStrand n k fun x => { x with block := some .gang, panelTraps := x.panelTraps ++ [i] }).cluster
    c).panel = some p := hp
  simp only [State.memberFault, State.cluster_onCluster_same, hp', Option.map_some, hi, beq_self_eq_true, if_true]
  rfl

/-! ### The end of a cc -/

theorem Tile.scratch_settle (x : Tile) : x.settle.scratch = x.scratch := by
  have h : ∀ (l : List RFRecord) (y : Tile), (l.foldl (fun x r =>
      if x.rfq.length < 16 then { x with rfq := x.rfq ++ [r] }
      else { x with fOvf := min (x.fOvf + 1) 0xFFFF, rfDrop := min (x.rfDrop + 1) 0xFFFFFFFF }) y).scratch = y.scratch := by
    intro l
    induction l with
    | nil => exact fun y => rfl
    | cons r l ih =>
      intro y
      rw [List.foldl_cons, ih]
      split <;> rfl
  exact h _ _

theorem sameBytes_map (s : State) (f : Nat × Tile → Tile) (g : Nat × Die → Die) (hf : ∀ e, (f e).scratch = e.2.scratch)
    (hg : ∀ e, (g e).mem = e.2.mem) :
    SameBytes s { s with tiles := s.tiles.map fun e => (e.1, f e), dies := s.dies.map fun e => (e.1, g e) } :=
  ⟨fun n a => congrArg (·.read a) (SMap.proj_get_map Tile.scratch f hf _ s.tiles n), fun _ _ => rfl,
    fun d a => congrArg (·.read a) (SMap.proj_get_map Die.mem g hg _ s.dies d)⟩

/-- Within a phase of a cc: every byte reads as before, and the cc and its phase stay. -/
def SamePhase (s t : State) : Prop := SameBytes s t ∧ t.cc = s.cc ∧ t.late = s.late

theorem samePhase_refl (s : State) : SamePhase s s := ⟨sameBytes_refl s, rfl, rfl⟩

theorem samePhase_trans {a b c : State} (h : SamePhase a b) (g : SamePhase b c) : SamePhase a c :=
  ⟨sameBytes_trans h.1 g.1, g.2.1.trans h.2.1, g.2.2.trans h.2.2⟩

theorem samePhase_settleQueues (s : State) : SamePhase s s.settleQueues := by
  unfold State.settleQueues
  split
  · obtain ⟨l, m, h⟩ := wakeSleepers_cases { s with
      dies := s.dies.map fun e => (e.1, e.2.settle), tiles := s.tiles.map fun e => (e.1, e.2.settle) }
    dsimp only
    rw [h]
    exact ⟨sameBytes_map s _ _ (fun e => Tile.scratch_settle e.2) fun _ => rfl, rfl, rfl⟩
  · exact samePhase_refl s

theorem tick_spec (s : State) : SameBytes s s.tick ∧ s.tick.cc = s.cc + 1 ∧ s.tick.late = false := by
  simp only [State.tick]
  generalize ht : (s.tiles.map fun e => (e.1, if s.hangs e.1 then { e.2 with hang := e.2.hang + 1 } else e.2)) = tiles
  have hnext : SameBytes s { s with tiles := tiles, cc := s.cc + 1, late := false } := by
    subst ht
    refine ⟨fun n a => congrArg (·.read a) (SMap.proj_get_map Tile.scratch _ (fun e => ?_) _ s.tiles n), fun _ _ => rfl,
      fun _ _ => rfl⟩
    split <;> rfl
  generalize hu : (if s.cc + 1 < s.power.msAt then _ else _ : State) = u
  have hms : SamePhase { s with tiles := tiles, cc := s.cc + 1, late := false } u := by
    subst hu
    split <;> exact samePhase_refl _
  obtain ⟨hbytes, hcc, hlate⟩ := samePhase_trans (samePhase_trans hms (samePhase_settleQueues u))
    (each_keeps SamePhase samePhase_refl (fun _ _ _ => samePhase_trans) (tiles.filter fun e => e.2.hang == hangLimit)
      (fun s e => s.sched s.cc 14 (.hangWatchdog e.1)) (fun _ _ => samePhase_refl _) u.settleQueues)
  exact ⟨sameBytes_trans hnext hbytes, hcc, hlate⟩

end Machine
end Sys2Proof
end

section
open Sys2Proof Sys2Proof.Machine

/-- Settles O58: a step is a due event of the agenda, else the turn of the next core, which is a strand's bundle, its trap, or
a member's item; else the cc ends. -/
theorem stepRunsDecoded : Obligations.StepRunsDecoded := by
  unfold Obligations.StepRunsDecoded
  refine ⟨?_, fun e => ⟨e.instr, e.event?_instr⟩, ?_, ?_, ?_, ?_, ?_, ?_, ?_⟩
  · intro i e key r s hi ha hk
    rw [step_of_due ha hk, runEvent_eq_exec, Event.eq_instr_of_event? hi]
  · intro n k len l s hturn u hstop hlook hnode b
    have hstep : step s = finishBundle b n k l ((s.tile n).saving == .deep) (runWords (wordOrder l) b) := by
      rw [step_of_turn hturn, tryBundle_of_go hlook ((stopHere_atBundle s n k).trans hstop) hnode,
        saving_atBundle]
    refine ⟨hstep, fun c i hl => ?_⟩
    rw [hstep, hl, wordOrder_singleton, runWords_singleton]
  · intro n k len l s x is b hf hpres hpriv hpend hok
    exact look_of_ok hf hpres hpriv hpend hok
  · intro n k w i rest ws s code pc hcode hdec hpack hreach hfirst
    have hlt : pc < code.length := by
      by_contra h
      rw [List.drop_eq_nil_of_le (Nat.le_of_not_lt h)] at hcode
      cases hcode
    rw [fetch_eq_of_first hlt hreach hfirst, bundleAt_of_decodeOne hcode hdec hpack]
    rfl
  · intro n k e s code pc hlt hreach hfirst hdec
    exact look_of_decode_error hlt hreach hfirst hdec
  · intro n k i s hturn u hlook
    rw [step_of_turn hturn, tryBundle_of_trap hlook]
  · intro n k it s hturn due
    refine ⟨fun hdue => by rw [step_of_memberTurn hturn, if_pos hdue], ?_⟩
    intro l len hdue hkind hblock hb b
    have hstep := step_of_memberTurn hturn
    rw [if_neg (Nat.not_lt.2 hdue)] at hstep
    refine ⟨fun hpend htrap => ?_, fun hpend p hp => ?_⟩
    · exact hstep.trans (afterItem_runItem_of_checked hkind hblock hb hpend htrap)
    · rw [runItem_of_pending hkind hblock hb hpend] at hstep
      have hbytes := sameBytes_trans (sameBytes_memberAt s n k it) (sameBytes_memberFault (memberAt s n k it) (n / 8) n k
        ((memberAt s n k it).preciseAt n k .schedule none none))
      have hpanel := panel_memberFault_schedule (s := memberAt s n k it) n k
        (i := (memberAt s n k it).preciseAt n k .schedule none none) hp rfl
      exact ⟨_, _, _, hstep, sameBytes_trans hbytes (sameBytes_nextItem ..), (panel_nextItem ..).trans hpanel, rfl, rfl⟩
  · intro s ha
    refine ⟨fun hl => ⟨s.tick, ?_, ?_⟩, fun hl hn => ?_⟩
    · rw [step_of_none_due ha, State.idle, if_pos hl]
    · obtain ⟨hbytes, hcc, hlate⟩ := tick_spec s
      exact ⟨hcc, hlate, hbytes⟩
    · simp only [step_of_none_due ha, State.idle, hl, hn, Bool.false_eq_true, if_false]
end

section
/-! PROOFS. System registers (O41): fields of packed words, what each register reads after a write, flags, and the formats
that are seen late. -/
namespace Sys2Proof.Machine

/-! ### Fields of a packed register -/

theorem packLow_field {l : List (Nat × Nat)} (i : Nat) {lo n x : Nat} (hi : l[i]? = some (n, x))
    (hlo : ((l.take i).map (·.1)).sum = lo) : packLow l / 2 ^ lo % 2 ^ n = x % 2 ^ n := by
  subst hlo
  induction l generalizing i with
  | nil => simp at hi
  | cons e l ih =>
    cases i with
    | zero =>
      obtain rfl : e = (n, x) := by simpa using hi
      simp [packLow]
    | succ i =>
      have hdiv : packLow (e :: l) / 2 ^ e.1 = packLow l := by
        rw [packLow, Nat.add_mul_div_left _ _ (Nat.two_pow_pos _), Nat.div_eq_of_lt (Nat.mod_lt _ (Nat.two_pow_pos _)),
          Nat.zero_add]
      rw [List.take_succ_cons, List.map_cons, List.sum_cons, pow_add, ← Nat.div_div_eq_div_mul, hdiv]
      exact ih i (by simpa using hi)

/-- Field i of a register that is packed from its fields, at the sum of the widths of those below it. -/
theorem extract_packLow {l : List (Nat × Nat)} (i : Nat) {lo n x : Nat} (hi : l[i]? = some (n, x))
    (hlo : ((l.take i).map (·.1)).sum = lo) (hle : lo + n ≤ 64) :
    (BitVec.ofNat 64 (packLow l)).extractLsb' lo n = BitVec.ofNat n x := by
  apply BitVec.eq_of_toNat_eq
  rw [BitVec.extractLsb'_toNat, BitVec.toNat_ofNat, BitVec.toNat_ofNat, ← packLow_field i hi hlo, Nat.shiftRight_eq_div_pow,
    ← Nat.mod_mul_right_div_self, ← Nat.mod_mul_right_div_self, ← pow_add, Nat.mod_mod_of_dvd _ (Nat.pow_dvd_pow 2 hle)]

/-- The lowest bits of a register that holds a natural. -/
theorem extract_ofNat (x : Nat) {n : Nat} (hle : n ≤ 64) : (BitVec.ofNat 64 x).extractLsb' 0 n = BitVec.ofNat n x := by
  apply BitVec.eq_of_toNat_eq
  simp [Nat.mod_mod_of_dvd _ (Nat.pow_dvd_pow 2 hle)]

/-- Two fields that stand side by side make one. -/
theorem extract_add {a b : DWord} {lo m n : Nat} (hlow : a.extractLsb' lo m = b.extractLsb' lo m)
    (hhigh : a.extractLsb' (lo + m) n = b.extractLsb' (lo + m) n) : a.extractLsb' lo (m + n) = b.extractLsb' lo (m + n) := by
  apply BitVec.eq_of_getLsbD_eq
  intro i hi
  rw [BitVec.getLsbD_extractLsb', BitVec.getLsbD_extractLsb']
  by_cases h : i < m
  · have := congrArg (·.getLsbD i) hlow
    simpa [h, hi] using this
  · have := congrArg (·.getLsbD (i - m)) hhigh
    simpa [show i - m < n by omega, show lo + m + (i - m) = lo + i by omega, hi] using this

theorem ofNat_extract (w : DWord) (lo n : Nat) : BitVec.ofNat n (w.extractLsb' lo n).toNat = w.extractLsb' lo n := by
  rw [BitVec.ofNat_toNat, BitVec.setWidth_eq]

theorem ofNat_bits (w : DWord) (lo n : Nat) : BitVec.ofNat n (bits w lo n) = w.extractLsb' lo n := ofNat_extract w lo n

theorem ofNat_getLsbD (w : DWord) (i : Nat) : BitVec.ofNat 1 (w.getLsbD i).toNat = w.extractLsb' i 1 := by
  apply BitVec.eq_of_getLsbD_eq
  intro j hj
  obtain rfl : j = 0 := by omega
  cases h : w.getLsbD i <;> simp [h]

theorem bits_eq (w : DWord) (lo n : Nat) : bits w lo n = w.toNat / 2 ^ lo % 2 ^ n := by
  rw [bits, BitVec.extractLsb'_toNat, Nat.shiftRight_eq_div_pow]

/-- A field of a register that holds a field of what was written, at its place. -/
theorem extract_bits_shifted (w : DWord) {lo m lo' n : Nat} (hlo : lo ≤ lo') (hle : lo' + n ≤ lo + m) (h64 : lo + m ≤ 64) :
    (BitVec.ofNat 64 (bits w lo m * 2 ^ lo)).extractLsb' lo' n = w.extractLsb' lo' n := by
  apply BitVec.eq_of_getLsbD_eq
  intro i hi
  have hbit : (bits w lo m).testBit (lo' + i - lo) = w.getLsbD (lo' + i) := by
    rw [bits, ← BitVec.getLsbD, BitVec.getLsbD_extractLsb', decide_eq_true (show lo' + i - lo < m by omega), Bool.true_and,
      show lo + (lo' + i - lo) = lo' + i by omega]
  rw [BitVec.getLsbD_extractLsb', BitVec.getLsbD_extractLsb', BitVec.getLsbD_ofNat, Nat.testBit_mul_two_pow, hbit]
  simp [show lo' + i < 64 by omega, show lo ≤ lo' + i by omega]

section
variable (w : DWord) {l l' : List (Nat × Nat)} (lo n i : Nat)

theorem packed_field (hi : l[i]? = some (n, (w.extractLsb' lo n).toNat)) (hlo : ((l.take i).map (·.1)).sum = lo)
    (hle : lo + n ≤ 64) : (BitVec.ofNat 64 (packLow l)).extractLsb' lo n = w.extractLsb' lo n :=
  (extract_packLow i hi hlo hle).trans (ofNat_extract w lo n)

theorem packed_bit (hi : l[i]? = some (1, (w.getLsbD lo).toNat)) (hlo : ((l.take i).map (·.1)).sum = lo)
    (hle : lo + 1 ≤ 64) : (BitVec.ofNat 64 (packLow l)).extractLsb' lo 1 = w.extractLsb' lo 1 :=
  (extract_packLow i hi hlo hle).trans (ofNat_getLsbD w lo)

variable {x z : Nat}

theorem packed_same (hi : l[i]? = some (n, z)) (hi' : l'[i]? = some (n, z)) (hlo : ((l.take i).map (·.1)).sum = lo)
    (hlo' : ((l'.take i).map (·.1)).sum = lo) (hle : lo + n ≤ 64) :
    (BitVec.ofNat 64 (packLow l)).extractLsb' lo n = (BitVec.ofNat 64 (packLow l')).extractLsb' lo n :=
  (extract_packLow i hi hlo hle).trans (extract_packLow i hi' hlo' hle).symm

/-- A field that takes what is written only when that is in range (R5). -/
theorem packed_field_keep {p : Prop} [Decidable p] {ok : Bool} (hok : ok = true ↔ p)
    (hx : x = if p then (w.extractLsb' lo n).toNat else z) (hi : l[i]? = some (n, x)) (hi' : l'[i]? = some (n, z))
    (hlo : ((l.take i).map (·.1)).sum = lo) (hlo' : ((l'.take i).map (·.1)).sum = lo) (hle : lo + n ≤ 64) :
    (BitVec.ofNat 64 (packLow l)).extractLsb' lo n = (if ok then w else BitVec.ofNat 64 (packLow l')).extractLsb' lo n := by
  by_cases h : p
  · rw [if_pos h] at hx
    rw [if_pos (hok.2 h)]
    exact packed_field w lo n i (hx ▸ hi) hlo hle
  · rw [if_neg h] at hx
    rw [if_neg (mt hok.1 h)]
    exact packed_same lo n i (hx ▸ hi) hi' hlo hlo' hle

end

/-! ### What each register holds after a write -/

/-- The fields of a register after a write, and its read-only fields (R5, R324). -/
def Written (r : SysReg) (w old new : DWord) : Prop :=
  (∀ f ∈ sysFields r, new.extractLsb' f.lo f.n = (if f.ok w then w else old).extractLsb' f.lo f.n) ∧
    ∀ f ∈ sysKept r, new.extractLsb' f.1 f.2 = old.extractLsb' f.1 f.2

section
variable (w old : DWord)

theorem written_schedmode : Written .schedmode w old (BitVec.ofNat 64 (w.getLsbD 0).toNat) := by
  simp only [Written, sysFields, sysKept, List.forall_mem_cons]
  exact ⟨⟨(extract_ofNat _ (by decide)).trans (ofNat_getLsbD w 0), nofun⟩, nofun⟩

theorem written_loopSE (r : SysReg) (hr : r = .loop0se ∨ r = .loop1se) (l : Loop) :
    Written r w old (loopSE (l.setSE w)) := by
  rcases hr with rfl | rfl <;>
  · simp only [Written, sysFields, sysKept, List.forall_mem_cons]
    exact ⟨⟨BitVec.extractLsb'_append_eq_right, BitVec.extractLsb'_append_eq_left, nofun⟩, nofun⟩

theorem written_loopCT (r : SysReg) (hr : r = .loop0ct ∨ r = .loop1ct) (l : Loop) :
    Written r w old (loopCT (l.setCT w)) := by
  rcases hr with rfl | rfl <;>
  · simp only [Written, sysFields, sysKept, List.forall_mem_cons]
    exact ⟨⟨packed_field w 0 32 0 rfl rfl (by decide), packed_bit w 62 2 rfl rfl (by decide),
      packed_bit w 63 3 rfl rfl (by decide), nofun⟩, nofun⟩

theorem written_trapst (y : TrapRegs) :
    Written .trapst w y.trapst { y with lact1 := w.getLsbD 4, lact0 := w.getLsbD 3, ppriv := w.getLsbD 2 }.trapst := by
  simp only [Written, sysFields, sysKept, List.forall_mem_cons]
  exact ⟨⟨packed_bit w 2 2 rfl rfl (by decide),
      extract_add (m := 1) (packed_bit w 3 3 rfl rfl (by decide)) (packed_bit w 4 4 rfl rfl (by decide)), nofun⟩,
    extract_add (m := 1) (packed_same 0 1 0 rfl rfl rfl rfl (by decide)) (packed_same 1 1 1 rfl rfl rfl rfl (by decide)),
    nofun⟩

theorem written_trappc : Written .trappc w old ((w.extractLsb' 0 32).setWidth 64) := by
  have hpc : (w.extractLsb' 0 32).setWidth 64 = BitVec.ofNat 64 (w.extractLsb' 0 32).toNat := (BitVec.ofNat_toNat ..).symm
  simp only [Written, sysFields, sysKept, List.forall_mem_cons, hpc]
  exact ⟨⟨(extract_ofNat _ (by decide)).trans (ofNat_extract w 0 32), nofun⟩, nofun⟩

theorem written_trapvec (y : TrapRegs) :
    Written .trapvec w old { y with en := w.getLsbD 63, entry := w.extractLsb' 0 32 }.trapvec := by
  simp only [Written, sysFields, sysKept, List.forall_mem_cons]
  exact ⟨⟨packed_field w 0 32 0 rfl rfl (by decide), packed_bit w 63 2 rfl rfl (by decide), nofun⟩, nofun⟩

theorem written_traprec : Written .traprec w old (BitVec.ofNat 64 (bits w 6 15 * 64)) := by
  simp only [Written, sysFields, sysKept, List.forall_mem_cons]
  exact ⟨⟨extract_bits_shifted w (lo := 6) (m := 15) le_rfl le_rfl (by decide), nofun⟩, nofun⟩

theorem written_stopflag {y : TrapRegs} (hpend : y.pend = w.getLsbD 0) (hdeep : y.deep = w.getLsbD 1) :
    Written .stopflag w old y.stopflag := by
  simp only [Written, sysFields, sysKept, List.forall_mem_cons, TrapRegs.stopflag, hpend, hdeep]
  exact ⟨⟨packed_bit w 0 0 rfl rfl (by decide), packed_bit w 1 1 rfl rfl (by decide), nofun⟩, nofun⟩

theorem written_savearea : Written .savearea w old (BitVec.ofNat 64 (bits w 28 36 * 2 ^ 28)) := by
  simp only [Written, sysFields, sysKept, List.forall_mem_cons]
  exact ⟨⟨extract_bits_shifted w le_rfl (by decide) (by decide), extract_bits_shifted w (by decide) (by decide) (by decide),
    nofun⟩, nofun⟩

/-- A register of one field at its bottom that takes only what is in range. -/
theorem written_low {r : SysReg} {n : Nat} {ok : DWord → Bool} (hr : sysFields r = [⟨0, n, ok⟩]) (hk : sysKept r = [])
    (hn : n ≤ 64) {p : Prop} [Decidable p] (hok : ok w = true ↔ p) (x : Nat) :
    Written r w (BitVec.ofNat 64 x) (BitVec.ofNat 64 (if p then bits w 0 n else x)) := by
  simp only [Written, hr, hk, List.forall_mem_cons]
  refine ⟨⟨?_, nofun⟩, nofun⟩
  by_cases h : p
  · rw [if_pos h, if_pos (hok.2 h)]
    exact (extract_ofNat _ hn).trans (ofNat_bits w 0 n)
  · rw [if_neg h, if_neg (mt hok.1 h)]

theorem written_agelimit (x : Nat) : Written .agelimit w (BitVec.ofNat 64 x)
    (BitVec.ofNat 64 (if 256 ≤ bits w 0 17 ∧ bits w 0 17 ≤ 65536 then bits w 0 17 else x)) :=
  written_low w rfl rfl (by decide) (by simp [bits_eq]) x

theorem written_bundlelimit (x : Nat) :
    Written .bundlelimit w (BitVec.ofNat 64 x) (BitVec.ofNat 64 (if 64 ≤ bits w 0 16 then bits w 0 16 else x)) :=
  written_low w rfl rfl (by decide) (by simp [bits_eq]) x

theorem written_stopwin (x : Nat) :
    Written .stopwin w (BitVec.ofNat 64 x) (BitVec.ofNat 64 (if 1024 ≤ bits w 0 32 then bits w 0 32 else x)) :=
  written_low w rfl rfl (by decide) (by simp [bits_eq]) x

theorem written_ptroot (gen : Nat) : Written .ptroot w old (BitVec.ofNat 64 (packLow [(16, gen),
    (12, (w.extractLsb' 16 12).toNat), (20, (w.extractLsb' 28 20).toNat), (16, (w.extractLsb' 48 16).toNat)])) := by
  simp only [Written, sysFields, sysKept, List.forall_mem_cons]
  exact ⟨⟨packed_field w 16 12 1 rfl rfl (by decide), packed_field w 28 20 2 rfl rfl (by decide),
    packed_field w 48 16 3 rfl rfl (by decide), nofun⟩, nofun⟩

theorem written_rfctr (c : CtxSet) :
    Written .rfctr w old { c with rfEn := w.getLsbD 63, rfCid := bits w 0 24 }.rfctr := by
  simp only [Written, sysFields, sysKept, List.forall_mem_cons]
  exact ⟨⟨packed_field w 0 24 0 rfl rfl (by decide), packed_bit w 63 2 rfl rfl (by decide), nofun⟩, nofun⟩

theorem written_memgov (g : MemGov) : Written .memgov w (memgovWord g) (memgovWord (g.write w)) := by
  simp only [Written, sysFields, sysKept, List.forall_mem_cons]
  exact ⟨⟨packed_field_keep w 4 3 2 (by simp [bits_eq]; omega) (apply_ite ..) rfl rfl rfl rfl (by decide),
    packed_field_keep w 8 3 4 (by simp [bits_eq]; omega) (apply_ite ..) rfl rfl rfl rfl (by decide),
    packed_bit w 11 5 rfl rfl (by decide), packed_field w 16 16 7 rfl rfl (by decide),
    packed_field w 32 16 8 rfl rfl (by decide),
    packed_field_keep w 48 8 9 (by simp [bits_eq]) (apply_ite ..) rfl rfl rfl rfl (by decide), nofun⟩,
    packed_same 0 3 0 rfl rfl rfl rfl (by decide), nofun⟩

/-- A register whose fields all refuse what is written. -/
theorem written_refused {r : SysReg} (h : ∀ f ∈ sysFields r, f.ok w = false) : Written r w old old :=
  ⟨fun f hf => by simp [h f hf], fun _ _ => rfl⟩

theorem written_mlrjoin (x : Die) : Written .mlrjoin w (x.readReg .mlrjoin) ((x.writeReg w .mlrjoin).readReg .mlrjoin) := by
  have hread : (x.writeReg w .mlrjoin).readReg .mlrjoin = BitVec.ofNat 64
      (if 1024 ≤ bits w 0 25 ∧ bits w 0 25 ≤ 16777216 then bits w 0 25 else x.mlrjoin) := by
    simp only [Die.writeReg]
    split <;> rfl
  rw [hread]
  exact written_low w rfl rfl (by decide) (by simp [bits_eq]) x.mlrjoin

theorem written_ctrarea (x : Die) : Written .ctrarea w (x.readReg .ctrarea) ((x.writeReg w .ctrarea).readReg .ctrarea) := by
  simp only [Written, sysFields, sysKept, List.forall_mem_cons]
  exact ⟨⟨packed_field_keep w 0 11 0 (by simp [bits_eq]) rfl rfl rfl rfl rfl (by decide),
    packed_field w 32 20 2 rfl rfl (by decide), nofun⟩, nofun⟩

theorem written_savepool (x : Die) :
    Written .savepool w (x.readReg .savepool) ((x.writeReg w .savepool).readReg .savepool) := by
  by_cases h : bits w 32 20 ≤ 0xF5AE0
  · have hok : w.toNat / 2 ^ 32 % 2 ^ 20 ≤ 0xF5AE0 := bits_eq w 32 20 ▸ h
    simp only [Written, sysFields, sysKept, List.forall_mem_cons, Die.writeReg, if_pos h, hok, decide_true, if_true]
    exact ⟨⟨packed_field w 32 20 1 rfl rfl (by decide), packed_bit w 63 3 rfl rfl (by decide), nofun⟩, nofun⟩
  · have hok : ¬ w.toNat / 2 ^ 32 % 2 ^ 20 ≤ 0xF5AE0 := bits_eq w 32 20 ▸ h
    rw [Die.writeReg, if_neg h]
    exact written_refused w _ (by simpa [sysFields] using hok)

theorem written_qcfg (q : BitVec 4) (c : QCfg) : Written (.qcfg q) w c.word
    (QCfg.word ⟨w.getLsbD 63, if bits w 44 4 < 8 then w.extractLsb' 44 4 else c.stn, w.extractLsb' 24 20,
      w.extractLsb' 0 24⟩) := by
  simp only [Written, sysFields, sysKept, List.forall_mem_cons]
  exact ⟨⟨packed_field w 0 24 0 rfl rfl (by decide), packed_field w 24 20 1 rfl rfl (by decide),
    packed_field_keep w 44 4 2 (by simp [bits_eq]) (apply_ite ..) rfl rfl rfl rfl (by decide),
    packed_bit w 63 4 rfl rfl (by decide), nofun⟩, nofun⟩

end

/-! ### What a register reads after a write -/

theorem cluster_each_onCluster {f : Cluster → Cluster} (hf : ∀ x, f (f x) = f x) (l : List Nat) (s : State) (m : Nat) :
    (s.each l fun s c => s.onCluster c f).cluster m = if m ∈ l then f (s.cluster m) else s.cluster m := by
  unfold State.each
  induction l generalizing s with
  | nil => rfl
  | cons c l ih =>
    rw [List.foldl_cons, ih, State.cluster_onCluster]
    by_cases hl : m ∈ l <;> by_cases hc : m = c <;> simp [hl, hc, hf]

/-- A request to stop writes its strand's flag, and sets steps on the agenda. -/
theorem requestStop_cases (s : State) (t k : Nat) (deep : Bool) :
    ∃ f : Strand → Strand, (∀ x, (f x).trap = { x.trap with pend := true, deep := deep }) ∧
      ∃ l m, s.requestStop t k deep = { s.onStrand t k f with agenda := l, slack := m } := by
  simp only [State.requestStop]
  generalize hu : s.onStrand t k _ = u
  generalize hv : (if deep = true then u.sched u.cc 14 (.stopWindowExpiry t k) else _ : State) = v
  have huv : ∃ a, v = { u with agenda := a } := by
    split at hv
    · exact ⟨_, hv.symm⟩
    · split at hv
      · exact ⟨_, hv.symm⟩
      · exact ⟨u.agenda, hv.symm⟩
  obtain ⟨a, rfl⟩ := huv
  obtain ⟨l, m, h⟩ := wakeSleepers_cases { u with agenda := a }
  have hflag : ∃ f : Strand → Strand, u = s.onStrand t k f ∧ ∀ x, (f x).trap = { x.trap with pend := true, deep := deep } :=
    ⟨_, hu.symm, fun _ => rfl⟩
  obtain ⟨f, rfl, hf⟩ := hflag
  exact ⟨f, hf, l, m, h⟩

theorem trap_requestStop (s : State) (t k : Nat) (deep : Bool) :
    ((s.requestStop t k deep).strand t k).trap = { (s.strand t k).trap with pend := true, deep := deep } := by
  obtain ⟨f, hf, l, m, h⟩ := requestStop_cases s t k deep
  rw [h, ← hf, ← State.strand_onStrand_same s t k f]
  rfl

theorem ctxSet_onCtxSet (s : State) (t : Nat) (f : CtxSet → CtxSet) : (s.onCtxSet t f).ctxSet t = f (s.ctxSet t) := by
  simp only [State.ctxSet, State.onCtxSet, State.die_onDie_same]
  exact SMap.get_put_same ..

theorem queueCfg_setQueue (s : State) (q : Nat) (w : DWord) : (s.setQueue q w).queueCfg q =
    ⟨w.getLsbD 63, if bits w 44 4 < 8 then w.extractLsb' 44 4 else (s.queueCfg q).stn, w.extractLsb' 24 20,
      w.extractLsb' 0 24⟩ := by
  simp only [State.setQueue]
  split <;> exact SMap.get_put_same ..

theorem written_sysWrite {s : State} {n : Nat} (hn : clusterOf n ∈ s.launchClusters n) (k : Nat) (r : SysReg) (w : DWord) :
    Written r w (s.sysRead n k r) ((s.sysWrite n k r w).sysRead n k r) := by
  cases r with
  | schedmode =>
    simp only [State.sysRead, State.sysWrite, State.strand_onStrand_same]
    exact written_schedmode w _
  | efrv | efra => exact ⟨nofun, nofun⟩
  | loop0se | loop1se =>
    simp only [State.sysRead, State.sysWrite, State.strand_onStrand_same]
    exact written_loopSE w _ _ (by decide) _
  | loop0ct | loop1ct =>
    simp only [State.sysRead, State.sysWrite, State.strand_onStrand_same]
    exact written_loopCT w _ _ (by decide) _
  | trapst =>
    simp only [State.sysRead, State.sysWrite, State.strand_onStrand_same]
    exact written_trapst w _
  | trappc =>
    simp only [State.sysRead, State.sysWrite, State.strand_onStrand_same]
    exact written_trappc w _
  | trapvec =>
    simp only [State.sysRead, State.sysWrite, State.strand_onStrand_same]
    exact written_trapvec w _ _
  | traprec =>
    simp only [State.sysRead, State.sysWrite, State.strand_onStrand_same]
    exact written_traprec w _
  | stopflag =>
    simp only [State.sysRead, State.sysWrite]
    by_cases h : w.getLsbD 0 = true
    · rw [if_pos h, trap_requestStop]
      exact written_stopflag w _ h.symm rfl
    · rw [if_neg h, State.cancelStop, State.strand_onStrand_same]
      exact written_stopflag w _ (Bool.not_eq_true _ ▸ h).symm rfl
  | savearea =>
    simp only [State.sysRead, State.sysWrite, State.tile_onTile_same]
    exact written_savearea w _
  | waypart => exact ⟨nofun, fun _ _ => rfl⟩
  | ptroot =>
    simp only [State.sysRead, State.sysWrite]
    rw [cluster_each_onCluster, if_pos hn]
    · exact written_ptroot w _ _
    · exact fun _ => rfl
  | agelimit =>
    have hage : ((s.sysWrite n k .agelimit w).ctxSet n).age =
        if 256 ≤ bits w 0 17 ∧ bits w 0 17 ≤ 65536 then bits w 0 17 else (s.ctxSet n).age := by
      simp only [State.sysWrite]
      split
      · rw [ctxSet_onCtxSet]
      · rfl
    simp only [State.sysRead, hage]
    exact written_agelimit w _
  | rfctr =>
    simp only [State.sysRead, State.sysWrite, ctxSet_onCtxSet]
    exact written_rfctr w _ _
  | migthr =>
    simp only [State.sysRead, State.sysWrite, State.die_onDie_same]
    exact ⟨by simp [sysFields, Die.writeReg, Die.readReg], nofun⟩
  | mlrjoin =>
    simp only [State.sysRead, State.sysWrite, State.die_onDie_same]
    exact written_mlrjoin w _
  | ctrarea =>
    simp only [State.sysRead, State.sysWrite, State.die_onDie_same]
    exact written_ctrarea w _
  | memgov =>
    simp only [State.sysRead, State.sysWrite, State.die_onDie_same]
    exact written_memgov w _
  | savepool =>
    simp only [State.sysRead, State.sysWrite, State.die_onDie_same]
    exact written_savepool w _
  | bundlelimit =>
    have hlimit : (s.sysWrite n k .bundlelimit w).bundlelimit =
        if 64 ≤ bits w 0 16 then bits w 0 16 else s.bundlelimit := by
      simp only [State.sysWrite, State.pkgWrite]
      split <;> rfl
    simp only [State.sysRead, State.pkgRead, hlimit]
    exact written_bundlelimit w _
  | stopwin =>
    have hwin : (s.sysWrite n k .stopwin w).stopwin = if 1024 ≤ bits w 0 32 then bits w 0 32 else s.stopwin := by
      simp only [State.sysWrite, State.pkgWrite]
      split <;> rfl
    simp only [State.sysRead, State.pkgRead, hwin]
    exact written_stopwin w _
  | qcfg q =>
    simp only [State.sysRead, State.sysWrite, State.pkgRead, State.pkgWrite, queueCfg_setQueue]
    exact written_qcfg w q _
  | readymap => exact ⟨nofun, fun _ _ => rfl⟩

/-! ### What a write leaves -/

theorem onlyStrandOf_sysWrite {r : SysReg} (hr : ofStrand r = true) (s : State) (n k : Nat) (w : DWord) :
    OnlyStrandOf s (s.sysWrite n k r w) n k := by
  cases r with
  | schedmode | efrv | loop0se | loop0ct | loop1se | loop1ct | trapst | trappc | trapvec | traprec =>
    exact onlyStrandOf_onStrand s n k _
  | _ => cases hr

theorem Die.writeReg_mem (x : Die) (w : DWord) (r : SysReg) : (x.writeReg w r).mem = x.mem := by
  cases r with
  | mlrjoin | savepool => simp only [Die.writeReg]; split <;> rfl
  | _ => rfl

theorem pkgWrite_parts (s : State) (w : DWord) (r : SysReg) :
    (s.pkgWrite w r).tiles = s.tiles ∧ (s.pkgWrite w r).clusters = s.clusters ∧ (s.pkgWrite w r).dies = s.dies := by
  cases r with
  | bundlelimit | stopwin => simp only [State.pkgWrite]; split <;> exact ⟨rfl, rfl, rfl⟩
  | qcfg q => simp only [State.pkgWrite, State.setQueue]; split <;> exact ⟨rfl, rfl, rfl⟩
  | _ => exact ⟨rfl, rfl, rfl⟩

theorem sameBytes_pkgWrite (s : State) (w : DWord) (r : SysReg) : SameBytes s (s.pkgWrite w r) :=
  let ⟨ht, hc, hd⟩ := pkgWrite_parts s w r
  sameBytes_of_parts ht hc hd

theorem sameBytes_requestStop (s : State) (n k : Nat) (deep : Bool) : SameBytes s (s.requestStop n k deep) := by
  obtain ⟨f, -, l, m, h⟩ := requestStop_cases s n k deep
  rw [h]
  exact sameBytes_onStrand s n k f

theorem sameBytes_sysWrite (s : State) (n k : Nat) (r : SysReg) (w : DWord) : SameBytes s (s.sysWrite n k r w) := by
  cases r with
  | schedmode | efrv | loop0se | loop0ct | loop1se | loop1ct | trapst | trappc | trapvec | traprec =>
    exact sameBytes_onStrand s n k _
  | efra | savearea => exact sameBytes_onTile s n _ fun _ => rfl
  | stopflag =>
    simp only [State.sysWrite]
    split
    · exact sameBytes_requestStop s n k _
    · exact sameBytes_onStrand s n k _
  | waypart => exact sameBytes_refl s
  | ptroot =>
    refine each_keeps SameBytes sameBytes_refl (fun _ _ _ => sameBytes_trans) _ _ (fun u c => ?_) s
    exact sameBytes_onCluster u c _ fun _ => rfl
  | agelimit =>
    simp only [State.sysWrite]
    split
    · exact sameBytes_onDie s _ _ fun _ => rfl
    · exact sameBytes_refl s
  | rfctr => exact sameBytes_onDie s _ _ fun _ => rfl
  | migthr | mlrjoin | ctrarea | memgov | savepool => exact sameBytes_onDie s _ _ fun x => Die.writeReg_mem x w _
  | bundlelimit | stopwin | qcfg q | readymap => exact sameBytes_pkgWrite s w _

theorem strand_sysWrite {r : SysReg} (hr : ofStrand r = false) (hstop : r ≠ .stopflag) (s : State) (n k : Nat) (w : DWord)
    (m j : Nat) : (s.sysWrite n k r w).strand m j = s.strand m j := by
  have htiles {t : State} (h : t.tiles = s.tiles) : t.strand m j = s.strand m j := by
    rw [State.strand, State.tile, h]; rfl
  have hfield {f : Tile → Tile} (h : ∀ x, (f x).strands = x.strands) : (s.onTile n f).strand m j = s.strand m j := by
    rw [State.strand_onTile]
    split
    · next e => rw [e, Tile.strand, h]; rfl
    · rfl
  cases r with
  | efra => exact hfield fun _ => rfl
  | savearea =>
    simp only [State.sysWrite]
    -- Kept apart: the kernel would compare the written value with the old one by evaluating it.
    generalize BitVec.ofNat 64 (bits w 28 36 * 2 ^ 28) = area
    exact hfield fun _ => rfl
  | ptroot =>
    refine htiles (each_keeps (fun a b => b.tiles = a.tiles) (fun _ => rfl) (fun _ _ _ h g => g.trans h) _ _ (fun u c => ?_) s)
    rfl
  | agelimit =>
    simp only [State.sysWrite]
    split
    · exact htiles rfl
    · rfl
  | waypart | rfctr | migthr | mlrjoin | ctrarea | memgov | savepool => exact htiles rfl
  | bundlelimit | stopwin | qcfg q | readymap => exact htiles (pkgWrite_parts s w _).1
  | stopflag => exact absurd rfl hstop
  | _ => cases hr

/-! ### Flags that a one clears -/

/-- Flags stand one bit each at the bottom of a register, and a one written to a flag clears it: each pair is a flag and the
bit that is written to it. -/
theorem packLow_clear (ps : List (Bool × Bool)) (rest : List (Nat × Nat)) (i : Nat) :
    (packLow ((ps.map fun p => (1, (p.1 && !p.2).toNat)) ++ rest)).testBit i =
      ((packLow ((ps.map fun p => (1, p.1.toNat)) ++ rest)).testBit i && !((ps[i]?.map (·.2)).getD false)) := by
  have hbit (b : Bool) (l : List (Nat × Nat)) (i : Nat) :
      (packLow ((1, b.toNat) :: l)).testBit i = if i = 0 then b else (packLow l).testBit (i - 1) := by
    rw [packLow, Nat.add_comm, Nat.testBit_two_pow_mul_add _ (Nat.mod_lt _ (Nat.two_pow_pos 1))]
    cases i <;> cases b <;> simp
  induction ps generalizing i with
  | nil => simp
  | cons p ps ih =>
    simp only [List.map_cons, List.cons_append, hbit]
    cases i with
    | zero => simp
    | succ i => simpa using ih i

theorem ofNat_packLow_clear (ps : List (Bool × Bool)) (rest : List (Nat × Nat)) (ones : DWord)
    (hones : ∀ i, i < 64 → (ps[i]?.map (·.2)).getD false = ones.getLsbD i) :
    BitVec.ofNat 64 (packLow ((ps.map fun p => (1, (p.1 && !p.2).toNat)) ++ rest)) =
      BitVec.ofNat 64 (packLow ((ps.map fun p => (1, p.1.toNat)) ++ rest)) &&& ~~~ones := by
  apply BitVec.eq_of_getLsbD_eq
  intro i hi
  rw [BitVec.getLsbD_and, BitVec.getLsbD_not, BitVec.getLsbD_ofNat, BitVec.getLsbD_ofNat, packLow_clear, hones i hi]
  simp [hi]

theorem efrV_clear (m : FmtV) (f : Flags) (w : DWord) : efrV m (f.clear w) = efrV m f &&& ~~~(w &&& 0x3F) :=
  ofNat_packLow_clear [(f.nv, w.getLsbD 0), (f.dz, w.getLsbD 1), (f.ov, w.getLsbD 2), (f.uf, w.getLsbD 3),
    (f.nx, w.getLsbD 4), (f.cl, w.getLsbD 5)] _ _ fun i hi => by interval_cases i <;> simp

theorem efrA_clear (m : FmtA) (f : EngFlags) (w : DWord) : efrA m (f.clear w) = efrA m f &&& ~~~(w &&& 7) :=
  ofNat_packLow_clear [(f.nv, w.getLsbD 0), (f.ov, w.getLsbD 1), (f.cl, w.getLsbD 2)] _ _ fun i hi => by
    interval_cases i <;> simp

theorem sysRead_sysWrite_efrv (s : State) (n k : Nat) (w : DWord) :
    (s.sysWrite n k .efrv w).sysRead n k .efrv = s.sysRead n k .efrv &&& ~~~(w &&& 0x3F) := by
  simp only [State.sysRead, State.sysWrite, State.strand_onStrand_same, ← efrV_clear]
  rfl

theorem fmt_of_parts {x y : Tile} (hlog : y.fmtALog = x.fmtALog) (hfmt : y.fmtA = x.fmtA) (hstrands : y.strands = x.strands)
    (k cc : Nat) : y.fmt k cc = x.fmt k cc := by
  rw [Tile.fmt, Tile.fmt, Tile.strand, Tile.strand, hlog, hfmt, hstrands]

theorem sysRead_sysWrite_efra (s : State) (n k : Nat) (w : DWord) :
    (s.sysWrite n k .efra w).sysRead n k .efra = s.sysRead n k .efra &&& ~~~(w &&& 7) := by
  simp only [State.sysRead, State.sysWrite, State.tile_onTile_same, State.onTile_cc, ← efrA_clear]
  exact congrArg₂ efrA (fmt_of_parts rfl rfl rfl k s.cc) rfl

/-! ### Formats that are seen late (R71) -/

/-- The format that a log shows when all its writes are seen: the last of them. -/
theorem foldl_of_all_seen {α β : Type} {p : α → Prop} [DecidablePred p] (g : α → β) {l : List α} (h : ∀ e ∈ l, p e) (a : β) :
    l.foldl (fun a e => if p e then g e else a) a = (l.getLast?.map g).getD a := by
  rcases List.eq_nil_or_concat l with rfl | ⟨l, e, rfl⟩
  · rfl
  · simp [List.foldl_append, h e (by simp)]

theorem foldl_append_seen {α β : Type} {p : α → Prop} [DecidablePred p] (g : α → β) (l : List α) {e : α} (h : p e) (a : β) :
    (l ++ [e]).foldl (fun a e => if p e then g e else a) a = g e := by
  simp [List.foldl_append, h]

/-- What a write that is not yet seen changes: nothing. -/
theorem foldl_append_unseen {α β : Type} {p : α → Prop} [DecidablePred p] (g : α → β) (l : List α) {e : α} (h : ¬p e) (a : β) :
    (l ++ [e]).foldl (fun a e => if p e then g e else a) a = l.foldl (fun a e => if p e then g e else a) a := by
  simp [List.foldl_append, h]

theorem keepIf_toNat {n : Nat} (bad new old : BitVec n) :
    (keepIf bad new old).toNat = if new ≠ bad then new.toNat else old.toNat := by
  unfold keepIf; split <;> simp [*]

theorem extract_ne_iff (w : DWord) (lo n : Nat) (v : BitVec n) :
    w.extractLsb' lo n ≠ v ↔ w.toNat / 2 ^ lo % 2 ^ n ≠ v.toNat := by
  rw [← bits_eq, bits, ne_eq, ne_eq, BitVec.toNat_inj]

theorem efrV_write (m : FmtV) (fl : Flags) (w : DWord) : ∀ f ∈ formatFields .efrv,
    (efrV (m.write w) fl).extractLsb' f.lo f.n = (if f.ok w then w else efrV m fl).extractLsb' f.lo f.n := by
  simp only [formatFields, List.forall_mem_cons]
  exact ⟨packed_field w 10 2 7 rfl rfl (by decide),
    packed_field_keep w 12 2 8 (by simpa using (extract_ne_iff w 12 2 3).symm) (keepIf_toNat ..) rfl rfl rfl rfl (by decide),
    packed_field_keep w 14 2 9 (by simpa using (extract_ne_iff w 14 2 3).symm) (keepIf_toNat ..) rfl rfl rfl rfl (by decide),
    nofun⟩

theorem extract_extract (w : DWord) {lo m lo' n : Nat} (h : lo' + n ≤ m) :
    (w.extractLsb' lo m).extractLsb' lo' n = w.extractLsb' (lo + lo') n := by
  apply BitVec.eq_of_getLsbD_eq
  intro i hi
  simp [show lo' + i < m by omega, Nat.add_assoc]

theorem fmtAOf_extract (w : DWord) : fmtAOf (w.extractLsb' 11 12) = ⟨w.getLsbD 22, w.extractLsb' 20 2, w.getLsbD 19,
    w.getLsbD 18, w.extractLsb' 16 2, w.getLsbD 15, w.extractLsb' 13 2, w.extractLsb' 11 2⟩ := by
  simp only [fmtAOf, extract_extract w (show 9 + 2 ≤ 12 by decide), extract_extract w (show 5 + 2 ≤ 12 by decide),
    extract_extract w (show 2 + 2 ≤ 12 by decide), extract_extract w (show 0 + 2 ≤ 12 by decide)]
  simp

/-- R69: the split codes that EFR.A refuses. -/
theorem split_ok_iff (w : DWord) :
    (w.toNat / 2 ^ 11 % 4 ≠ 1 && !(w.toNat / 2 ^ 18 % 2 = 1 && w.toNat / 2 ^ 11 % 4 = 2)) = true ↔
      ¬(w.extractLsb' 11 2 = 1 || w.getLsbD 18 && w.extractLsb' 11 2 = 2) = true := by
  have hbit : w.getLsbD 18 = decide (w.toNat / 2 ^ 18 % 2 = 1) := Nat.testBit_eq_decide_div_mod_eq
  have hval (v : BitVec 2) : w.extractLsb' 11 2 = v ↔ w.toNat / 2 ^ 11 % 4 = v.toNat := by
    rw [← BitVec.toNat_inj, BitVec.extractLsb'_toNat, Nat.shiftRight_eq_div_pow]
  rw [hbit]
  simp [hval, imp_iff_not_or]

theorem efrA_write (m : FmtA) (fl : EngFlags) (w : DWord) : ∀ f ∈ formatFields .efra,
    (efrA (m.write w) fl).extractLsb' f.lo f.n = (if f.ok w then w else efrA m fl).extractLsb' f.lo f.n := by
  simp only [formatFields, List.forall_mem_cons, FmtA.write, fmtAOf_extract]
  refine ⟨packed_field_keep w 11 2 4 (split_ok_iff w) ?_ rfl rfl rfl rfl (by decide),
    packed_field w 13 2 5 rfl rfl (by decide), packed_bit w 15 6 rfl rfl (by decide),
    packed_field_keep w 16 2 7 (by simpa using (extract_ne_iff w 16 2 3).symm) (keepIf_toNat ..) rfl rfl rfl rfl (by decide),
    packed_bit w 18 8 rfl rfl (by decide), packed_bit w 19 9 rfl rfl (by decide),
    packed_field_keep w 20 2 10 (by simpa using (extract_ne_iff w 20 2 3).symm) (keepIf_toNat ..) rfl rfl rfl rfl (by decide),
    packed_bit w 22 11 rfl rfl (by decide), nofun⟩
  rw [apply_ite BitVec.toNat, ite_not]


theorem Strand.fmt_append_of_unseen {x : Strand} {e : FmtVWrite} (h : x.bundles < e.fromBundle) :
    Strand.fmt { x with fmtVLog := x.fmtVLog ++ [e] } = x.fmt :=
  foldl_append_unseen FmtVWrite.fmt x.fmtVLog (Nat.not_le.2 h) x.fmtV

theorem Strand.fmt_append_of_seen {x : Strand} {e : FmtVWrite} (h : e.fromBundle ≤ x.bundles) :
    Strand.fmt { x with fmtVLog := x.fmtVLog ++ [e] } = e.fmt :=
  foldl_append_seen FmtVWrite.fmt x.fmtVLog h x.fmtV

theorem Strand.fmt_of_all_seen {x : Strand} (h : ∀ e ∈ x.fmtVLog, e.fromBundle ≤ x.bundles) : x.fmt = x.lastFmt :=
  foldl_of_all_seen FmtVWrite.fmt h x.fmtV

/-- Whether strand k sees a write of EFR.A's format at a cc (R71). -/
abbrev Tile.sees (x : Tile) (k cc : Nat) (e : FmtAWrite) : Prop :=
  if e.strand = k then e.fromBundle ≤ (x.strand k).bundles else e.fromCc ≤ cc

theorem Tile.fmt_append_of_unseen {x : Tile} {k cc : Nat} {e : FmtAWrite} (h : ¬x.sees k cc e) :
    Tile.fmt { x with fmtALog := x.fmtALog ++ [e] } k cc = x.fmt k cc :=
  foldl_append_unseen FmtAWrite.fmt x.fmtALog h x.fmtA

theorem Tile.fmt_append_of_seen {x : Tile} {k cc : Nat} {e : FmtAWrite} (h : x.sees k cc e) :
    Tile.fmt { x with fmtALog := x.fmtALog ++ [e] } k cc = e.fmt :=
  foldl_append_seen FmtAWrite.fmt x.fmtALog h x.fmtA

theorem Tile.fmt_of_all_seen {x : Tile} {k cc : Nat} (h : ∀ e ∈ x.fmtALog, x.sees k cc e) : x.fmt k cc = x.lastFmt :=
  foldl_of_all_seen FmtAWrite.fmt h x.fmtA

/-! ### SWR of a format -/

theorem exec_swr {s : State} (h : s.me.trap.priv = true) (g : Reg) (r : SysReg) :
    exec (.swr g r) s = .next ((s.writeFmt r (s.me.readG g)).sched (s.cc + 1) 0
      (.systemRegisterPropagate s.bun.tile s.bun.strand r (s.me.readG g))) := by
  have hpriv : privileged s = .ok := by rw [privileged, h]; rfl
  show execSwr g r s = _
  rw [execSwr, guarded, hpriv]
  split <;> rfl

/-- EFR.V behind a write of its format that the strand sees, and before one that it does not. -/
theorem efrV_append {x : Strand} (w : DWord) (b : Nat) (fl : Flags) :
    (x.bundles < b → efrV (Strand.fmt { x with fmtVLog := x.fmtVLog ++ [⟨b, x.lastFmt.write w⟩] }) fl = efrV x.fmt fl) ∧
    (b ≤ x.bundles → (∀ e ∈ x.fmtVLog, e.fromBundle ≤ x.bundles) → ∀ f ∈ formatFields .efrv,
      (efrV (Strand.fmt { x with fmtVLog := x.fmtVLog ++ [⟨b, x.lastFmt.write w⟩] }) fl).extractLsb' f.lo f.n =
        (if f.ok w then w else efrV x.fmt fl).extractLsb' f.lo f.n) := by
  refine ⟨fun h => ?_, fun h hlog => ?_⟩
  · rw [Strand.fmt_append_of_unseen h]
  · rw [Strand.fmt_append_of_seen h, Strand.fmt_of_all_seen hlog]
    exact efrV_write x.lastFmt fl w

theorem efrA_append {x : Tile} {k cc : Nat} {e : FmtAWrite} (w : DWord) (he : e.fmt = x.lastFmt.write w) (fl : EngFlags) :
    (¬x.sees k cc e → efrA (Tile.fmt { x with fmtALog := x.fmtALog ++ [e] } k cc) fl = efrA (x.fmt k cc) fl) ∧
    (x.sees k cc e → (∀ e ∈ x.fmtALog, x.sees k cc e) → ∀ f ∈ formatFields .efra,
      (efrA (Tile.fmt { x with fmtALog := x.fmtALog ++ [e] } k cc) fl).extractLsb' f.lo f.n =
        (if f.ok w then w else efrA (x.fmt k cc) fl).extractLsb' f.lo f.n) := by
  refine ⟨fun h => ?_, fun h hlog => ?_⟩
  · rw [Tile.fmt_append_of_unseen h]
  · rw [Tile.fmt_append_of_seen h, Tile.fmt_of_all_seen hlog, he]
    exact efrA_write x.lastFmt fl w

theorem sysRead_onStrand_efrv (s : State) (n k : Nat) (f : Strand → Strand) :
    (s.onStrand n k f).sysRead n k .efrv = efrV (f (s.strand n k)).fmt (f (s.strand n k)).flags := by
  simp only [State.sysRead, State.strand_onStrand_same]

theorem sysRead_onStrand_efra (s : State) (n k : Nat) (f : Strand → Strand) :
    (s.onStrand n k f).sysRead n k .efra =
      efrA (((s.tile n).setStrand k (f (s.strand n k))).fmt k s.cc) (s.tile n).flagsA := by
  simp only [State.sysRead, State.tile_onStrand, if_true]
  rfl

/-- R71: a write of EFR.V's format is seen from the strand's third bundle on. -/
theorem sysRead_writeFmt_efrv (s : State) (w : DWord) (i : Nat)
    (hlog : ∀ e ∈ s.me.fmtVLog, e.fromBundle ≤ s.me.bundles + 3) :
    let later (u : State) : DWord :=
      (u.onStrand s.bun.tile s.bun.strand fun y => { y with bundles := s.me.bundles + i }).sysRead s.bun.tile s.bun.strand .efrv
    (i < 3 → later (s.writeFmt .efrv w) = later s) ∧ (3 ≤ i → ∀ f ∈ formatFields .efrv,
      (later (s.writeFmt .efrv w)).extractLsb' f.lo f.n = (if f.ok w then w else later s).extractLsb' f.lo f.n) := by
  intro later
  have hlater (u : State) : later u = efrV (Strand.fmt { u.strand s.bun.tile s.bun.strand with bundles := s.me.bundles + i })
      (u.strand s.bun.tile s.bun.strand).flags := sysRead_onStrand_efrv u _ _ _
  have hme : (s.writeFmt .efrv w).strand s.bun.tile s.bun.strand =
      { s.me with fmtVLog := s.me.fmtVLog ++ [⟨s.me.bundles + 3, s.me.lastFmt.write w⟩] } := State.me_onMe ..
  obtain ⟨hunseen, hseen⟩ := efrV_append (x := { s.me with bundles := s.me.bundles + i }) w (s.me.bundles + 3) s.me.flags
  rw [hlater, hlater, hme]
  exact ⟨fun h => hunseen (Nat.add_lt_add_left h _), fun h => hseen (Nat.add_le_add_left h _) fun e he =>
    (hlog e he).trans (Nat.add_le_add_left h _)⟩

/-- The write of EFR.A's format that a strand logs: its own third bundle sees it, other strands do from the third cc on. -/
theorem tile_writeFmt_efra (s : State) (w : DWord) : (s.writeFmt .efra w).tile s.bun.tile = { s.myTile with
    fmtALog := s.myTile.fmtALog ++ [⟨s.bun.strand, s.me.bundles + 3, s.cc + 3, s.myTile.lastFmt.write w⟩] } :=
  State.myTile_onMyTile ..

theorem sysRead_writeFmt_efra (s : State) (w : DWord) (i : Nat) (hlog : ∀ e ∈ s.myTile.fmtALog,
      if e.strand = s.bun.strand then e.fromBundle ≤ s.me.bundles + 3 else e.fromCc ≤ s.cc) :
    let later (u : State) : DWord :=
      (u.onStrand s.bun.tile s.bun.strand fun y => { y with bundles := s.me.bundles + i }).sysRead s.bun.tile s.bun.strand .efra
    (i < 3 → later (s.writeFmt .efra w) = later s) ∧ (3 ≤ i → ∀ f ∈ formatFields .efra,
      (later (s.writeFmt .efra w)).extractLsb' f.lo f.n = (if f.ok w then w else later s).extractLsb' f.lo f.n) := by
  intro later
  have hlater (u : State) : later u = efrA (((u.tile s.bun.tile).setStrand s.bun.strand
      { u.strand s.bun.tile s.bun.strand with bundles := s.me.bundles + i }).fmt s.bun.strand u.cc)
      (u.tile s.bun.tile).flagsA := sysRead_onStrand_efra u _ _ _
  have hme : (s.writeFmt .efra w).strand s.bun.tile s.bun.strand = s.me := State.me_onMyTile s _ fun _ => rfl
  generalize hy : s.myTile.setStrand s.bun.strand { s.me with bundles := s.me.bundles + i } = y
  have hsees (e : FmtAWrite) : y.sees s.bun.strand s.cc e ↔
      if e.strand = s.bun.strand then e.fromBundle ≤ s.me.bundles + i else e.fromCc ≤ s.cc := by
    rw [Tile.sees, ← hy, Tile.strand_setStrand_same]
  obtain ⟨hunseen, hseen⟩ := efrA_append (x := y) (k := s.bun.strand) (cc := s.cc)
    (e := ⟨s.bun.strand, s.me.bundles + 3, s.cc + 3, y.lastFmt.write w⟩) w rfl s.myTile.flagsA
  rw [hsees, if_pos rfl] at hunseen hseen
  rw [hlater, hlater, tile_writeFmt_efra, hme]
  subst hy
  refine ⟨fun h => hunseen (Nat.not_le.2 (Nat.add_lt_add_left h _)), fun h => hseen (Nat.add_le_add_left h _) fun e he =>
    (hsees e).2 ?_⟩
  have hseenNow := hlog e he
  split at hseenNow
  · next hs => rw [if_pos hs]; omega
  · next hs => rw [if_neg hs]; exact hseenNow

theorem sysRead_writeFmt_efra_other (s : State) (w : DWord) {j : Nat} (hj : j ≠ s.bun.strand) (c : Nat)
    (hlog : ∀ e ∈ s.myTile.fmtALog,
      if e.strand = j then e.fromBundle ≤ (s.strand s.bun.tile j).bundles else e.fromCc ≤ s.cc + 3) :
    let later (u : State) : DWord := { u with cc := c }.sysRead s.bun.tile j .efra
    (c < s.cc + 3 → later (s.writeFmt .efra w) = later s) ∧ (s.cc + 3 ≤ c → ∀ f ∈ formatFields .efra,
      (later (s.writeFmt .efra w)).extractLsb' f.lo f.n = (if f.ok w then w else later s).extractLsb' f.lo f.n) := by
  intro later
  have hlater (u : State) : later u = efrA ((u.tile s.bun.tile).fmt j c) (u.tile s.bun.tile).flagsA := rfl
  obtain ⟨hunseen, hseen⟩ := efrA_append (x := s.myTile) (k := j) (cc := c)
    (e := ⟨s.bun.strand, s.me.bundles + 3, s.cc + 3, s.myTile.lastFmt.write w⟩) w rfl s.myTile.flagsA
  rw [Tile.sees, if_neg hj.symm] at hunseen hseen
  rw [hlater, hlater, tile_writeFmt_efra]
  refine ⟨fun h => hunseen (Nat.not_le.2 h), fun h => hseen h fun e he => ?_⟩
  have hseenNow := hlog e he
  rw [Tile.sees]
  split at hseenNow
  · next hs => rw [if_pos hs]; exact hseenNow
  · next hs => rw [if_neg hs]; omega

end Sys2Proof.Machine
end

section
open Sys2Proof Sys2Proof.Machine

/-- Settles O41: what each register reads after a write, what the write leaves, and from when a write of a format is seen (R71;
that EFR.V's is seen as late as EFR.A's is log 24, the model's choice). -/
theorem registerWrites : Obligations.RegisterWrites := by
  unfold Obligations.RegisterWrites
  refine ⟨?_, ?_⟩
  · intro n k r w s hn old
    obtain ⟨hfields, hkept⟩ := written_sysWrite hn k r w
    refine ⟨s.sysWrite n k r w, rfl, sameBytes_sysWrite s n k r w, fun hr => onlyStrandOf_sysWrite hr s n k w,
      fun hr hstop => strand_sysWrite hr hstop s n k w, hfields, hkept, ?_, ?_⟩
    · rintro rfl
      exact sysRead_sysWrite_efrv s n k w
    · rintro rfl
      exact sysRead_sysWrite_efra s n k w
  · intro g s hpriv w n k x
    exact ⟨⟨_, exec_swr hpriv g .efrv, fun i hlog => sysRead_writeFmt_efrv s w i hlog⟩, _, exec_swr hpriv g .efra,
      fun i hlog => sysRead_writeFmt_efra s w i hlog, fun j c hj hlog => sysRead_writeFmt_efra_other s w hj c hlog⟩
end

section
/-! The fields of a word, side by side. `Lays` says which fields a word holds; the encoder packs fields and the decoder reads
them, and `pack_eq_iff` is the bridge between the two. -/
namespace Sys2Proof

/-- The fields `l`, pairs of a width and a value, fill bits `hi - 1` to 0 of the word, the high field first. -/
def Lays (w : Word) : Nat → List (Nat × Nat) → Prop
  | hi, [] => hi = 0
  | hi, (n, v) :: l => n ≤ hi ∧ (fld w (hi - n) n).toNat = v ∧ Lays w (hi - n) l

/-- Every value is within its width. -/
def Fits (l : List (Nat × Nat)) : Prop := ∀ f ∈ l, f.2 < 2 ^ f.1

/-- The low 31 bits of a number: what a word keeps of it beside its chain bit. -/
def low31 (n : Nat) : Nat := n % 2 ^ 31

/-- A word without its chain bit. -/
def bodyOf (w : Word) : Nat := low31 w.toNat

theorem toNat_fld (w : Word) (lo n : Nat) : (fld w lo n).toNat = w.toNat / 2 ^ lo % 2 ^ n := by
  simp [fld, BitVec.extractLsb'_toNat, Nat.shiftRight_eq_div_pow]

theorem mul_pow_add_eq_mod_iff (acc v m k n : Nat) (hv : v < 2 ^ n) :
    acc * 2 ^ n + v = m % 2 ^ (k + n) ↔ acc = m / 2 ^ n % 2 ^ k ∧ m % 2 ^ n = v := by
  rw [Nat.add_comm k n, Nat.pow_add, Nat.mod_mul]
  constructor
  · intro h
    have hmod := congrArg (· % 2 ^ n) h
    have hdiv := congrArg (· / 2 ^ n) h
    simp only [Nat.mul_comm acc, Nat.mul_add_mod, Nat.add_mul_mod_self_left, Nat.mod_mod, Nat.mod_eq_of_lt hv] at hmod
    rw [Nat.mul_comm acc] at hdiv
    simp only [Nat.mul_add_div (Nat.two_pow_pos n), Nat.add_mul_div_left _ _ (Nat.two_pow_pos n),
      Nat.div_eq_of_lt hv, Nat.div_eq_of_lt (Nat.mod_lt m (Nat.two_pow_pos n)), Nat.add_zero, Nat.zero_add] at hdiv
    exact ⟨hdiv, hmod.symm⟩
  · rintro ⟨rfl, rfl⟩
    ring

theorem foldl_pack_eq_iff (w : Word) (l : List (Nat × Nat)) : ∀ hi k acc, Fits l → (l.map (·.1)).sum = hi →
    (l.foldl (fun acc f => acc * 2 ^ f.1 + f.2) acc = w.toNat % 2 ^ (k + hi) ↔
      acc = w.toNat / 2 ^ hi % 2 ^ k ∧ Lays w hi l) := by
  induction l with
  | nil => rintro _ k acc - rfl; simp [Lays]
  | cons f l ih =>
    obtain ⟨n, v⟩ := f
    rintro _ k acc hfit rfl
    simp only [Fits, List.forall_mem_cons] at hfit
    simp only [List.map_cons, List.sum_cons, List.foldl_cons, Lays, Nat.add_sub_cancel_left, Nat.le_add_right, true_and]
    rw [← Nat.add_assoc, ih _ (k + n) _ hfit.2 rfl, mul_pow_add_eq_mod_iff _ _ _ _ _ hfit.1, toNat_fld,
      Nat.div_div_eq_div_mul, ← Nat.pow_add, Nat.add_comm n, and_assoc]

theorem pack_eq_iff {w : Word} {l : List (Nat × Nat)} (hfit : Fits l) (hsum : (l.map (·.1)).sum = 31) :
    pack l = bodyOf w ↔ Lays w 31 l := by
  have h := foldl_pack_eq_iff w l 31 0 0 hfit hsum
  simpa [pack, bodyOf, low31, Nat.mod_one] using h

theorem foldl_pack_lt (l : List (Nat × Nat)) : ∀ k acc, Fits l → acc < 2 ^ k →
    l.foldl (fun acc f => acc * 2 ^ f.1 + f.2) acc < 2 ^ (k + (l.map (·.1)).sum) := by
  induction l with
  | nil => exact fun k acc _ h => h
  | cons f l ih =>
    intro k acc hfit hacc
    obtain ⟨hf, hl⟩ := List.forall_mem_cons.1 hfit
    rw [List.map_cons, List.sum_cons, ← Nat.add_assoc]
    refine ih _ _ hl ?_
    calc acc * 2 ^ f.1 + f.2 < (acc + 1) * 2 ^ f.1 := by rw [Nat.succ_mul]; omega
      _ ≤ 2 ^ k * 2 ^ f.1 := Nat.mul_le_mul_right _ hacc
      _ = 2 ^ (k + f.1) := (Nat.pow_add ..).symm

/-- The body of a word is the packing of fields exactly when they lie in it one after the other. -/
@[simp] theorem low31_pack_eq_iff {w : Word} {l : List (Nat × Nat)} (hfit : Fits l) (hsum : (l.map (·.1)).sum = 31) :
    low31 (pack l) = bodyOf w ↔ Lays w 31 l := by
  have hlt := foldl_pack_lt l 0 0 hfit Nat.one_pos
  rw [hsum] at hlt
  rw [low31, Nat.mod_eq_of_lt (by simpa [pack] using hlt), pack_eq_iff hfit hsum]

@[simp] theorem lays_nil {w : Word} {hi : Nat} : Lays w hi [] ↔ hi = 0 := Iff.rfl
@[simp] theorem lays_cons {w : Word} {hi n v : Nat} {l : List (Nat × Nat)} :
    Lays w hi ((n, v) :: l) ↔ n ≤ hi ∧ (fld w (hi - n) n).toNat = v ∧ Lays w (hi - n) l := Iff.rfl

theorem fits_of_lays {w : Word} {hi : Nat} {l : List (Nat × Nat)} (h : Lays w hi l) : Fits l ∧ (l.map (·.1)).sum = hi := by
  induction l generalizing hi with
  | nil => exact ⟨fun _ hf => absurd hf List.not_mem_nil, h.symm⟩
  | cons f l ih =>
    obtain ⟨hle, hv, hl⟩ := h
    obtain ⟨hfit, hsum⟩ := ih hl
    exact ⟨List.forall_mem_cons.2 ⟨hv ▸ (fld w _ _).isLt, hfit⟩, by rw [List.map_cons, List.sum_cons, hsum]; omega⟩

theorem pack_of_lays {w : Word} {l : List (Nat × Nat)} (h : Lays w 31 l) : pack l = bodyOf w :=
  (pack_eq_iff (fits_of_lays h).1 (fits_of_lays h).2).2 h

@[simp] theorem fits_nil : Fits [] := fun _ hf => absurd hf List.not_mem_nil
@[simp low] theorem fits_cons {n v : Nat} {l : List (Nat × Nat)} : Fits ((n, v) :: l) ↔ v < 2 ^ n ∧ Fits l :=
  List.forall_mem_cons
@[simp] theorem fits_bitVec {n : Nat} (x : BitVec n) (l : List (Nat × Nat)) : Fits ((n, x.toNat) :: l) ↔ Fits l := by
  simp [x.isLt]
@[simp] theorem fits_bool (b : Bool) (l : List (Nat × Nat)) : Fits ((1, b.toNat) :: l) ↔ Fits l := by
  simp [Bool.toNat_le]

@[simp] theorem toNat_fld_eq_iff {w : Word} {lo n : Nat} {x : BitVec n} : (fld w lo n).toNat = x.toNat ↔ fld w lo n = x :=
  BitVec.toNat_inj
@[simp] theorem toNat_fld_one (w : Word) (i : Nat) : (fld w i 1).toNat = (flag w i).toNat := by
  rw [toNat_fld, flag, BitVec.getLsbD, Nat.testBit_eq_decide_div_mod_eq, pow_one]
  rcases Nat.mod_two_eq_zero_or_one (w.toNat / 2 ^ i) with h | h <;> simp [h]
@[simp] theorem toNat_bool_inj {a b : Bool} : a.toNat = b.toNat ↔ a = b := by cases a <;> cases b <;> simp
@[simp] theorem toNat_fld_class (w : Word) : (fld w 27 4).toNat = classOf w := rfl

/-! ### Codes of named values -/

@[simp] theorem typeCode_vtypeOf (b : BitVec 3) : typeCode (vtypeOf b) = b.toNat := by revert b; decide
@[simp] theorem toNat_eq_typeCode_iff {b : BitVec 3} {t : VType} : b.toNat = typeCode t ↔ vtypeOf b = t := by
  constructor
  · cases t <;> revert b <;> decide
  · rintro rfl; exact (typeCode_vtypeOf b).symm
@[simp] theorem typeCode_lt (t : VType) : typeCode t < 8 := by cases t <;> decide

@[simp] theorem pfnCode_pfnOf (b : BitVec 2) : pfnCode (pfnOf b.toNat) = b.toNat := by revert b; decide
@[simp] theorem pfnOf_pfnCode (f : PFn) : pfnOf (pfnCode f) = f := by cases f <;> rfl
@[simp] theorem pfnCode_lt (f : PFn) : pfnCode f < 4 := by cases f <;> decide
@[simp] theorem dspaceCode_dspaceOf (b : BitVec 2) : dspaceCode (dspaceOf b.toNat) = b.toNat := by revert b; decide
@[simp] theorem dspaceOf_dspaceCode (d : DSpace) : dspaceOf (dspaceCode d) = d := by cases d <;> rfl
@[simp] theorem dspaceCode_lt (d : DSpace) : dspaceCode d < 4 := by cases d <;> decide
@[simp] theorem rndCode_rndOf (b : BitVec 2) : rndCode (rndOf b.toNat) = b.toNat := by revert b; decide
@[simp] theorem rndOf_rndCode (r : Rnd) : rndOf (rndCode r) = r := by cases r <;> rfl
@[simp] theorem rndCode_lt (r : Rnd) : rndCode r < 4 := by cases r <;> decide
@[simp] theorem scopeCode_scopeOf (b : BitVec 2) : scopeCode (scopeOf b.toNat) = b.toNat := by revert b; decide
@[simp] theorem scopeOf_scopeCode (c : Scope) : scopeOf (scopeCode c) = c := by cases c <;> rfl
@[simp] theorem scopeCode_lt (c : Scope) : scopeCode c < 4 := by cases c <;> decide
@[simp] theorem recQueueCode_recQueueOf (b : BitVec 2) : recQueueCode (recQueueOf b.toNat) = b.toNat := by
  revert b; decide
@[simp] theorem recQueueOf_recQueueCode (q : RecQueue) : recQueueOf (recQueueCode q) = q := by cases q <;> rfl
@[simp] theorem recQueueCode_lt (q : RecQueue) : recQueueCode q < 4 := by cases q <;> decide

@[simp] theorem condOf_eq_some_iff {n : Nat} {k : Cond} : condOf n = some k ↔ n = condCode k := by
  refine ⟨fun h => ?_, by rintro rfl; cases k <;> rfl⟩
  unfold condOf at h; split at h <;> cases h <;> rfl
@[simp] theorem condOf_condCode (k : Cond) : condOf (condCode k) = some k := condOf_eq_some_iff.2 rfl
@[simp] theorem condCode_lt (k : Cond) : condCode k < 8 := by cases k <;> decide
@[simp] theorem engOf_eq_some_iff {n : Nat} {e : Eng} : engOf n = some e ↔ n = engCode e := by
  refine ⟨fun h => ?_, by rintro rfl; cases e <;> rfl⟩
  unfold engOf at h; split at h <;> cases h <;> rfl
@[simp] theorem engCode_lt (e : Eng) : engCode e < 8 := by cases e <;> decide
@[simp] theorem getiOf_eq_some_iff {n : Nat} {k : GetiSel} : getiOf n = some k ↔ n = getiCode k := by
  refine ⟨fun h => ?_, by rintro rfl; cases k <;> rfl⟩
  unfold getiOf at h; split at h <;> cases h <;> rfl
@[simp] theorem getiCode_lt (k : GetiSel) : getiCode k < 1024 := by cases k <;> decide
@[simp] theorem mspaceOf_eq_some_iff {n : Nat} {s : MSpace} : mspaceOf n = some s ↔ n = mspaceCode s := by
  refine ⟨fun h => ?_, by rintro rfl; cases s <;> rfl⟩
  unfold mspaceOf at h; split at h <;> cases h <;> rfl
@[simp] theorem mspaceCode_lt (s : MSpace) : mspaceCode s < 4 := by cases s <;> decide
@[simp] theorem cmplOf_eq_some_iff {n : Nat} {k : Cmpl} : cmplOf n = some k ↔ n = cmplCode k := by
  refine ⟨fun h => ?_, by rintro rfl; cases k <;> rfl⟩
  unfold cmplOf at h; split at h <;> cases h <;> rfl
@[simp] theorem cmplCode_lt (k : Cmpl) : cmplCode k < 4 := by cases k <;> decide
@[simp] theorem drnOf_eq_some_iff {n : Nat} {o : DrnFmt} : drnOf n = some o ↔ n = drnCode o := by
  refine ⟨fun h => ?_, by rintro rfl; cases o <;> rfl⟩
  unfold drnOf at h; split at h <;> cases h <;> rfl
@[simp] theorem drnCode_lt (o : DrnFmt) : drnCode o < 4 := by cases o <;> decide
@[simp] theorem ramOf_eq_some_iff {n : Nat} {o : RamOp} : ramOf n = some o ↔ n = ramCode o := by
  refine ⟨fun h => ?_, by rintro rfl; cases o <;> rfl⟩
  unfold ramOf at h; split at h <;> cases h <;> rfl
@[simp] theorem ramCode_lt (o : RamOp) : ramCode o < 16 := by cases o <;> decide
@[simp] theorem mlrOpOf_eq_some_iff {n : Nat} {o : MlrOp} : mlrOpOf n = some o ↔ n = mlrOpCode o := by
  refine ⟨fun h => ?_, by rintro rfl; cases o <;> rfl⟩
  unfold mlrOpOf at h; split at h <;> cases h <;> rfl
@[simp] theorem mlrOpCode_lt (o : MlrOp) : mlrOpCode o < 16 := by cases o <;> decide
@[simp] theorem mlrTypeOf_eq_some_iff {n : Nat} {t : MlrType} : mlrTypeOf n = some t ↔ n = mlrTypeCode t := by
  refine ⟨fun h => ?_, by rintro rfl; cases t <;> rfl⟩
  unfold mlrTypeOf at h; split at h <;> cases h <;> rfl
@[simp] theorem mlrTypeCode_lt (t : MlrType) : mlrTypeCode t < 8 := by cases t <;> decide
@[simp] theorem stopOf_eq_some_iff {n : Nat} {k : StopKind} : stopOf n = some k ↔ n = stopCode k := by
  refine ⟨fun h => ?_, by rintro rfl; cases k <;> rfl⟩
  unfold stopOf at h; split at h <;> cases h <;> rfl
@[simp] theorem stopCode_lt (k : StopKind) : stopCode k < 4 := by cases k <;> decide

theorem sysRegOf_sysRegCode (r : SysReg) : sysRegOf (sysRegCode r) = some r := by
  cases r with
  | qcfg q => revert q; decide
  | _ => rfl
@[simp] theorem sysRegOf_eq_some_iff {n : Nat} {r : SysReg} : sysRegOf n = some r ↔ n = sysRegCode r := by
  refine ⟨fun h => ?_, by rintro rfl; exact sysRegOf_sysRegCode r⟩
  unfold sysRegOf at h
  split at h
  case h_26 =>
    split at h
    · next hn => cases h; simp only [sysRegCode, BitVec.toNat_ofNat]; omega
    · cases h
  all_goals cases h; rfl
@[simp] theorem sysRegCode_lt (r : SysReg) : sysRegCode r < 4096 := by
  cases r with
  | qcfg q => simp only [sysRegCode]; omega
  | _ => decide

/-! ### Steps of the decoder that answer an instruction -/

@[simp] theorem reserved_eq_ok {n : Nat} {b : BitVec n} {k : Unit → Except DecodeErr Instr} {i : Instr} :
    reserved b k = .ok i ↔ b.toNat = 0 ∧ k () = .ok i := by
  unfold reserved; split <;> simp_all
@[simp] theorem done_eq_ok {ext : List LWord} {i j : Instr} : done ext j = .ok i ↔ ext = [] ∧ j = i := by
  cases ext <;> simp [done]
@[simp] theorem named_eq_ok {α : Type} {o : Option α} {k : α → Except DecodeErr Instr} {i : Instr} :
    named o k = .ok i ↔ ∃ x, o = some x ∧ k x = .ok i := by
  cases o <;> simp [named]

end Sys2Proof
end

section
/-! The layouts that the rows of a class share, and the words of each class against the instructions that they decode to. -/
namespace Sys2Proof

/-! ### Layouts with the reserved fields that the decoder reads -/

theorem encR_noB (op : Nat) (d a : Reg) (p : Reg3) : encR op d a 0#5 p =
    pack [(4, 0), (6, op), (5, d.toNat), (5, a.toNat), (6, 0), (3, p.toNat), (2, 0)] := by
  simp [encR, pack]; ring

theorem encA_first7 (cls op : Nat) (b : BitVec 12) (f : BitVec 7) : encA cls op b f.toNat =
    pack [(4, cls), (4, op), (12, b.toNat), (4, 0), (7, f.toNat)] := by
  simp [encA, pack]; ring
theorem encA_first8 (cls op : Nat) (b : BitVec 12) (f : BitVec 8) : encA cls op b f.toNat =
    pack [(4, cls), (4, op), (12, b.toNat), (3, 0), (8, f.toNat)] := by
  simp [encA, pack]; ring
theorem encA_bit (cls op : Nat) (c : Bool) : encA cls op 0#12 c.toNat =
    pack [(4, cls), (4, op), (22, 0), (1, c.toNat)] := by
  simp [encA, pack]; ring
theorem encA_zero (cls op : Nat) : encA cls op 0#12 0 = pack [(4, cls), (4, op), (23, 0)] := by
  simp [encA, pack]; ring

theorem encF_one (cls op : Nat) (a : Reg) : encF cls op a 0#5 0 = pack [(4, cls), (5, op), (5, a.toNat), (17, 0)] := by
  simp [encF, pack]; ring
theorem encF_rsw (a b : Reg) (w : Bool) : encF 9 0 a b (w.toNat * 2048) =
    pack [(4, 9), (5, 0), (5, a.toNat), (5, b.toNat), (1, w.toNat), (11, 0)] := by
  simp [encF, pack]; ring
theorem encF_ram (a b : Reg) (o : RamOp) (w : Bool) : encF 9 1 a b (ramCode o * 256 + w.toNat * 128) =
    pack [(4, 9), (5, 1), (5, a.toNat), (5, b.toNat), (4, ramCode o), (1, w.toNat), (7, 0)] := by
  simp [encF, pack]; ring
theorem encF_rld (d a : Reg) (w s : Bool) : encF 9 2 d a (w.toNat * 2048 + s.toNat * 1024) =
    pack [(4, 9), (5, 2), (5, d.toNat), (5, a.toNat), (1, w.toNat), (1, s.toNat), (10, 0)] := by
  simp [encF, pack]; ring
theorem encF_rfl (a : Reg) (all : Bool) : encF 9 3 a 0#5 (all.toNat * 2048) =
    pack [(4, 9), (5, 3), (5, a.toNat), (5, 0), (1, all.toNat), (11, 0)] := by
  simp [encF, pack]; ring
theorem encF_mgrp (s : BitVec 4) : encF 9 4 0#5 0#5 s.toNat = pack [(4, 9), (5, 4), (18, 0), (4, s.toNat)] := by
  simp [encF, pack]
theorem encF_mlr (o : MlrOp) (t : MlrType) (tp c : Bool) :
    encF 9 5 0#5 0#5 (mlrOpCode o * 256 + mlrTypeCode t * 32 + tp.toNat * 16 + c.toNat * 4) = pack [(4, 9), (5, 5), (10, 0),
      (4, mlrOpCode o), (3, mlrTypeCode t), (1, tp.toNat), (1, 0), (1, c.toNat), (2, 0)] := by
  simp [encF, pack]; ring
theorem encF_rsta (d : Reg) (c : Bool) : encF 9 7 d 0#5 c.toNat =
    pack [(4, 9), (5, 7), (5, d.toNat), (16, 0), (1, c.toNat)] := by
  simp [encF, pack]; ring
theorem encF_bit10 (op : Nat) (a b : Reg) (r : Bool) : encF 10 op a b (r.toNat * 1024) =
    pack [(4, 10), (5, op), (5, a.toNat), (5, b.toNat), (1, 0), (1, r.toNat), (10, 0)] := by
  simp [encF, pack]; ring
theorem encF_caddRemote (a b : Reg) (r : Bool) : encF 10 0 a b (2048 + r.toNat * 1024) =
    pack [(4, 10), (5, 0), (5, a.toNat), (5, b.toNat), (1, 1), (1, r.toNat), (10, 0)] := by
  simp [encF, pack]; ring
theorem encF_phs (r q : Bool) (s : Scope) : encF 10 5 0#5 0#5 (r.toNat * 512 + q.toNat * 256 + scopeCode s) =
    pack [(4, 10), (5, 5), (12, 0), (1, r.toNat), (1, q.toNat), (6, 0), (2, scopeCode s)] := by
  simp [encF, pack]; ring
theorem encF_bar (x : Bool) (s : Scope) : encF 10 6 0#5 0#5 (x.toNat * 4 + scopeCode s) =
    pack [(4, 10), (5, 6), (19, 0), (1, x.toNat), (2, scopeCode s)] := by
  simp [encF, pack]; ring
theorem encF_fen (m : BitVec 8) : encF 10 7 0#5 0#5 (m.toNat * 16) = pack [(4, 10), (5, 7), (10, 0), (8, m.toNat), (4, 0)] := by
  simp [encF, pack]; ring
theorem encF_dgs (a b : Reg) (f : Nat) : encF 10 9 a b f =
    pack [(4, 10), (5, 9), (5, a.toNat), (5, b.toNat), (10, 0), (2, f)] := by
  simp [encF, pack]; ring
theorem encF_dgsSwitch (f : Nat) : encF 10 9 0#5 0#5 f = pack [(4, 10), (5, 9), (10, 0), (10, 0), (2, f)] := by
  simp [encF, pack]
theorem encF_tret (l : Bool) : encF 12 2 0#5 0#5 l.toNat = pack [(4, 12), (5, 2), (21, 0), (1, l.toNat)] := by
  simp [encF, pack]
theorem encF_tlbi (a b : Reg) (n l : Bool) (s : Scope) : encF 12 3 a b (n.toNat * 8 + l.toNat * 4 + scopeCode s) =
    pack [(4, 12), (5, 3), (5, a.toNat), (5, b.toNat), (8, 0), (1, n.toNat), (1, l.toNat), (2, scopeCode s)] := by
  simp [encF, pack]; ring
theorem encF_shot (a b : Reg) (z : BitVec 5) (n l : Bool) (s : Scope) :
    encF 12 4 a b (z.toNat * 16 + n.toNat * 8 + l.toNat * 4 + scopeCode s) = pack [(4, 12), (5, 4), (5, a.toNat),
      (5, b.toNat), (3, 0), (5, z.toNat), (1, n.toNat), (1, l.toNat), (2, scopeCode s)] := by
  simp [encF, pack]; ring
theorem encF_stop (a : Reg) (x : Bool) (k : StopKind) : encF 12 7 a 0#5 (x.toNat * 4 + stopCode k) =
    pack [(4, 12), (5, 7), (5, a.toNat), (14, 0), (1, x.toNat), (2, stopCode k)] := by
  simp [encF, pack]; ring
theorem encF_slp (g : Reg) (m : BitVec 5) : encF 12 8 g 0#5 m.toNat =
    pack [(4, 12), (5, 8), (5, g.toNat), (12, 0), (5, m.toNat)] := by
  simp [encF, pack]; ring
theorem encF_sflt (g b : Reg) (q : RecQueue) : encF 12 9 g b (recQueueCode q) =
    pack [(4, 12), (5, 9), (5, g.toNat), (5, b.toNat), (10, 0), (2, recQueueCode q)] := by
  simp [encF, pack]; ring

/-! ### Words of a shared layout -/

section
variable {w : Word} {op : Nat}

theorem encR_eq_iff (hop : op < 64) {d a b : Reg} {p : Reg3} : low31 (encR op d a b p) = bodyOf w ↔
    classOf w = 0 ∧ (fld w 21 6).toNat = op ∧ fld w 16 5 = d ∧ fld w 11 5 = a ∧ flag w 10 = false ∧ fld w 5 5 = b ∧
      fld w 2 3 = p ∧ (fld w 0 2).toNat = 0 := by
  simp [encR, hop]

theorem encI_eq_iff (hop : op < 64) {d a : Reg} {i : BitVec 10} : low31 (encI op d a i) = bodyOf w ↔
    classOf w = 0 ∧ (fld w 21 6).toNat = op ∧ fld w 16 5 = d ∧ fld w 11 5 = a ∧ flag w 10 = true ∧ fld w 0 10 = i := by
  simp [encI, hop]

theorem encM_eq_iff (hop : op < 32) {g b : Reg} {s : MSpace} {i : BitVec 10} : low31 (encM op g b s i) = bodyOf w ↔
    classOf w = 1 ∧ (fld w 22 5).toNat = op ∧ fld w 17 5 = g ∧ fld w 12 5 = b ∧ (fld w 10 2).toNat = mspaceCode s ∧
      fld w 0 10 = i := by
  simp [encM, hop]

theorem encV_eq_iff {cls : Nat} (hcls : cls < 16) (hop : op < 64) {t : VType} {d a b : Reg} {m : Reg3} :
    low31 (encV cls op t d a b m) = bodyOf w ↔ classOf w = cls ∧ (fld w 21 6).toNat = op ∧ vtypeOf (fld w 18 3) = t ∧
      fld w 13 5 = d ∧ fld w 8 5 = a ∧ fld w 3 5 = b ∧ fld w 0 3 = m := by
  simp [encV, hcls, hop]

theorem encD_eq_iff (hop : op < 16) {k : Cmpl} {h : Bool} {s d : DSpace} : low31 (encD op k h s d) = bodyOf w ↔
    classOf w = 7 ∧ (fld w 23 4).toNat = op ∧ (fld w 21 2).toNat = cmplCode k ∧ flag w 20 = h ∧
      (fld w 18 2).toNat = dspaceCode s ∧ (fld w 16 2).toNat = dspaceCode d ∧ (fld w 0 16).toNat = 0 := by
  simp [encD, hop]
end

end Sys2Proof
end

section
/-! What the encoder writes, the decoder reads: the words of every instruction decode to it (R20, R27, R28). -/
namespace Sys2Proof

theorem encodeBody_parts {n m k : Nat} {e x : List LWord} (h : some (n, e) = some (m, x)) (hm : low31 m = k) :
    low31 n = k ∧ x = e := by
  cases h; exact ⟨hm, rfl⟩

section
variable {w : Word}

theorem alu_of_reg {d a b : Reg} {p : Reg3} (r : Reg → Reg → Reg → Reg3 → Instr) (f : Reg → Reg → BitVec 10 → List LWord → Instr)
    (h : fld w 16 5 = d ∧ fld w 11 5 = a ∧ flag w 10 = false ∧ fld w 5 5 = b ∧ fld w 2 3 = p ∧ (fld w 0 2).toNat = 0) :
    alu w [] r f = .ok (r d a b p) := by
  obtain ⟨rfl, rfl, hform, rfl, rfl, hzero⟩ := h
  simp [alu, hform, hzero]

theorem alu_of_imm {d a : Reg} {i : BitVec 10} {ext : List LWord} (r : Reg → Reg → Reg → Reg3 → Instr)
    (f : Reg → Reg → BitVec 10 → List LWord → Instr)
    (h : fld w 16 5 = d ∧ fld w 11 5 = a ∧ flag w 10 = true ∧ fld w 0 10 = i) : alu w ext r f = .ok (f d a i ext) := by
  obtain ⟨rfl, rfl, hform, rfl⟩ := h
  simp [alu, hform]

theorem vec3_of_fields {t : VType} {d a b : Reg} {m : Reg3} (k : VType → Reg → Reg → Reg → Reg3 → Instr)
    (h : vtypeOf (fld w 18 3) = t ∧ fld w 13 5 = d ∧ fld w 8 5 = a ∧ fld w 3 5 = b ∧ fld w 0 3 = m) :
    vec3 w [] k = .ok (k t d a b m) := by
  simp [vec3, h]

theorem vec1_of_fields {t : VType} {d a : Reg} {m : Reg3} (k : VType → Reg → Reg → Reg3 → Instr)
    (h : vtypeOf (fld w 18 3) = t ∧ fld w 13 5 = d ∧ fld w 8 5 = a ∧ fld w 3 5 = 0 ∧ fld w 0 3 = m) :
    vec1 w [] k = .ok (k t d a m) := by
  simp [vec1, h]

end

/-- An instruction's body decodes to the instruction, field by field, in the form that its class gives the row. -/
theorem decodeFields_of_encodeBody {w : Word} {ext : List LWord} {i : Instr} {n : Nat} (h : encodeBody i = some (n, ext))
    (hbody : low31 n = bodyOf w) :
    decodeFields w ext = .ok i := by
  cases i with
  | add d a b p | sub d a b p | mul d a b p | mulh d a b p | mulhn d a b p | div d a b p | divn d a b p | rem d a b p
  | remn d a b p | addw d a b p | subw d a b p | mulw d a b p | and d a b p | or d a b p | xor d a b p | andn d a b p
  | shl d a b p | shr d a b p | shra d a b p | shlw d a b p | shrw d a b p | shraw d a b p | min d a b p | max d a b p
  | minn d a b p | maxn d a b p | bfx d a b p | bfi d a b p =>
    obtain ⟨hb, rfl⟩ := encodeBody_parts h hbody
    obtain ⟨hclass, hop, hfields⟩ := (encR_eq_iff (by decide)).1 hb
    rw [decodeFields, hclass, decodeS, hop]
    exact alu_of_reg _ _ hfields
  | addImm d a i e | subImm d a i e | mulImm d a i e | mulhImm d a i e | mulhnImm d a i e | divImm d a i e
  | divnImm d a i e | remImm d a i e | remnImm d a i e | addwImm d a i e | subwImm d a i e | mulwImm d a i e
  | andImm d a i e | orImm d a i e | xorImm d a i e | andnImm d a i e | shlImm d a i e | shrImm d a i e | shraImm d a i e
  | shlwImm d a i e | shrwImm d a i e | shrawImm d a i e | minImm d a i e | maxImm d a i e | minnImm d a i e
  | maxnImm d a i e | bfxImm d a i e | bfiImm d a i e =>
    obtain ⟨hb, rfl⟩ := encodeBody_parts h hbody
    obtain ⟨hclass, hop, hfields⟩ := (encI_eq_iff (by decide)).1 hb
    rw [decodeFields, hclass, decodeS, hop]
    exact alu_of_imm _ _ hfields
  | clz d a p | popc d a p =>
    obtain ⟨hb, rfl⟩ := encodeBody_parts h hbody
    simp [encR_noB] at hb
    simp [decodeFields, decodeS, alu1, hb]
  | sel d a b p =>
    obtain ⟨hb, rfl⟩ := encodeBody_parts h hbody
    obtain ⟨hclass, hop, hfields⟩ := (encR_eq_iff (by decide)).1 hb
    rw [decodeFields, hclass, decodeS, hop]
    simp [aluR, hfields]
  | nop =>
    obtain ⟨hb, rfl⟩ := encodeBody_parts h hbody
    change low31 (pack [(4, 0), (27, 0)]) = bodyOf w at hb
    simp at hb
    have hop : (fld w 21 6).toNat = 0 := by rw [toNat_fld] at hb ⊢; omega
    simp [decodeFields, decodeS, hb, hop]
  | cmp p k x a b | cmpImm p k x a i e =>
    obtain ⟨hb, rfl⟩ := encodeBody_parts h hbody
    simp at hb
    simp [decodeFields, decodeS, decodeCmp, hb]
  | plog d a b f n | stg e x a | rstg d e x | geti d s =>
    obtain ⟨hb, rfl⟩ := encodeBody_parts h hbody
    simp at hb
    simp [decodeFields, decodeS, hb]
  | ldb g b s i e | ldbn g b s i e | ldh g b s i e | ldhn g b s i e | ldw g b s i e | ldwn g b s i e | ldd g b s i e
  | stb g b s i e | sth g b s i e | stw g b s i e | std g b s i e =>
    obtain ⟨hb, rfl⟩ := encodeBody_parts h hbody
    obtain ⟨hclass, hop, hfields⟩ := (encM_eq_iff (by decide)).1 hb
    rw [decodeFields, hclass, decodeM, hop]
    simp [mem, hfields]
  | pref b i e | disc b i e | luse b i e =>
    obtain ⟨hb, rfl⟩ := encodeBody_parts h hbody
    obtain ⟨hclass, hop, hfields⟩ := (encM_eq_iff (by decide)).1 hb
    rw [decodeFields, hclass, decodeM, hop]
    simp [hint, hfields, mspaceCode]
  | br p n d | jmp d | call d | jr a | lset l g e | lseti l n e | lexit l | dly n | node n | sels g t | yield | halt
  | trap k | gangEnter | gangExit =>
    obtain ⟨hb, rfl⟩ := encodeBody_parts h hbody
    simp at hb
    simp [decodeFields, decodeB, hb]
  | vadd t d a b m | vsub t d a b m | vadds t d a b m | vsubs t d a b m | vmul t d a b m | vmulh t d a b m
  | vmad t d a b m | vmin t d a b m | vmax t d a b m | vminn t d a b m | vmaxn t d a b m | vand t d a b m
  | vor t d a b m | vxor t d a b m | vshl t d a b m | vshr t d a b m | vshra t d a b m | vaddw t d a b m
  | vmulw t d a b m | vmulq t d a b m | vmadq t d a b m | vfadd t d a b m | vfsub t d a b m | vfmul t d a b m
  | vfma t d a b m | vfmin t d a b m | vfmax t d a b m | vlmul t d a b m | vsel t d a b m =>
    obtain ⟨hb, rfl⟩ := encodeBody_parts h hbody
    obtain ⟨hclass, hop, hfields⟩ := (encV_eq_iff (by decide) (by decide)).1 hb
    rw [decodeFields, hclass, decodeV, hop]
    exact vec3_of_fields _ hfields
  | vabs t d a m | vfabs t d a m | vfneg t d a m | vfrcp t d a m | vfrsq t d a m | vfexp2 t d a m | vflog2 t d a m
  | vlrcp t d a m | vreds t d a m | vredx t d a m | vredn t d a m =>
    obtain ⟨hb, rfl⟩ := encodeBody_parts h hbody
    obtain ⟨hclass, hop, hfields⟩ := (encV_eq_iff (by decide) (by decide)).1 hb
    rw [decodeFields, hclass, decodeV, hop]
    exact vec1_of_fields _ hfields
  | vcmp t d k a b =>
    obtain ⟨hb, rfl⟩ := encodeBody_parts h hbody
    simp at hb
    simp [decodeFields, decodeV, hb]
  | vgth t v b x m | vsct t v b x m | vprm t d a b m | vext t d a b m | vcmpr t d a b m =>
    obtain ⟨hb, rfl⟩ := encodeBody_parts h hbody
    obtain ⟨hclass, hop, hfields⟩ := (encV_eq_iff (by decide) (by decide)).1 hb
    rw [decodeFields, hclass, decodeX, hop]
    exact vec3_of_fields _ hfields
  | vbc t d a m | viota t d a m =>
    obtain ⟨hb, rfl⟩ := encodeBody_parts h hbody
    obtain ⟨hclass, hop, hfields⟩ := (encV_eq_iff (by decide) (by decide)).1 hb
    rw [decodeFields, hclass, decodeX, hop]
    exact vec1_of_fields _ hfields
  | vld t v b s m e | vst t v b s m e =>
    obtain ⟨hb, rfl⟩ := encodeBody_parts h hbody
    obtain ⟨hclass, hop, hfields⟩ := (encV_eq_iff (by decide) (by decide)).1 hb
    rw [decodeFields, hclass, decodeX, hop]
    simp [hfields]
  | vrnd d k b m =>
    obtain ⟨hb, rfl⟩ := encodeBody_parts h hbody
    simp [encV, typeCode] at hb
    simp [decodeFields, decodeX, hb]
  | vget t d a l e | vput t d a l e | vtrp t g | vcvt s d a t r m =>
    obtain ⟨hb, rfl⟩ := encodeBody_parts h hbody
    simp at hb
    simp [decodeFields, decodeX, hb]
  | vqnt t d a s f | vdqnt t d a s f =>
    obtain ⟨hb, rfl⟩ := encodeBody_parts h hbody
    simp at hb
    simp [decodeFields, decodeX, quant, hb]
  | vmovm r v m =>
    obtain ⟨hb, rfl⟩ := encodeBody_parts h hbody
    simp at hb
    simp [decodeFields, decodeX, decodeVmovm, hb]
  | afmt aw af as_ ww wf ws ns sp | wld b f | aswp | strm b f | drn b z o f | aclr b f | agng c | asta c =>
    obtain ⟨hb, rfl⟩ := encodeBody_parts h hbody
    simp [encA_first7, encA_first8, encA_bit, encA_zero] at hb
    simp [decodeFields, decodeA, hb]
  | ksa a i e | ksw a c i e | kso a i e | kclr =>
    obtain ⟨hb, rfl⟩ := encodeBody_parts h hbody
    simp at hb
    simp [decodeFields, decodeK, hb]
  | dcpy k x s d | dunf k x s d | dfil k x s d | dgth k x s d =>
    obtain ⟨hb, rfl⟩ := encodeBody_parts h hbody
    obtain ⟨hclass, hop, hfields⟩ := (encD_eq_iff (by decide)).1 hb
    rw [decodeFields, hclass, decodeD, hop]
    simp [dword, hfields]
  | dpubInit k p | dpub k p | dsta c =>
    obtain ⟨hb, rfl⟩ := encodeBody_parts h hbody
    simp at hb
    simp [decodeFields, decodeD, hb]
  | qpat c f | qldy c f | qdom d | qstp s d m | qrdv k d | qsta c =>
    obtain ⟨hb, rfl⟩ := encodeBody_parts h hbody
    simp [encA_first8, encA_bit] at hb
    simp [decodeFields, decodeQ, hb]
  | qsav | qrst =>
    obtain ⟨hb, rfl⟩ := encodeBody_parts h hbody
    simp [encA] at hb
    simp [decodeFields, decodeQ, hb]
  | mlr o t tp c =>
    obtain ⟨hb, rfl⟩ := encodeBody_parts h hbody
    simp [encF_mlr] at hb
    simp [decodeFields, decodeF, decodeMlr, hb]
  | rsw a b x | ram a b o x | rld d a x s | rfl a all | mgrp s | rfq d | rsta d c =>
    obtain ⟨hb, rfl⟩ := encodeBody_parts h hbody
    simp [encF_rsw, encF_ram, encF_rld, encF_rfl, encF_mgrp, encF_one, encF_rsta] at hb
    simp [decodeFields, decodeF, hb]
  | cadd a b r | caddRemote a b r p =>
    obtain ⟨hb, rfl⟩ := encodeBody_parts h hbody
    simp [encF_bit10, encF_caddRemote] at hb
    simp [decodeFields, decodeY, decodeCadd, hb]
  | dgsRd g | dgsFold a b =>
    obtain ⟨hb, rfl⟩ := encodeBody_parts h hbody
    simp [encF_dgs] at hb
    simp [decodeFields, decodeY, decodeDgs, hb]
  | dgsOn | dgsOff =>
    obtain ⟨hb, rfl⟩ := encodeBody_parts h hbody
    simp [encF_dgsSwitch] at hb
    simp [decodeFields, decodeY, decodeDgs, hb]
  | cwt a b q | awt a b q | phs r q s | bar x s | fen m | splt a =>
    obtain ⟨hb, rfl⟩ := encodeBody_parts h hbody
    simp [encF_bit10, encF_phs, encF_bar, encF_fen, encF_one] at hb
    simp [decodeFields, decodeY, hb]
  | crd a d | aarm a b =>
    obtain ⟨hb, rfl⟩ := encodeBody_parts h hbody
    simp [encF] at hb
    simp [decodeFields, decodeY, hb]
  | srd g r | swr g r =>
    obtain ⟨hb, rfl⟩ := encodeBody_parts h hbody
    simp [encF] at hb
    simp [decodeFields, decodeZ, hb]
  | upcf | updm m c f | upmo c f | upst c =>
    obtain ⟨hb, rfl⟩ := encodeBody_parts h hbody
    simp at hb
    simp [decodeFields, decodeN, hb]
  | tret l | tlbi a b n l s | shot a b z n l s | csav g | crst g | stop a x k | slp g m
  | sflt g b q =>
    obtain ⟨hb, rfl⟩ := encodeBody_parts h hbody
    simp [encF_tret, encF_tlbi, encF_shot, encF_one, encF_stop, encF_slp, encF_sflt] at hb
    simp [decodeFields, decodeZ, hb]
  | _ => cases h

end Sys2Proof
end

section
/-! What the decoder reads, the encoder writes: each class's row answers an instruction whose body is that of the word (R27, R40). -/
namespace Sys2Proof

section
variable {w : Word} {ext : List LWord} {i : Instr} {op : Nat}

theorem encodeBody_of_lays {l : List (Nat × Nat)} (hi : encodeBody i = some (pack l, ext)) (h : Lays w 31 l) :
    encodeBody i = some (bodyOf w, ext) := pack_of_lays h ▸ hi

/-! ### Rows of a shared layout -/

theorem encodeBody_of_alu {r : Reg → Reg → Reg → Reg3 → Instr} {f : Reg → Reg → BitVec 10 → List LWord → Instr}
    (hclass : classOf w = 0) (hop : (fld w 21 6).toNat = op)
    (hr : ∀ d a b p, encodeBody (r d a b p) = some (encR op d a b p, []))
    (hf : ∀ d a i e, encodeBody (f d a i e) = some (encI op d a i, e)) (h : alu w ext r f = .ok i) :
    encodeBody i = some (bodyOf w, ext) := by
  unfold alu at h
  split at h
  · next hform =>
    cases h
    exact encodeBody_of_lays (hf _ _ _ _) (by simp [hclass, hop, hform])
  · next hform =>
    simp at h
    obtain ⟨hzero, rfl, rfl⟩ := h
    exact encodeBody_of_lays (hr _ _ _ _) (by simp [hclass, hop, hform, hzero])

theorem encodeBody_of_alu1 {r : Reg → Reg → Reg3 → Instr} (hclass : classOf w = 0) (hop : (fld w 21 6).toNat = op)
    (hr : ∀ d a p, encodeBody (r d a p) = some (encR op d a 0#5 p, [])) (h : alu1 w ext r = .ok i) :
    encodeBody i = some (bodyOf w, ext) := by
  simp [alu1] at h
  obtain ⟨hzero, hzero', rfl, rfl⟩ := h
  exact encodeBody_of_lays ((hr _ _ _).trans (by rw [encR_noB])) (by simp [hclass, hop, hzero, hzero'])

theorem encodeBody_of_mem {k : Reg → Reg → MSpace → BitVec 10 → List LWord → Instr} (hclass : classOf w = 1)
    (hop : (fld w 22 5).toNat = op) (hk : ∀ g b s i e, encodeBody (k g b s i e) = some (encM op g b s i, e))
    (h : mem w ext k = .ok i) : encodeBody i = some (bodyOf w, ext) := by
  simp [mem] at h
  obtain ⟨s, hs, rfl⟩ := h
  exact encodeBody_of_lays (hk _ _ _ _ _) (by simp [hclass, hop, hs])

theorem encodeBody_of_hint {k : Reg → BitVec 10 → List LWord → Instr} (hclass : classOf w = 1)
    (hop : (fld w 22 5).toNat = op) (hk : ∀ b i e, encodeBody (k b i e) = some (encM op 0 b .global i, e))
    (h : hint w ext k = .ok i) : encodeBody i = some (bodyOf w, ext) := by
  simp [hint] at h
  obtain ⟨hzero, hzero', rfl⟩ := h
  exact encodeBody_of_lays (hk _ _ _) (by simp [hclass, hop, hzero, hzero', mspaceCode])

theorem encodeBody_of_vec3 {cls : Nat} {k : VType → Reg → Reg → Reg → Reg3 → Instr} (hclass : classOf w = cls)
    (hop : (fld w 21 6).toNat = op) (hk : ∀ t d a b m, encodeBody (k t d a b m) = some (encV cls op t d a b m, []))
    (h : vec3 w ext k = .ok i) : encodeBody i = some (bodyOf w, ext) := by
  simp [vec3] at h
  obtain ⟨rfl, rfl⟩ := h
  exact encodeBody_of_lays (hk _ _ _ _ _) (by simp [hclass, hop])

theorem encodeBody_of_vec1 {cls : Nat} {k : VType → Reg → Reg → Reg3 → Instr} (hclass : classOf w = cls)
    (hop : (fld w 21 6).toNat = op) (hk : ∀ t d a m, encodeBody (k t d a m) = some (encV cls op t d a 0 m, []))
    (h : vec1 w ext k = .ok i) : encodeBody i = some (bodyOf w, ext) := by
  simp [vec1] at h
  obtain ⟨hzero, rfl, rfl⟩ := h
  exact encodeBody_of_lays (hk _ _ _ _) (by simp [hclass, hop, hzero])

theorem encodeBody_of_quant {k : VType → Reg → Reg → Reg → Bool → Instr} (hclass : classOf w = 4)
    (hop : (fld w 21 6).toNat = op) (hk : ∀ t d a s f, encodeBody (k t d a s f) = some (pack [(4, 4), (6, op),
      (3, typeCode t), (5, d.toNat), (5, a.toNat), (5, s.toNat), (1, f.toNat), (2, 0)], []))
    (h : quant w ext k = .ok i) : encodeBody i = some (bodyOf w, ext) := by
  simp [quant] at h
  obtain ⟨hzero, rfl, rfl⟩ := h
  exact encodeBody_of_lays (hk _ _ _ _ _) (by simp [hclass, hop, hzero])

theorem encodeBody_of_dword {k : Cmpl → Bool → DSpace → DSpace → Instr} (hclass : classOf w = 7)
    (hop : (fld w 23 4).toNat = op) (hk : ∀ c x s d, encodeBody (k c x s d) = some (encD op c x s d, []))
    (h : dword w ext k = .ok i) : encodeBody i = some (bodyOf w, ext) := by
  simp [dword] at h
  obtain ⟨hzero, c, hc, rfl, rfl⟩ := h
  exact encodeBody_of_lays (hk _ _ _ _) (by simp [hclass, hop, hzero, hc])

/-! ### The classes -/

theorem encodeBody_of_decodeS (hclass : classOf w = 0) (h : decodeS w ext = .ok i) :
    encodeBody i = some (bodyOf w, ext) := by
  unfold decodeS at h
  split at h
  case h_1 hop =>
    simp at h
    obtain ⟨hzero, rfl, rfl⟩ := h
    exact encodeBody_of_lays (l := [(4, 0), (27, 0)]) rfl (by simp [hclass, hzero])
  case h_2 hop | h_3 hop | h_4 hop | h_5 hop | h_6 hop | h_7 hop | h_8 hop | h_9 hop | h_10 hop | h_11 hop | h_12 hop
    | h_13 hop | h_14 hop | h_15 hop | h_16 hop | h_17 hop | h_18 hop | h_19 hop | h_20 hop | h_21 hop | h_22 hop |
    h_23 hop | h_24 hop | h_25 hop | h_26 hop | h_27 hop | h_30 hop | h_31 hop =>
    exact encodeBody_of_alu hclass hop (fun _ _ _ _ => rfl) (fun _ _ _ _ => rfl) h
  case h_28 hop | h_29 hop =>
    exact encodeBody_of_alu1 hclass hop (fun _ _ _ => rfl) h
  case h_32 hop =>
    simp [aluR] at h
    obtain ⟨hform, hzero, rfl, rfl⟩ := h
    exact encodeBody_of_lays rfl (by simp [hclass, hop, hform, hzero])
  case h_33 hop =>
    simp only [decodeCmp, named_eq_ok, condOf_eq_some_iff] at h
    obtain ⟨k, hk, h⟩ := h
    split at h
    · next hform =>
      cases h
      exact encodeBody_of_lays rfl (by simp [hclass, hop, hk, hform])
    · next hform =>
      simp at h
      obtain ⟨hzero, rfl, rfl⟩ := h
      exact encodeBody_of_lays rfl (by simp [hclass, hop, hk, hform, hzero])
  case h_34 hop =>
    simp at h
    obtain ⟨hzero, rfl, rfl⟩ := h
    exact encodeBody_of_lays rfl (by simp [hclass, hop, hzero])
  case h_35 hop | h_36 hop | h_37 hop =>
    simp at h
    obtain ⟨hzero, e, he, rfl, rfl⟩ := h
    exact encodeBody_of_lays rfl (by simp [hclass, hop, hzero, he])
  case h_38 =>
    cases h

theorem encodeBody_of_decodeM (hclass : classOf w = 1) (h : decodeM w ext = .ok i) :
    encodeBody i = some (bodyOf w, ext) := by
  unfold decodeM at h
  split at h
  case h_1 hop | h_2 hop | h_3 hop | h_4 hop | h_5 hop | h_6 hop | h_7 hop | h_8 hop | h_9 hop | h_10 hop | h_11 hop
    =>
    exact encodeBody_of_mem hclass hop (fun _ _ _ _ _ => rfl) h
  case h_12 hop | h_13 hop | h_14 hop =>
    exact encodeBody_of_hint hclass hop (fun _ _ _ => rfl) h
  case h_15 =>
    cases h

theorem encodeBody_of_decodeB (hclass : classOf w = 2) (h : decodeB w ext = .ok i) :
    encodeBody i = some (bodyOf w, ext) := by
  unfold decodeB at h
  split at h
  case h_1 hop | h_2 hop | h_3 hop | h_5 hop | h_6 hop | h_9 hop | h_10 hop =>
    simp at h
    obtain ⟨rfl, rfl⟩ := h
    exact encodeBody_of_lays rfl (by simp [hclass, hop])
  case h_4 hop | h_7 hop | h_8 hop | h_11 hop | h_12 hop | h_13 hop =>
    simp at h
    obtain ⟨hzero, rfl, rfl⟩ := h
    exact encodeBody_of_lays rfl (by simp [hclass, hop, hzero])
  case h_14 hop =>
    simp at h
    obtain ⟨hzero, rfl, rfl⟩ := h
    split
    · next hbit => exact encodeBody_of_lays rfl (by simp [hclass, hop, hbit, hzero])
    · next hbit => exact encodeBody_of_lays rfl (by simp [hclass, hop, hbit, hzero])
  case h_15 =>
    cases h

theorem encodeBody_of_decodeV (hclass : classOf w = 3) (h : decodeV w ext = .ok i) :
    encodeBody i = some (bodyOf w, ext) := by
  unfold decodeV at h
  split at h
  case h_1 hop | h_2 hop | h_3 hop | h_4 hop | h_5 hop | h_6 hop | h_7 hop | h_8 hop | h_9 hop | h_10 hop | h_11 hop |
    h_13 hop | h_14 hop | h_15 hop | h_16 hop | h_17 hop | h_18 hop | h_19 hop | h_20 hop | h_21 hop | h_22 hop | h_23
    hop | h_24 hop | h_25 hop | h_26 hop | h_27 hop | h_28 hop | h_35 hop | h_38 hop =>
    exact encodeBody_of_vec3 hclass hop (fun _ _ _ _ _ => rfl) h
  case h_12 hop | h_29 hop | h_30 hop | h_31 hop | h_32 hop | h_33 hop | h_34 hop | h_36 hop | h_39 hop | h_40 hop |
    h_41 hop =>
    exact encodeBody_of_vec1 hclass hop (fun _ _ _ _ => rfl) h
  case h_37 hop =>
    simp only [reserved_eq_ok] at h
    obtain ⟨hzero, h⟩ := h
    split at h
    · next k hk =>
      simp at h hk
      obtain ⟨rfl, rfl⟩ := h
      exact encodeBody_of_lays rfl (by simp [hclass, hop, hzero, hk])
    · cases h
  case h_42 =>
    cases h

theorem encodeBody_of_decodeX (hclass : classOf w = 4) (h : decodeX w ext = .ok i) :
    encodeBody i = some (bodyOf w, ext) := by
  unfold decodeX at h
  split at h
  case h_1 hop | h_2 hop | h_6 hop | h_7 hop =>
    cases h
    exact encodeBody_of_lays rfl (by simp [hclass, hop])
  case h_3 hop | h_4 hop | h_8 hop | h_15 hop | h_16 hop =>
    exact encodeBody_of_vec3 hclass hop (fun _ _ _ _ _ => rfl) h
  case h_5 hop | h_14 hop =>
    exact encodeBody_of_vec1 hclass hop (fun _ _ _ _ => rfl) h
  case h_9 hop =>
    simp at h
    obtain ⟨hzero, rfl, rfl⟩ := h
    exact encodeBody_of_lays rfl (by simp [hclass, hop, hzero])
  case h_10 hop =>
    simp at h
    obtain ⟨rfl, rfl⟩ := h
    exact encodeBody_of_lays rfl (by simp [hclass, hop])
  case h_11 hop | h_12 hop =>
    exact encodeBody_of_quant hclass hop (fun _ _ _ _ _ => rfl) h
  case h_13 hop =>
    simp at h
    obtain ⟨hzero, rfl, rfl⟩ := h
    exact encodeBody_of_lays rfl (by simp [hclass, hop, hzero, typeCode])
  case h_17 hop =>
    simp [decodeVmovm] at h
    obtain ⟨hzero, hzero', rfl, rfl⟩ := h
    exact encodeBody_of_lays rfl (by simp [hclass, hop, hzero, hzero'])
  case h_18 =>
    cases h

theorem encodeBody_of_decodeA (hclass : classOf w = 5) (h : decodeA w ext = .ok i) :
    encodeBody i = some (bodyOf w, ext) := by
  unfold decodeA at h
  split at h
  case h_1 hop =>
    simp at h
    obtain ⟨hzero, rfl, rfl⟩ := h
    exact encodeBody_of_lays rfl (by simp [hclass, hop, hzero])
  case h_2 hop =>
    simp at h
    obtain ⟨hzero, rfl, rfl⟩ := h
    exact encodeBody_of_lays (congrArg (fun n => some (n, [])) (encA_first7 5 1 _ _)) (by simp [hclass, hop, hzero])
  case h_3 hop =>
    simp at h
    obtain ⟨hzero, rfl, rfl⟩ := h
    exact encodeBody_of_lays (congrArg (fun n => some (n, [])) (encA_zero 5 2)) (by simp [hclass, hop, hzero])
  case h_4 hop =>
    simp at h
    obtain ⟨hzero, rfl, rfl⟩ := h
    exact encodeBody_of_lays (congrArg (fun n => some (n, [])) (encA_first8 5 3 _ _)) (by simp [hclass, hop, hzero])
  case h_5 hop =>
    simp at h
    obtain ⟨o, ho, rfl, rfl⟩ := h
    exact encodeBody_of_lays rfl (by simp [hclass, hop, ho])
  case h_6 hop =>
    simp at h
    obtain ⟨hzero, rfl, rfl⟩ := h
    exact encodeBody_of_lays (congrArg (fun n => some (n, [])) (encA_first8 5 5 _ _)) (by simp [hclass, hop, hzero])
  case h_7 hop =>
    simp at h
    obtain ⟨hzero, rfl, rfl⟩ := h
    exact encodeBody_of_lays (congrArg (fun n => some (n, [])) (encA_bit 5 6 _)) (by simp [hclass, hop, hzero])
  case h_8 hop =>
    simp at h
    obtain ⟨hzero, rfl, rfl⟩ := h
    exact encodeBody_of_lays (congrArg (fun n => some (n, [])) (encA_bit 5 7 _)) (by simp [hclass, hop, hzero])
  case h_9 =>
    cases h

theorem encodeBody_of_decodeK (hclass : classOf w = 6) (h : decodeK w ext = .ok i) :
    encodeBody i = some (bodyOf w, ext) := by
  unfold decodeK at h
  split at h
  case h_1 hop | h_2 hop | h_3 hop =>
    cases h
    exact encodeBody_of_lays rfl (by simp [hclass, hop])
  case h_4 hop =>
    simp at h
    obtain ⟨hzero, rfl, rfl⟩ := h
    exact encodeBody_of_lays rfl (by simp [hclass, hop, hzero])
  case h_5 =>
    cases h

theorem encodeBody_of_decodeD (hclass : classOf w = 7) (h : decodeD w ext = .ok i) :
    encodeBody i = some (bodyOf w, ext) := by
  unfold decodeD at h
  split at h
  case h_1 hop | h_2 hop | h_4 hop | h_5 hop =>
    exact encodeBody_of_dword hclass hop (fun _ _ _ _ => rfl) h
  case h_3 hop =>
    simp at h
    obtain ⟨hzero, c, hc, rfl, rfl⟩ := h
    split
    · next hbit => exact encodeBody_of_lays rfl (by simp [hclass, hop, hc, hbit, hzero])
    · next hbit => exact encodeBody_of_lays rfl (by simp [hclass, hop, hc, hbit, hzero])
  case h_6 hop =>
    simp at h
    obtain ⟨hzero, rfl, rfl⟩ := h
    exact encodeBody_of_lays rfl (by simp [hclass, hop, hzero])
  case h_7 =>
    cases h

theorem encodeBody_of_decodeQ (hclass : classOf w = 8) (h : decodeQ w ext = .ok i) :
    encodeBody i = some (bodyOf w, ext) := by
  unfold decodeQ at h
  split at h
  case h_1 hop =>
    simp at h
    obtain ⟨hzero, rfl, rfl⟩ := h
    exact encodeBody_of_lays (congrArg (fun n => some (n, [])) (encA_first8 8 0 _ _)) (by simp [hclass, hop, hzero])
  case h_2 hop =>
    simp at h
    obtain ⟨hzero, rfl, rfl⟩ := h
    exact encodeBody_of_lays (congrArg (fun n => some (n, [])) (encA_first8 8 1 _ _)) (by simp [hclass, hop, hzero])
  case h_3 hop | h_7 hop =>
    simp at h
    obtain ⟨hzero, hzero', rfl, rfl⟩ := h
    exact encodeBody_of_lays rfl (by simp [hclass, hop, hzero, hzero'])
  case h_4 hop =>
    simp at h
    obtain ⟨hzero, rfl, rfl⟩ := h
    exact encodeBody_of_lays rfl (by simp [hclass, hop, hzero])
  case h_5 hop | h_6 hop =>
    simp at h
    obtain ⟨hzero, h⟩ := h
    split at h
    · next hcells =>
      simp at h
      obtain ⟨rfl, rfl⟩ := h
      exact encodeBody_of_lays rfl (by simp [hclass, hop, hzero, hcells])
    · cases h
  case h_8 hop =>
    simp at h
    obtain ⟨hzero, rfl, rfl⟩ := h
    exact encodeBody_of_lays (congrArg (fun n => some (n, [])) (encA_bit 8 7 _)) (by simp [hclass, hop, hzero])
  case h_9 =>
    cases h

theorem encodeBody_of_decodeF (hclass : classOf w = 9) (h : decodeF w ext = .ok i) :
    encodeBody i = some (bodyOf w, ext) := by
  unfold decodeF at h
  split at h
  case h_1 hop =>
    simp at h
    obtain ⟨hzero, rfl, rfl⟩ := h
    exact encodeBody_of_lays (congrArg (fun n => some (n, [])) (encF_rsw _ _ _)) (by simp [hclass, hop, hzero])
  case h_2 hop =>
    simp at h
    obtain ⟨hzero, o, ho, rfl, rfl⟩ := h
    exact encodeBody_of_lays (congrArg (fun n => some (n, [])) (encF_ram _ _ _ _)) (by simp [hclass, hop, hzero, ho])
  case h_3 hop =>
    simp at h
    obtain ⟨hzero, rfl, rfl⟩ := h
    exact encodeBody_of_lays (congrArg (fun n => some (n, [])) (encF_rld _ _ _ _)) (by simp [hclass, hop, hzero])
  case h_4 hop =>
    simp at h
    obtain ⟨hzero, hzero', rfl, rfl⟩ := h
    exact encodeBody_of_lays (congrArg (fun n => some (n, [])) (encF_rfl _ _)) (by simp [hclass, hop, hzero, hzero'])
  case h_5 hop =>
    simp at h
    obtain ⟨hzero, rfl, rfl⟩ := h
    exact encodeBody_of_lays (congrArg (fun n => some (n, [])) (encF_mgrp _)) (by simp [hclass, hop, hzero])
  case h_6 hop =>
    simp [decodeMlr] at h
    obtain ⟨hzero, hzero', hzero'', o, ho, t, ht, rfl, rfl⟩ := h
    exact encodeBody_of_lays (congrArg (fun n => some (n, [])) (encF_mlr _ _ _ _))
      (by simp [hclass, hop, hzero, hzero', hzero'', ho, ht])
  case h_7 hop =>
    simp at h
    obtain ⟨hzero, rfl, rfl⟩ := h
    exact encodeBody_of_lays (congrArg (fun n => some (n, [])) (encF_one 9 6 _)) (by simp [hclass, hop, hzero])
  case h_8 hop =>
    simp at h
    obtain ⟨hzero, rfl, rfl⟩ := h
    exact encodeBody_of_lays (congrArg (fun n => some (n, [])) (encF_rsta _ _)) (by simp [hclass, hop, hzero])
  case h_9 =>
    cases h

theorem encodeBody_of_decodeCadd (hclass : classOf w = 10) (hop : (fld w 22 5).toNat = 0) (h : decodeCadd w ext = .ok i) :
    encodeBody i = some (bodyOf w, ext) := by
  simp only [decodeCadd, reserved_eq_ok] at h
  obtain ⟨hzero, h⟩ := h
  split at h
  · next hremote =>
    split at h
    · cases h
      exact encodeBody_of_lays (congrArg (fun n => some (n, [_])) (encF_caddRemote _ _ _))
        (by simp [hclass, hop, hzero, hremote])
    · cases h
  · next hlocal =>
    simp at h
    obtain ⟨rfl, rfl⟩ := h
    exact encodeBody_of_lays (congrArg (fun n => some (n, [])) (encF_bit10 0 _ _ _)) (by simp [hclass, hop, hzero, hlocal])

theorem encodeBody_of_decodeDgs (hclass : classOf w = 10) (hop : (fld w 22 5).toNat = 9) (h : decodeDgs w ext = .ok i) :
    encodeBody i = some (bodyOf w, ext) := by
  simp only [decodeDgs, reserved_eq_ok] at h
  obtain ⟨hzero, h⟩ := h
  split at h
  case h_1 hfn | h_2 hfn =>
    simp at h
    obtain ⟨hzero', rfl, rfl⟩ := h
    exact encodeBody_of_lays (congrArg (fun n => some (n, [])) (encF_dgsSwitch _)) (by simp [hclass, hop, hzero, hzero', hfn])
  case h_3 hfn =>
    simp at h
    obtain ⟨hzero', rfl, rfl⟩ := h
    exact encodeBody_of_lays (congrArg (fun n => some (n, [])) (encF_dgs _ _ _)) (by simp [hclass, hop, hzero, hzero', hfn])
  case h_4 h0 h1 h2 =>
    simp at h
    obtain ⟨rfl, rfl⟩ := h
    have hfn : (fld w 0 2).toNat = 3 := by
      have hlt := (fld w 0 2).isLt
      change ¬_ at h0 h1 h2
      omega
    exact encodeBody_of_lays (congrArg (fun n => some (n, [])) (encF_dgs _ _ _)) (by simp [hclass, hop, hzero, hfn])

theorem encodeBody_of_decodeY (hclass : classOf w = 10) (h : decodeY w ext = .ok i) :
    encodeBody i = some (bodyOf w, ext) := by
  unfold decodeY at h
  split at h
  case h_1 hop =>
    exact encodeBody_of_decodeCadd hclass hop h
  case h_2 hop =>
    simp at h
    obtain ⟨hzero, hzero', rfl, rfl⟩ := h
    exact encodeBody_of_lays (congrArg (fun n => some (n, [])) (encF_bit10 1 _ _ _)) (by simp [hclass, hop, hzero, hzero'])
  case h_3 hop | h_4 hop =>
    simp at h
    obtain ⟨hzero, rfl, rfl⟩ := h
    exact encodeBody_of_lays rfl (by simp [hclass, hop, hzero])
  case h_5 hop =>
    simp at h
    obtain ⟨hzero, hzero', rfl, rfl⟩ := h
    exact encodeBody_of_lays (congrArg (fun n => some (n, [])) (encF_bit10 4 _ _ _)) (by simp [hclass, hop, hzero, hzero'])
  case h_6 hop =>
    simp at h
    obtain ⟨hzero, hzero', rfl, rfl⟩ := h
    exact encodeBody_of_lays (congrArg (fun n => some (n, [])) (encF_phs _ _ _)) (by simp [hclass, hop, hzero, hzero'])
  case h_7 hop =>
    simp at h
    obtain ⟨hzero, rfl, rfl⟩ := h
    exact encodeBody_of_lays (congrArg (fun n => some (n, [])) (encF_bar _ _)) (by simp [hclass, hop, hzero])
  case h_8 hop =>
    simp at h
    obtain ⟨hzero, hzero', rfl, rfl⟩ := h
    exact encodeBody_of_lays (congrArg (fun n => some (n, [])) (encF_fen _)) (by simp [hclass, hop, hzero, hzero'])
  case h_9 hop =>
    simp at h
    obtain ⟨hzero, rfl, rfl⟩ := h
    exact encodeBody_of_lays (congrArg (fun n => some (n, [])) (encF_one 10 8 _)) (by simp [hclass, hop, hzero])
  case h_10 hop =>
    exact encodeBody_of_decodeDgs hclass hop h
  case h_11 =>
    cases h

theorem encodeBody_of_decodeN (hclass : classOf w = 11) (h : decodeN w ext = .ok i) :
    encodeBody i = some (bodyOf w, ext) := by
  unfold decodeN at h
  split at h
  case h_1 hop | h_4 hop =>
    simp at h
    obtain ⟨hzero, rfl, rfl⟩ := h
    exact encodeBody_of_lays rfl (by simp [hclass, hop, hzero])
  case h_2 hop | h_3 hop =>
    simp at h
    obtain ⟨hzero, hzero', rfl, rfl⟩ := h
    exact encodeBody_of_lays rfl (by simp [hclass, hop, hzero, hzero'])
  case h_5 =>
    cases h

theorem encodeBody_of_decodeZ (hclass : classOf w = 12) (h : decodeZ w ext = .ok i) :
    encodeBody i = some (bodyOf w, ext) := by
  unfold decodeZ at h
  split at h
  case h_1 hop | h_2 hop =>
    simp at h
    obtain ⟨hzero, r, hr, rfl, rfl⟩ := h
    exact encodeBody_of_lays rfl (by simp [hclass, hop, hzero, hr])
  case h_3 hop =>
    simp at h
    obtain ⟨hzero, rfl, rfl⟩ := h
    exact encodeBody_of_lays (congrArg (fun n => some (n, [])) (encF_tret _)) (by simp [hclass, hop, hzero])
  case h_4 hop =>
    simp at h
    obtain ⟨hzero, rfl, rfl⟩ := h
    exact encodeBody_of_lays (congrArg (fun n => some (n, [])) (encF_tlbi _ _ _ _ _)) (by simp [hclass, hop, hzero])
  case h_5 hop =>
    simp at h
    obtain ⟨hzero, rfl, rfl⟩ := h
    exact encodeBody_of_lays (congrArg (fun n => some (n, [])) (encF_shot _ _ _ _ _ _)) (by simp [hclass, hop, hzero])
  case h_6 hop =>
    simp at h
    obtain ⟨hzero, rfl, rfl⟩ := h
    exact encodeBody_of_lays (congrArg (fun n => some (n, [])) (encF_one 12 5 _)) (by simp [hclass, hop, hzero])
  case h_7 hop =>
    simp at h
    obtain ⟨hzero, rfl, rfl⟩ := h
    exact encodeBody_of_lays (congrArg (fun n => some (n, [])) (encF_one 12 6 _)) (by simp [hclass, hop, hzero])
  case h_8 hop =>
    simp at h
    obtain ⟨hzero, k, hk, rfl, rfl⟩ := h
    exact encodeBody_of_lays (congrArg (fun n => some (n, [])) (encF_stop _ _ _)) (by simp [hclass, hop, hzero, hk])
  case h_9 hop =>
    simp at h
    obtain ⟨hzero, rfl, rfl⟩ := h
    exact encodeBody_of_lays (congrArg (fun n => some (n, [])) (encF_slp _ _)) (by simp [hclass, hop, hzero])
  case h_10 hop =>
    simp at h
    obtain ⟨hzero, rfl, rfl⟩ := h
    exact encodeBody_of_lays (congrArg (fun n => some (n, [])) (encF_sflt _ _ _)) (by simp [hclass, hop, hzero])
  case h_11 =>
    cases h

/-- What the fields of a word name has the body of that word. -/
theorem encodeBody_of_decodeFields (h : decodeFields w ext = .ok i) : encodeBody i = some (bodyOf w, ext) := by
  unfold decodeFields at h
  split at h
  case h_1 hclass => exact encodeBody_of_decodeS hclass h
  case h_2 hclass => exact encodeBody_of_decodeM hclass h
  case h_3 hclass => exact encodeBody_of_decodeB hclass h
  case h_4 hclass => exact encodeBody_of_decodeV hclass h
  case h_5 hclass => exact encodeBody_of_decodeX hclass h
  case h_6 hclass => exact encodeBody_of_decodeA hclass h
  case h_7 hclass => exact encodeBody_of_decodeK hclass h
  case h_8 hclass => exact encodeBody_of_decodeD hclass h
  case h_9 hclass => exact encodeBody_of_decodeQ hclass h
  case h_10 hclass => exact encodeBody_of_decodeF hclass h
  case h_11 hclass => exact encodeBody_of_decodeY hclass h
  case h_12 hclass => exact encodeBody_of_decodeN hclass h
  case h_13 hclass => exact encodeBody_of_decodeZ hclass h
  case h_14 | h_15 => cases h

end

end Sys2Proof
end

section
/-! The chain of a word and its L words (R20, R28), and with it both directions between instructions and words. -/
namespace Sys2Proof

theorem bodyOf_headWord (c : Bool) (n : Nat) : bodyOf (headWord c n) = low31 n := by
  cases c <;> simp [bodyOf, low31, headWord]

theorem lt_of_encodeBody {i : Instr} {n : Nat} {ext : List LWord} (h : encodeBody i = some (n, ext)) : n < 2 ^ 31 := by
  have hword := encodeBody_of_decodeFields (decodeFields_of_encodeBody h (bodyOf_headWord false n).symm)
  rw [h, bodyOf_headWord] at hword
  obtain ⟨hn, -⟩ := Prod.mk.inj (Option.some.inj hword)
  rw [hn]
  exact Nat.mod_lt _ (Nat.two_pow_pos 31)

theorem flag_headWord (c : Bool) {n : Nat} (h : n < 2 ^ 31) : flag (headWord c n) 31 = c := by
  rw [flag, BitVec.getLsbD, Nat.testBit_eq_decide_div_mod_eq]
  cases c <;> simp [headWord] <;> omega

theorem headWord_flag_bodyOf (w : Word) : headWord (flag w 31) (bodyOf w) = w := by
  have hlt := w.isLt
  apply BitVec.eq_of_toNat_eq
  rw [headWord, BitVec.toNat_ofNat, flag, BitVec.getLsbD, Nat.testBit_eq_decide_div_mod_eq, bodyOf, low31]
  rcases Nat.mod_two_eq_zero_or_one (w.toNat / 2 ^ 31) with h | h <;> simp only [h] <;> simp <;> omega

/-! ### L words -/

theorem lBody_lt (x : LWord) : 13 * 2 ^ 27 + x.toNat < 2 ^ 31 := by omega

theorem isL_lWord (c : Bool) (x : LWord) : isL (headWord c (13 * 2 ^ 27 + x.toNat)) = true := by
  have hbody := bodyOf_headWord c (13 * 2 ^ 27 + x.toNat)
  rw [bodyOf, low31, low31] at hbody
  simp only [isL, ← toNat_fld_class, toNat_fld, beq_iff_eq]
  omega

theorem fld_lWord (c : Bool) (x : LWord) : fld (headWord c (13 * 2 ^ 27 + x.toNat)) 0 27 = x := by
  have hbody := bodyOf_headWord c (13 * 2 ^ 27 + x.toNat)
  rw [bodyOf, low31, low31] at hbody
  rw [← toNat_fld_eq_iff, toNat_fld]
  omega

theorem headWord_of_isL {w : Word} (h : isL w = true) :
    headWord (flag w 31) (13 * 2 ^ 27 + (fld w 0 27).toNat) = w := by
  rw [isL, ← toNat_fld_class, toNat_fld, beq_iff_eq] at h
  rw [toNat_fld]
  have hbody : 13 * 2 ^ 27 + w.toNat / 2 ^ 0 % 2 ^ 27 = bodyOf w := by rw [bodyOf, low31]; omega
  rw [hbody, headWord_flag_bodyOf]

/-- After a chained word, the decoder takes exactly the L words that the encoder wrote, unless another follows them chained. -/
theorem splitL_lWords (c : Bool) (ext : List LWord) {rest : List Word} (hrest : c = true → ∀ w ∈ rest.head?, isL w = false) :
    splitL (c || !ext.isEmpty) (lWords c ext ++ rest) = (ext, c, rest) := by
  induction ext with
  | nil =>
    cases rest with
    | nil => simp [lWords, splitL]
    | cons w ws =>
      have hw : c = true → isL w = false := fun hc => hrest hc w rfl
      cases c <;> simp_all [lWords, splitL]
  | cons x ext ih =>
    simp only [lWords, List.cons_append, splitL, List.isEmpty_cons, Bool.not_false, Bool.or_true, isL_lWord, Bool.and_self,
      if_true, flag_headWord _ (lBody_lt x), ih, fld_lWord]

theorem lWords_of_splitL (c : Bool) (ws : List Word) :
    let x := splitL c ws
    ws = lWords x.2.1 x.1 ++ x.2.2 ∧ c = (x.2.1 || !x.1.isEmpty) := by
  induction ws generalizing c with
  | nil => simp [splitL, lWords]
  | cons w ws ih =>
    rw [splitL]
    split
    · next h =>
      obtain ⟨rfl, hl⟩ : c = true ∧ isL w = true := by simpa using h
      obtain ⟨hws, hflag⟩ := ih (flag w 31)
      have hhead := headWord_of_isL hl
      rw [hflag] at hhead
      exact ⟨by simp only [lWords, List.cons_append, hhead, ← hws], by simp⟩
    · simp [lWords]

/-! ### One instruction -/

theorem wellFormed_of_decodeWord {w : Word} {ext : List LWord} {i : Instr} (h : decodeWord w ext = .ok i) :
    wellFormed i = true ∧ decodeFields w ext = .ok i := by
  unfold decodeWord at h
  split at h
  · next j hj =>
    split at h
    · next hwf => cases h; exact ⟨hwf, hj⟩
    · cases h
  · cases h

theorem decodeWord_of_wellFormed {w : Word} {ext : List LWord} {i : Instr} (hwf : wellFormed i = true)
    (h : decodeFields w ext = .ok i) : decodeWord w ext = .ok i := by
  simp only [decodeWord, h, hwf, if_true]

theorem decodeOne_of_decodeWord {w : Word} {ws rest : List Word} {ext : List LWord} {c : Bool} {i : Instr}
    (hsplit : splitL (flag w 31) ws = (ext, c, rest)) (h : decodeWord w ext = .ok i) :
    decodeOne (w :: ws) = .ok (c, i, rest) := by
  simp only [decodeOne, hsplit, h]

theorem encode_eq_some {i : Instr} {c : Bool} {es : List Word} (h : encode c i = some es) :
    ∃ body ext, encodeBody i = some (body, ext) ∧ es = headWord (c || !ext.isEmpty) body :: lWords c ext := by
  unfold encode at h
  split at h
  · cases h
  · next body ext hbody => exact ⟨body, ext, hbody, (Option.some.inj h).symm⟩

theorem decodeOne_of_encode {i : Instr} {c : Bool} {es rest : List Word} (hwf : wellFormed i = true)
    (h : encode c i = some es) (hrest : c = true → ∀ w ∈ rest.head?, isL w = false) :
    decodeOne (es ++ rest) = .ok (c, i, rest) := by
  obtain ⟨body, ext, hbody, rfl⟩ := encode_eq_some h
  have hfields : decodeFields (headWord (c || !ext.isEmpty) body) ext = .ok i :=
    decodeFields_of_encodeBody hbody (bodyOf_headWord _ body).symm
  refine decodeOne_of_decodeWord ?_ (decodeWord_of_wellFormed hwf hfields)
  rw [flag_headWord _ (lt_of_encodeBody hbody)]
  exact splitL_lWords c ext hrest

theorem encode_of_decodeOne {ws rest : List Word} {c : Bool} {i : Instr} (h : decodeOne ws = .ok (c, i, rest)) :
    wellFormed i = true ∧ ∃ es, encode c i = some es ∧ ws = es ++ rest := by
  cases ws with
  | nil => cases h
  | cons w ws =>
    simp only [decodeOne] at h
    split at h
    · next j hj =>
      cases h
      obtain ⟨hwf, hfields⟩ := wellFormed_of_decodeWord hj
      obtain ⟨hws, hflag⟩ := lWords_of_splitL (flag w 31) ws
      refine ⟨hwf, _, by rw [encode, encodeBody_of_decodeFields hfields], ?_⟩
      rw [List.cons_append, ← hws, ← hflag, headWord_flag_bodyOf]
    · cases h

end Sys2Proof
end

section
open Sys2Proof

/-- Settles O55: the body of the first word holds the fields that the decoder reads, and the L words follow it in their chain. -/
theorem decodeOfEncode : Obligations.DecodeOfEncode := by
  unfold Obligations.DecodeOfEncode
  intro i c es rest hwf h hrest
  exact decodeOne_of_encode hwf h hrest

/-- Settles O56: each row of the decoder reads every bit of the word, a field or a reserved zero, so the encoder writes it back. -/
theorem encodeOfDecode : Obligations.EncodeOfDecode := by
  unfold Obligations.EncodeOfDecode
  intro ws c i rest h
  exact encode_of_decodeOne h
end

section
/-! Registers of a strand, written and read (R5, R31, Table COR-1, R167): what each reads after a pending write. -/
namespace Sys2Proof.Machine

theorem getElem_set_toNat {α : Type} {m n : Nat} (v : Vector α n) {r q : BitVec m} (hr : r.toNat < n) (hq : q.toNat < n)
    (w : α) : (v.set r.toNat w)[q.toNat] = if q = r then w else v[q.toNat] := by
  simp only [Vector.getElem_set, BitVec.toNat_inj, eq_comm]

theorem readG_writeG (x : Strand) (r q : Reg) (w : DWord) :
    (x.writeG r w).readG q = if q = 0 then 0 else if q = r then w else x.readG q := by
  unfold Strand.readG Strand.writeG
  by_cases hq : q = 0
  · rw [if_pos hq, if_pos hq]
  rw [if_neg hq, if_neg hq, if_neg hq]
  by_cases hr : r = 0
  · rw [if_pos hr, if_neg (hr ▸ hq)]
  · rw [if_neg hr]
    exact getElem_set_toNat x.g r.isLt q.isLt w

theorem readP_writeP (x : Strand) (r q : Reg3) (w : Bool) :
    (x.writeP r w).readP q = if q = 0 then true else if q = r then w else x.readP q := by
  unfold Strand.readP Strand.writeP
  by_cases hq : q = 0
  · rw [if_pos hq, if_pos hq]
  rw [if_neg hq, if_neg hq, if_neg hq]
  by_cases hr : r = 0
  · rw [if_pos hr, if_neg (hr ▸ hq)]
  · rw [if_neg hr]
    exact getElem_set_toNat x.p r.isLt q.isLt w

theorem readV_writeV (x : Strand) (r q : Reg) (w : VWord) :
    (x.writeV r w).readV q = if q = r then w else x.readV q :=
  getElem_set_toNat x.v r.isLt q.isLt w

theorem readM_writeM (x : Strand) (r q : Reg3) (w : MWord) :
    (x.writeM r w).readM q = if q = 0 then BitVec.allOnes 1024 else if q = r then w else x.readM q := by
  unfold Strand.readM Strand.writeM
  by_cases hq : q = 0
  · rw [if_pos hq, if_pos hq]
  rw [if_neg hq, if_neg hq, if_neg hq]
  by_cases hr : r = 0
  · rw [if_pos hr, if_neg (hr ▸ hq)]
  · rw [if_neg hr]
    exact getElem_set_toNat x.m r.isLt q.isLt w

theorem writeG_frame (x : Strand) (r : Reg) (w : DWord) : { x.writeG r w with g := x.g } = x := by
  unfold Strand.writeG; split <;> rfl
theorem writeP_frame (x : Strand) (r : Reg3) (w : Bool) : { x.writeP r w with p := x.p } = x := by
  unfold Strand.writeP; split <;> rfl
theorem writeM_frame (x : Strand) (r : Reg3) (w : MWord) : { x.writeM r w with m := x.m } = x := by
  unfold Strand.writeM; split <;> rfl

/-! ### Staging registers -/

theorem idx8_eq_iff {i j : BitVec 4} (hi : i.toNat < 8) (hj : j.toNat < 8) : (idx8 i).val = (idx8 j).val ↔ i = j := by
  simp only [idx8, ← BitVec.toNat_inj]; omega

/-- Bits of a staging register that the tables do not reserve are those of the mask. -/
theorem getLsbD_stgMask {e : Eng} {i : BitVec 4} (hi : e ≠ .stream → i.toNat < 8) {b : Nat} (hb : b < 64) :
    (stgMask e i).getLsbD b = !specReserved e i.toNat b := by
  cases e with
  | array => have hlt := hi (by simp); revert i b; decide
  | quilt => have hlt := hi (by simp); revert i b; decide
  | stream | fabric | kiln =>
    change (BitVec.allOnes 64).getLsbD b = true
    rw [BitVec.getLsbD_allOnes, decide_eq_true hb]

/-- A staging register reads what was last written to it, but for its reserved fields (R5, R7). -/
theorem readStg_writeStg (x : Tile) (k : Nat) {e f : Eng} {i j : BitVec 4} (hi : e ≠ .stream → i.toNat < 8)
    (hj : f ≠ .stream → j.toNat < 8) (w : DWord) :
    (x.writeStg k e i w).readStg k f j = if f = e ∧ j = i then w &&& stgMask e i else x.readStg k f j := by
  by_cases hfe : f = e
  · subst hfe
    cases f with
    | stream => simp [Tile.writeStg, Tile.readStg, Vector.getElem_set, idx16, ← BitVec.toNat_inj, eq_comm]
    | array | quilt | fabric | kiln =>
      simp [Tile.writeStg, Tile.readStg, Vector.getElem_set, idx8_eq_iff (hi (by simp)) (hj (by simp)), eq_comm]
  · rw [if_neg fun h => hfe h.1]
    cases e <;> cases f <;> simp_all [Tile.writeStg, Tile.readStg, Tile.strand, Tile.setStrand]

theorem scratch_writeStg (x : Tile) (k : Nat) (e : Eng) (i : BitVec 4) (w : DWord) :
    (x.writeStg k e i w).scratch = x.scratch := by cases e <;> rfl

theorem strand_writeStg_ne (x : Tile) {k j : Nat} (h : j ≠ k) (e : Eng) (i : BitVec 4) (w : DWord) :
    (x.writeStg k e i w).strand j = x.strand j := by
  cases e with
  | array => rfl
  | stream | quilt | fabric | kiln => simp [Tile.writeStg, Tile.strand_setStrand, h]

theorem strand_writeStg_same (x : Tile) (k : Nat) (e : Eng) (i : BitVec 4) (w : DWord) :
    ((x.writeStg k e i w).strand k).g = (x.strand k).g ∧ ((x.writeStg k e i w).strand k).pc = (x.strand k).pc := by
  cases e with
  | array => exact ⟨rfl, rfl⟩
  | stream | quilt | fabric | kiln => simp [Tile.writeStg]

/-! ### A pending write at its completion -/

theorem exec_pendingWriteComplete (n k : Nat) (w : Write) (s : State) :
    exec (.pendingWriteComplete n k w) s = .next (s.onTile n fun x => x.commit k w) := rfl

/-- A write to a register changes its strand alone. -/
theorem exec_pendingWriteComplete_strand (s : State) (n k : Nat) (w : Write) (f : Strand → Strand)
    (hw : ∀ x : Tile, x.commit k w = x.setStrand k (f (x.strand k))) :
    ∃ t, exec (.pendingWriteComplete n k w) s = .next t ∧ OnlyStrandOf s t n k ∧ t.strand n k = f (s.strand n k) := by
  refine ⟨_, ?_, onlyStrandOf_onStrand s n k f, State.strand_onStrand_same s n k f⟩
  rw [exec_pendingWriteComplete]
  simp only [hw]
  rfl

end Sys2Proof.Machine
end

section
open Sys2Proof Sys2Proof.Machine

/-- Settles O4: each kind of write is the change of its own registers, which read back by the laws of the register files. -/
theorem pendingWrites : Obligations.PendingWrites := by
  unfold Obligations.PendingWrites
  intro n k s
  refine ⟨fun r w => ?_, fun r w => ?_, fun r w => ?_, fun r w => ?_, fun e i w hi => ?_, fun a bs => ?_⟩
  · obtain ⟨t, ht, honly, hstrand⟩ := exec_pendingWriteComplete_strand s n k (.g r w) (·.writeG r w) fun _ => rfl
    exact ⟨t, ht, honly, hstrand ▸ writeG_frame _ r w, fun q => hstrand ▸ readG_writeG _ r q w⟩
  · obtain ⟨t, ht, honly, hstrand⟩ := exec_pendingWriteComplete_strand s n k (.p r w) (·.writeP r w) fun _ => rfl
    exact ⟨t, ht, honly, hstrand ▸ writeP_frame _ r w, fun q => hstrand ▸ readP_writeP _ r q w⟩
  · obtain ⟨t, ht, honly, hstrand⟩ := exec_pendingWriteComplete_strand s n k (.v r w) (·.writeV r w) fun _ => rfl
    exact ⟨t, ht, honly, hstrand ▸ rfl, fun q => hstrand ▸ readV_writeV _ r q w⟩
  · obtain ⟨t, ht, honly, hstrand⟩ := exec_pendingWriteComplete_strand s n k (.m r w) (·.writeM r w) fun _ => rfl
    exact ⟨t, ht, honly, hstrand ▸ writeM_frame _ r w, fun q => hstrand ▸ readM_writeM _ r q w⟩
  · obtain ⟨hg, hpc⟩ := strand_writeStg_same (s.tile n) k e i w
    refine ⟨_, exec_pendingWriteComplete n k _ s, rfl, fun m hm => ?_, fun j hj => ?_, ?_, ?_, ?_, fun f j hj => ?_⟩ <;>
      simp only [State.tile_onTile, State.strand_onTile, Tile.commit, if_true]
    · rw [if_neg hm]
    · exact strand_writeStg_ne _ hj e i w
    · exact scratch_writeStg _ k e i w
    · exact hg
    · exact hpc
    · rw [readStg_writeStg _ k hi hj]
      split
      · intro b hb
        rw [BitVec.getLsbD_and, getLsbD_stgMask hi hb]
      · rfl
  · refine ⟨_, exec_pendingWriteComplete n k _ s, rfl, fun m hm => ?_, ?_, fun hwf x => ?_⟩ <;>
      simp only [State.tile_onTile, Tile.commit, if_true]
    · rw [if_neg hm]
    · exact Memory.writes_read _ a bs x hwf
end

section
open Sys2Proof Sys2Proof.Machine

/-- Settles O3: each word posts its write at bound 1, and GETI's values are those of Table COR-5. -/
theorem stagingAndGeti : Obligations.StagingAndGeti := by
  unfold Obligations.StagingAndGeti
  intro d a e x s l hl
  refine ⟨⟨_, rfl, posts_write s 1 _⟩, ⟨_, rfl, posts_write s 1 _⟩, fun r hr => ⟨_, rfl, ?_⟩⟩
  have hvalue : getiValue s r.1 = r.2 := by
    simp only [List.mem_cons, List.not_mem_nil, or_false] at hr
    rcases hr with rfl | rfl | rfl | rfl | rfl | rfl | rfl | rfl | rfl | rfl | rfl <;> simp [getiValue, hl, dieOf, posOf]
  rw [← hvalue]
  exact posts_write s 1 _
end

section
/-! Where a strand goes after its bundle (R25, R151 to R157): its loop registers under the operations that end a loop, and the
strand that `State.advance` leaves. -/
namespace Sys2Proof.Machine

/-! ### Loop registers -/

/-- A loop register that has become inactive. -/
def Loop.off (v : Loop) : Loop := { v with act := false }


@[simp] theorem Strand.loop_setLoop_same (x : Strand) (l : Bool) (v : Loop) : (x.setLoop l v).loop l = v := by cases l <;> rfl
@[simp] theorem Strand.loop_setLoop_other (x : Strand) (l : Bool) (v : Loop) : (x.setLoop l v).loop (!l) = x.loop !l := by
  cases l <;> rfl

theorem Strand.loop_setLoop_not (x : Strand) (l : Bool) (v : Loop) : (x.setLoop (!l) v).loop l = x.loop l := by
  cases l <;> rfl

theorem Strand.endLoop_eq (x : Strand) (l : Bool) : x.endLoop l =
    if (x.loop !l).nest = true then (x.setLoop l (x.loop l).off).setLoop (!l) (x.loop !l).off
    else x.setLoop l (x.loop l).off := by cases l <;> rfl

@[simp] theorem Strand.loop_endLoop_same (x : Strand) (l : Bool) : (x.endLoop l).loop l = (x.loop l).off := by
  rw [Strand.endLoop_eq]
  cases l <;> split <;> rfl

theorem otherAfter_eq (x : Strand) (l : Bool) : otherAfter x l = if (x.loop !l).nest then (x.loop !l).off else x.loop !l := rfl

theorem Strand.loop_endLoop_other (x : Strand) (l : Bool) : (x.endLoop l).loop (!l) = otherAfter x l := by
  rw [Strand.endLoop_eq, otherAfter_eq]
  split
  · rw [Strand.loop_setLoop_same]
  · rw [Strand.loop_setLoop_other]

theorem Strand.loop_endLoop_not (x : Strand) (l : Bool) :
    (x.endLoop (!l)).loop l = if (x.loop l).nest then (x.loop l).off else x.loop l := by
  have h := x.loop_endLoop_other (!l)
  rwa [otherAfter_eq, Bool.not_not] at h

/-- Only the loop registers of a strand differ. -/
def OnlyLoops (x y : Strand) : Prop := { y with loop0 := x.loop0, loop1 := x.loop1 } = x

theorem onlyLoops_refl (x : Strand) : OnlyLoops x x := rfl
theorem OnlyLoops.trans {x y z : Strand} (h : OnlyLoops x y) (g : OnlyLoops y z) : OnlyLoops x z := by
  unfold OnlyLoops at *
  rw [← g] at h
  exact h
theorem onlyLoops_setLoop (x : Strand) (l : Bool) (v : Loop) : OnlyLoops x (x.setLoop l v) := by cases l <;> rfl
theorem onlyLoops_endLoop (x : Strand) (l : Bool) : OnlyLoops x (x.endLoop l) := by
  rw [Strand.endLoop_eq]
  split
  · exact (onlyLoops_setLoop x l _).trans (onlyLoops_setLoop _ _ _)
  · exact onlyLoops_setLoop x l _

/-! ### Loops that a transfer or a later bundle ends (R155) -/

/-- Each loop that a test holds of ends, loop 0 first, with the loop nested in it. -/
def Strand.endWhere (x : Strand) (p : Loop → Bool) : Strand :=
  [false, true].foldl (fun x l => if p (x.loop l) then x.endLoop l else x) x

theorem loop_endWhere (x : Strand) {p : Loop → Bool} (hp : ∀ v, v.act = false → p v = false) (l : Bool) :
    (x.endWhere p).loop l = if p (x.loop l) = true ∨ (p (x.loop !l) = true ∧ (x.loop l).nest = true)
      then (x.loop l).off else x.loop l := by
  have htrue (y : Strand) : (y.endLoop false).loop true = _ := y.loop_endLoop_other false
  have hfalse (y : Strand) : (y.endLoop true).loop false = _ := y.loop_endLoop_other true
  simp only [otherAfter_eq, Bool.not_false, Bool.not_true] at htrue hfalse
  simp only [Strand.endWhere, List.foldl_cons, List.foldl_nil]
  by_cases h0 : p (x.loop false) = true
  · have hoff : p (x.loop true).off = false := hp _ rfl
    by_cases hnest : (x.loop true).nest = true
    · cases l <;> simp [h0, htrue, hnest, hoff]
    · by_cases h1 : p (x.loop true) = true <;> cases l <;> simp [h0, htrue, hfalse, hnest, h1, Loop.off]
  · by_cases h1 : p (x.loop true) = true <;> cases l <;> simp [h0, hfalse, h1]

theorem onlyLoops_endWhere (x : Strand) (p : Loop → Bool) : OnlyLoops x (x.endWhere p) := by
  have hstep (y : Strand) (l : Bool) : OnlyLoops y (if p (y.loop l) then y.endLoop l else y) := by
    split
    · exact onlyLoops_endLoop y l
    · exact onlyLoops_refl y
  exact (hstep x false).trans (hstep _ true)

theorem lt_lastWord_iff (code : List Word) (v : Loop) (n : Nat) :
    v.lastWord code < n ↔ v.stop.toNat + chainLen code v.stop.toNat ≤ n := by
  unfold Loop.lastWord chainLen; omega

/-- A transfer to a word leaves an active loop whose body does not hold it. -/
def leftBy (code : List Word) (w : Word) (v : Loop) : Bool :=
  v.act && !(v.start.toNat ≤ w.toNat && w.toNat ≤ v.lastWord code)

theorem leftBy_iff (code : List Word) (w : Word) (v : Loop) : leftBy code w v = true ↔ v.act = true ∧ ¬InBody code v w := by
  have hlast := lt_lastWord_iff code v w.toNat
  unfold leftBy InBody
  rw [Bool.and_eq_true, Bool.not_eq_true', Bool.and_eq_false_iff, decide_eq_false_iff_not, decide_eq_false_iff_not]
  refine and_congr_right fun _ => ?_
  omega

theorem endLeft_eq (x : Strand) (code : List Word) (w : Word) : x.endLeft code w = x.endWhere (leftBy code w) := rfl

theorem endPassed_eq (x : Strand) (code : List Word) :
    x.endPassed code = x.endWhere fun v => v.act && decide (v.lastWord code < x.pc.toNat) := by
  have hpc : (if ((x.loop false).act && decide ((x.loop false).lastWord code < x.pc.toNat)) = true then x.endLoop false
      else x).pc = x.pc := by
    split
    · exact (congrArg Strand.pc (onlyLoops_endLoop x false) : _)
    · rfl
  simp only [Strand.endPassed, Strand.endWhere, List.foldl_cons, List.foldl_nil, hpc]

/-! ### The back edge (R154) -/

theorem backEdge_back {x : Strand} {l : Bool} {w : Word} (hact : (x.loop l).act = true) (hstop : (x.loop l).stop = w)
    (hcount : (x.loop l).count ≠ 1) (r : List Bool) : backEdge w (l :: r) x =
      (x.setLoop l { x.loop l with count := (x.loop l).count - 1 }, some (x.loop l).start) := by
  have hne : ¬(x.loop l).count - 1 = 0 := fun h => hcount (sub_eq_zero.1 h)
  have hon : ¬((!(x.loop l).act || (x.loop l).stop != w) = true) := by simp [hact, hstop]
  simp only [backEdge, if_neg hon, if_neg hne]

theorem backEdge_end {x : Strand} {l : Bool} {w : Word} (hact : (x.loop l).act = true) (hstop : (x.loop l).stop = w)
    (hcount : (x.loop l).count = 1) (r : List Bool) : backEdge w (l :: r) x =
      backEdge w r ((x.setLoop l { x.loop l with count := (x.loop l).count - 1 }).endLoop l) := by
  have hzero : (x.loop l).count - 1 = 0 := by rw [hcount]; rfl
  have hon : ¬((!(x.loop l).act || (x.loop l).stop != w) = true) := by simp [hact, hstop]
  simp only [backEdge, if_neg hon, if_pos hzero]

/-- Of two active loops that share their END, the nested one's last iteration leaves the other as it was (R154). -/
theorem backEdge_sharedEnd_last {x : Strand} {l : Bool} {w : Word} (h : SharedEnd x l w) (hcount : (x.loop l).count = 1) :
    ∃ y, backEdge w [l, !l] x = backEdge w [!l] y ∧ y.loop l = { x.loop l with act := false, count := (x.loop l).count - 1 } ∧
      y.loop (!l) = x.loop !l := by
  obtain ⟨hact, -, hstop, -, -, hnest'⟩ := h
  refine ⟨_, backEdge_end hact hstop hcount [!l], ?_, ?_⟩
  · rw [Strand.loop_endLoop_same, Strand.loop_setLoop_same]
    rfl
  · rw [Strand.loop_endLoop_other, otherAfter_eq, Strand.loop_setLoop_other, hnest', if_neg Bool.false_ne_true]

theorem onlyLoops_backEdge (w : Word) (r : List Bool) (x : Strand) : OnlyLoops x (backEdge w r x).1 := by
  induction r generalizing x with
  | nil => exact onlyLoops_refl x
  | cons l r ih =>
    rw [backEdge]
    split
    · exact ih x
    · split
      · exact ((onlyLoops_setLoop x l _).trans (onlyLoops_endLoop _ l)).trans (ih _)
      · exact onlyLoops_setLoop x l _

theorem endsAt_of_sharedEnd {x : Strand} {l : Bool} {w : Word} (h : SharedEnd x l w) : x.endsAt w = [l, !l] := by
  obtain ⟨hact, hact', hstop, hstop', hnest, hnest'⟩ := h
  cases l <;> simp_all [Strand.endsAt, Strand.loop]

/-! ### The strand after its bundle -/

/-- What the executing strand is after a bundle whose core decides where it goes. -/
theorem me_advance {s : State} (hfollow : s.bun.follow = false) (ends : List Bool) (ws : List (Nat × Instr)) (stop : Bool) :
    (s.advance ends ws stop).me = { (s.nextOf ends s.me).1 with
      pc := (s.nextOf ends s.me).2.1
      nextCc := s.cc + (s.nextOf ends s.me).2.2 + s.bun.stall
      stopHere := stop
      bundles := (s.nextOf ends s.me).1.bundles + 1
      transferFrom := some s.bun.first
      splitGen := if ws.any spoilsSplit then none else (s.nextOf ends s.me).1.splitGen
      extent := if hasNode ws then none else (s.nextOf ends s.me).1.extent } := by
  refine (State.me_onMyTile _ _ ?_).trans ((State.me_onMe _ _).trans ?_)
  · exact fun _ => rfl
  · simp only [hfollow, Bool.false_eq_true, if_false]

theorem advance_loop {s : State} (hfollow : s.bun.follow = false) (ends : List Bool) (ws : List (Nat × Instr)) (stop l : Bool) :
    (s.advance ends ws stop).me.loop l = (s.nextOf ends s.me).1.loop l := by
  rw [me_advance hfollow]
  cases l <;> rfl

/-- Where the executing strand stands after its bundle, and from which cc its next bundle may issue. -/
theorem advance_next {s : State} (hfollow : s.bun.follow = false) (ends : List Bool) (ws : List (Nat × Instr)) (stop : Bool) :
    (s.advance ends ws stop).me.pc = (s.nextOf ends s.me).2.1 ∧
      (s.advance ends ws stop).me.nextCc = s.cc + (s.nextOf ends s.me).2.2 + s.bun.stall := by
  rw [me_advance hfollow]
  exact ⟨rfl, rfl⟩

/-! ### Where a bundle leads -/

theorem nextOf_target {s : State} {w : Word} (h : s.bun.target = some w) (ends : List Bool) : s.nextOf ends s.me =
    (if s.bun.tret == some true then s.me.restoreLoops else s.me.endLeft (s.image s.bun.tile).code w, w, 2) := by
  simp only [State.nextOf, h]

theorem nextOf_jump {s : State} {last : Word} (h : s.bun.target = none) (hj : s.bun.jump = some last) (ends : List Bool) :
    s.nextOf ends s.me = (s.me, last + BitVec.ofNat 32 (chainLen (s.image s.bun.tile).code last.toNat), 2) := by
  simp only [State.nextOf, h, hj]

theorem nextOf_backEdge {s : State} (h : s.bun.target = none) (hj : s.bun.jump = none) {ends : List Bool} {x : Strand}
    {o : Option Word} (hx : backEdge s.bun.first ends s.me = (x, o)) : s.nextOf ends s.me = (x, o.getD s.after, 1) := by
  cases o <;> simp only [State.nextOf, h, hj, hx, Option.getD_none, Option.getD_some]

theorem nextOf_bundles (s : State) (ends : List Bool) : (s.nextOf ends s.me).1.bundles = s.me.bundles := by
  have hloops {x : Strand} (h : OnlyLoops s.me x) : x.bundles = s.me.bundles := (congrArg Strand.bundles h : _)
  cases ht : s.bun.target with
  | some w =>
    rw [nextOf_target ht]
    dsimp only
    split
    · rfl
    · rw [endLeft_eq]
      exact hloops (onlyLoops_endWhere _ _)
  | none =>
    cases hj : s.bun.jump with
    | some last => rw [nextOf_jump ht hj]
    | none =>
      rw [nextOf_backEdge ht hj (Prod.mk.eta (p := backEdge s.bun.first ends s.me)).symm]
      exact hloops (onlyLoops_backEdge _ _ _)

end Sys2Proof.Machine
end

section
open Sys2Proof Sys2Proof.Machine

/-- Settles O11: where the bundle leads is `State.nextOf`'s answer, whose back edges and ended loops the laws above say. -/
theorem bundleSequence : Obligations.BundleSequence := by
  unfold Obligations.BundleSequence
  intro s ends ws stop hfollow t
  have hloop (l : Bool) : t.me.loop l = (s.nextOf ends s.me).1.loop l := advance_loop hfollow ends ws stop l
  obtain ⟨hpc, hcc⟩ : t.me.pc = _ ∧ t.me.nextCc = _ := advance_next hfollow ends ws stop
  refine ⟨?transferFrom, ?number, fun w hw => ?transfer, fun last ht hj => ?zeroCount, fun ht hj hends => ?noEnd,
    fun l ht hj hends hact hstop => ?oneEnd, fun l ht hj hshared hends => ?sharedEnd, fun w hw htret => ?leftBody,
    fun x code l hact hpassed => ?passedBody⟩
  case transferFrom =>
    exact (congrArg Strand.transferFrom (me_advance hfollow ends ws stop) : _)
  case number =>
    have hbundles : t.me.bundles = _ := (congrArg Strand.bundles (me_advance hfollow ends ws stop) : _)
    rw [nextOf_bundles] at hbundles
    rw [Strand.bundleSeq, Strand.bundleSeq, hbundles, Nat.mod_add_mod]
  case transfer =>
    rw [hpc, hcc, nextOf_target hw]
    exact ⟨rfl, rfl⟩
  case zeroCount =>
    rw [hpc, hcc, nextOf_jump ht hj]
    have h0 := hloop false
    have h1 := hloop true
    rw [nextOf_jump ht hj] at h0 h1
    exact ⟨rfl, rfl, h0, h1⟩
  case noEnd =>
    subst hends
    have hnext := nextOf_backEdge (ends := []) ht hj rfl
    have h0 := hloop false
    have h1 := hloop true
    rw [hnext] at hpc hcc h0 h1
    exact ⟨hpc, hcc, h0, h1⟩
  case oneEnd =>
    subst hends
    by_cases hcount : (s.me.loop l).count = 1
    · have hnext := nextOf_backEdge ht hj (backEdge_end hact hstop hcount [])
      rw [hpc, hcc, hloop l, hnext, if_pos hcount, Strand.loop_endLoop_same, Strand.loop_setLoop_same]
      exact ⟨rfl, rfl, rfl, rfl⟩
    · have hnext := nextOf_backEdge ht hj (backEdge_back hact hstop hcount [])
      rw [hpc, hcc, hloop l, hloop (!l), hnext, if_neg hcount, Strand.loop_setLoop_same, Strand.loop_setLoop_other]
      exact ⟨rfl, rfl, rfl, hact, rfl⟩
  case sharedEnd =>
    obtain ⟨hact, hact', hstop, hstop', hnest, -⟩ := id hshared
    rw [endsAt_of_sharedEnd hshared] at hends
    subst hends
    by_cases hcount : (s.me.loop l).count = 1
    · obtain ⟨x, hback, hl, hother⟩ := backEdge_sharedEnd_last hshared hcount
      rw [← hother] at hact' hstop' ⊢
      rw [if_neg (not_not.2 hcount)]
      by_cases hcount' : (x.loop !l).count = 1
      · have hnext := nextOf_backEdge ht hj (hback.trans (backEdge_end hact' hstop' hcount' []))
        have hsame := Strand.loop_endLoop_not (x.setLoop (!l) { x.loop !l with count := (x.loop !l).count - 1 }) l
        rw [Strand.loop_setLoop_not, hl, if_pos hnest] at hsame
        rw [hpc, hcc, hloop l, hloop (!l), hnext, if_neg (not_not.2 hcount'), hsame, Strand.loop_endLoop_same,
          Strand.loop_setLoop_same]
        exact ⟨rfl, rfl, rfl, rfl, rfl, rfl⟩
      · have hnext := nextOf_backEdge ht hj (hback.trans (backEdge_back hact' hstop' hcount' []))
        rw [hpc, hcc, hloop l, hloop (!l), hnext, if_pos hcount', Strand.loop_setLoop_not, Strand.loop_setLoop_same, hl]
        exact ⟨rfl, rfl, rfl, rfl, rfl, hact'⟩
    · have hnext := nextOf_backEdge ht hj (backEdge_back hact hstop hcount [!l])
      rw [hpc, hcc, hloop l, hloop (!l), hnext, if_pos hcount, Strand.loop_setLoop_same, Strand.loop_setLoop_other]
      exact ⟨rfl, rfl, rfl, hact, rfl⟩
  case leftBody =>
    intro out l
    have hleft : t.me.loop l = (s.me.endWhere (leftBy (s.image s.bun.tile).code w)).loop l := by
      rw [hloop l, nextOf_target hw, if_neg (by simpa using htret), endLeft_eq]
    rw [loop_endWhere _ (fun v hv => by rw [leftBy, hv, Bool.false_and])] at hleft
    have hout (l : Bool) : leftBy (s.image s.bun.tile).code w (s.me.loop l) = true ↔ out l := leftBy_iff _ _ _
    refine ⟨fun h => ?_, fun hstay hother => ?_⟩
    · rw [hleft, if_pos (h.imp (hout l).2 (And.imp_left (hout !l).2))]
      rfl
    · rw [hleft, if_neg]
      rintro (h | ⟨h, hnest⟩)
      · exact hstay ((hout l).1 h)
      · exact Bool.false_ne_true ((hother ((hout !l).1 h)).symm.trans hnest)
  case passedBody =>
    rw [endPassed_eq, loop_endWhere _ (fun v hv => by rw [hv, Bool.false_and])]
    rw [if_pos (Or.inl (by rw [hact, Bool.true_and, decide_eq_true_iff, lt_lastWord_iff]; exact hpassed))]
    rfl
end

section
/-! Words written out from the layouts, and the all-zero word, S.NOP (R41). -/
namespace Sys2Proof

theorem decodeOne_zero (r : List Word) : decodeOne (0 :: r) = .ok (false, .nop, r) :=
  decodeOne_of_encode (i := .nop) (c := false) (es := [0]) rfl rfl (by simp)

theorem decodeOne_chainedZero {r : List Word} (h : ∀ w ∈ r.head?, isL w = false) :
    decodeOne (0x80000000 :: r) = .ok (true, .nop, r) :=
  decodeOne_of_encode (i := .nop) (c := true) (es := [0x80000000]) rfl rfl fun _ => h

/-- A word is the whole of an instruction when the encoder writes that instruction as this word alone. -/
theorem decodeOne_single {w : Word} {i : Instr} (h : wellFormed i = true ∧ encode false i = some [w]) :
    decodeOne [w] = .ok (false, i, []) :=
  decodeOne_of_encode (rest := []) h.1 h.2 (by simp)

namespace Machine

theorem bundleAt_zero {code : List Word} {n : Nat} (h : code[n]? = some 0) : bundleAt code n = .ok ([(0, .nop)], 1) := by
  obtain ⟨hn, hword⟩ := List.getElem?_eq_some_iff.1 h
  have htake : (code.drop n).take 6 = 0 :: (code.drop (n + 1)).take 5 := by
    rw [List.drop_eq_getElem_cons hn, hword, List.take_succ_cons]
  have hpackets : packetsOk n 1 = true := by simp [packetsOk]
  have hdecode : decodeBundle 6 (0 :: (code.drop (n + 1)).take 5) = .ok ([(0, .nop)], 1) := by
    simp only [decodeBundle, decodeOne_zero, Bool.false_eq_true, if_false, Nat.add_sub_cancel_left]
    rfl
  rw [bundleAt, htake, hdecode]
  simp only [hpackets]
  rfl

/-- After a bundle of one NOP, the strand stands at the next word one cc later, and is else as it was. -/
theorem advance_nop {s : State} (hlen : s.bun.len = 1) (ht : s.bun.target = none) (hj : s.bun.jump = none)
    (hstall : s.bun.stall = 0) (hfollow : s.bun.follow = false) :
    let t := s.advance [] [(0, .nop)] false
    t.me.pc = s.bun.first + 1 ∧ t.me.nextCc = s.cc + 1 ∧ { t.me with
      pc := s.me.pc, nextCc := s.me.nextCc, stopHere := s.me.stopHere, bundles := s.me.bundles
      transferFrom := s.me.transferFrom } = s.me := by
  intro t
  have hnext : s.nextOf [] s.me = (s.me, s.after, 1) := nextOf_backEdge ht hj rfl
  have hme : t.me = _ := me_advance hfollow [] [(0, .nop)] false
  rw [hnext, hstall] at hme
  rw [hme]
  exact ⟨by rw [State.after, hlen]; rfl, rfl, rfl⟩

end Machine
end Sys2Proof
end

section
open Sys2Proof Sys2Proof.Machine

/-- Settles O57: each word is the encoder's for its instruction, and a bundle of the all-zero word only moves its strand on. -/
theorem decodedWords : Obligations.DecodedWords := by
  unfold Obligations.DecodedWords
  refine ⟨decodeOne_zero, fun _ => rfl, fun _ _ => bundleAt_zero, fun s hbun => ?_, fun _ => decodeOne_chainedZero, ?_, ?_,
    fun p hp => ?_⟩
  · rw [Bundle.mk.injEq] at hbun
    obtain ⟨-, -, -, hlen, -, ht, hj, hstall, -, -, -, -, -, -, hfollow, -⟩ := hbun
    exact advance_nop hlen ht hj hstall hfollow
  · decide
  · decide
  · refine decodeOne_single ?_
    revert p
    decide
end

section
/-! The array's command words (R36, R197, R200 to R206): their checks, and the command that each puts in flight. -/
namespace Sys2Proof.Machine

/-! ### Rows -/

theorem need_eq_ok {p : Bool} (h : p = true) (c : Check) : need p c = .ok := by rw [need, if_pos h]
theorem need_eq_else {p : Bool} (h : p = false) (c : Check) : need p c = c := by rw [need, h]; rfl
theorem Check.ok_and (b : Unit → Check) : Check.and .ok b = b () := rfl
theorem Check.trap_and (c : Cause) (a : Option DWord) (i : Option Word) (b : Unit → Check) :
    Check.and (.trap c a i) b = .trap c a i := rfl

/-- The rows of a set fit (R197). -/
abbrev RowSet.Fits (r : RowSet) : Prop := RowsFit r.1 r.2.1 r.2.2.1 r.2.2.2

theorem alignRows_ok {l : List RowSet} (h : ∀ r ∈ l, r.1 % 16 = 0 ∧ (1 < r.2.2.1 → r.2.1 % 16 = 0)) :
    alignRows l = .ok := by
  have hbase : (l.any fun r => r.1 % 16 != 0) = false := by
    simpa using fun a b c d hr => (h (a, b, c, d) hr).1
  have hpitch : (l.find? fun r => 1 < r.2.2.1 && r.2.1 % 16 != 0) = none := by
    simpa using fun a b c d hr => (h (a, b, c, d) hr).2
  simp only [alignRows, hbase, hpitch, Bool.false_eq_true, if_false]

theorem rangeRows_ok {l : List RowSet} (h : ∀ r ∈ l, r.Fits) : rangeRows l = .ok := by
  have hnone :
      ((l.flatMap fun r => (rowAddrs r).map fun a => (a, r.2.2.2)).find? fun a => scratchSize < a.1 + a.2) = none := by
    simp only [List.find?_eq_none, List.mem_flatMap, List.mem_map, rowAddrs, List.mem_range]
    rintro _ ⟨r, hr, _, ⟨b, hb, rfl⟩, rfl⟩
    have hrow := (h r hr).2.2 b hb
    rw [decide_eq_true_iff, not_lt]
    exact hrow
  rw [rangeRows, hnone]

theorem rowCheck_ok {l : List RowSet} (h : ∀ r ∈ l, r.Fits) : rowCheck l = .ok := by
  rw [rowCheck, alignRows_ok fun r hr => ⟨(h r hr).1, (h r hr).2.1⟩]
  exact rangeRows_ok h

/-- The first row of a command of one row set, at its base. -/
theorem rowAddrs_succ (base pitch n bytes : Nat) :
    ∃ l, rowAddrs (base, pitch, n + 1, bytes) = base :: l := by
  refine ⟨(List.range n).map fun b => base + (b + 1) * pitch, ?_⟩
  simp [rowAddrs, List.range_succ_eq_map, Function.comp_def]

theorem rowCheck_misaligned {base : Nat} (h : base % 16 ≠ 0) (pitch n bytes : Nat) :
    rowCheck [(base, pitch, n + 1, bytes)] = .trap .align (some (BitVec.ofNat 64 base)) none := by
  obtain ⟨l, hl⟩ := rowAddrs_succ base pitch n bytes
  have hbad : (base % 16 != 0) = true := by simpa using h
  simp [rowCheck, alignRows, hl, hbad, Check.at_, Check.trap_and]

theorem rowCheck_outside {base pitch n bytes : Nat} (h : base % 16 = 0) (hpitch : 1 < n + 1 → pitch % 16 = 0)
    (hout : 0x200000 < base + bytes) : rowCheck [(base, pitch, n + 1, bytes)] =
      .trap .scratchRange (some (BitVec.ofNat 64 (max base 0x200000))) none := by
  obtain ⟨l, hl⟩ := rowAddrs_succ base pitch n bytes
  have halign : alignRows [(base, pitch, n + 1, bytes)] = .ok := alignRows_ok (by simpa using ⟨h, by simpa using hpitch⟩)
  rw [rowCheck, halign, Check.ok_and]
  simp [rangeRows, hl, scratchSize, hout, Check.at_]

theorem detGang_ok {s : State} (h : s.det = false ∨ s.me.gang = .ganged) : detGang s = .ok := by
  refine need_eq_ok ?_ _
  rcases h with h | h <;> simp [h]

theorem slotFree_ok {s : State} {free : Nat} (h : free ≤ s.cc) : slotFree s free = .ok := need_eq_ok (by simpa using h) _

/-! ### The command -/

theorem startArr_eq (s : State) (f : Nat → Origin → ArrCmd) : s.startArr f = (s.command 2 false).2.onMyTile fun x =>
    { x with arr := x.arr ++ [f x.arrNext (s.origin s.me.seqs.array)], arrNext := x.arrNext + 1 } := rfl

theorem myTile_startArr (s : State) (f : Nat → Origin → ArrCmd) : (s.startArr f).myTile =
    { s.myTile.setStrand s.bun.strand { s.me.issued 2 s.me.seqs.array false with seqs := s.me.seqs.bump 2 } with
      arr := s.myTile.arr ++ [f s.myTile.arrNext (s.origin s.me.seqs.array)], arrNext := s.myTile.arrNext + 1 } := by
  rw [startArr_eq, State.myTile_onMyTile, State.command_snd, State.myTile_onMe]
  rfl

theorem me_startArr (s : State) (f : Nat → Origin → ArrCmd) :
    (s.startArr f).me = { s.me.issued 2 s.me.seqs.array false with seqs := s.me.seqs.bump 2 } := by
  rw [startArr_eq]
  refine (State.me_onMyTile _ _ fun _ => ?_).trans (State.command_me s 2 false)
  rfl

/-- What stands on the agenda once a step is put on it. -/
theorem mem_insertKey {k : Nat} {i : Event} {e : Nat × Event} {l : List (Nat × Event)} :
    e ∈ insertKey k i l ↔ e = (k, i) ∨ e ∈ l := by
  induction l with
  | nil => rw [insertKey, List.mem_singleton]; simp
  | cons c l ih =>
    rw [insertKey]
    split
    · rw [List.mem_cons, ih, List.mem_cons]
      tauto
    · exact List.mem_cons

theorem arrayStarts_sched {s t : State} {c : ArrCmd} {op : ArrOp} {n first : Nat} {beat : Event}
    (h : ArrayStarts s t c op n first beat) (cc slot : Nat) (e : Event) :
    ArrayStarts s (t.sched cc slot e) c op n first beat := by
  obtain ⟨htile, hnum, hbytes, hbeat, hrest⟩ := h
  exact ⟨htile, hnum, hbytes, mem_insertKey.2 (.inr hbeat), hrest⟩

/-- What an array word does to its tile beside its command: it keeps the strands, the bytes and the commands. -/
structure KeepsArr (g : Tile → Tile) : Prop where
  strands : ∀ x, (g x).strands = x.strands
  scratch : ∀ x, (g x).scratch = x.scratch
  arr : ∀ x, (g x).arr = x.arr
  next : ∀ x, (g x).arrNext = x.arrNext

theorem numbers_startArr (s : State) (f : Nat → Origin → ArrCmd) {g : Tile → Tile} (hg : KeepsArr g) :
    Numbers s ((s.startArr f).onMyTile g) 2 false := by
  have hme : ((s.startArr f).onMyTile g).me = { s.me.issued 2 s.me.seqs.array false with seqs := s.me.seqs.bump 2 } :=
    (State.me_onMyTile _ g hg.strands).trans (me_startArr s f)
  have hstrand (k : Nat) (hk : k ≠ s.bun.strand) :
      ((s.startArr f).onMyTile g).strand s.bun.tile k = s.strand s.bun.tile k := by
    have htile : (((s.startArr f).onMyTile g).myTile).strands = (s.startArr f).myTile.strands := by
      rw [State.myTile_onMyTile, hg.strands]
    refine (congrArg (SMap.get (Strand.reset k) · k) (htile.trans (congrArg Tile.strands (myTile_startArr s f)))).trans ?_
    exact SMap.get_put_ne _ _ hk _
  refine ⟨by rw [hme]; rfl, by rw [hme]; rfl, fun e he => ?_, by rw [hme]; rfl, hstrand⟩
  rw [hme]
  unfold Strand.number
  split
  case h_1 => exact absurd rfl he
  all_goals rfl

theorem onlyTileOf_startArr (s : State) (f : Nat → Origin → ArrCmd) (g : Tile → Tile) :
    OnlyTileOf s ((s.startArr f).onMyTile g) s.bun.tile := by
  refine ⟨rfl, fun m hm => ?_⟩
  rw [startArr_eq, State.command_snd]
  simp only [State.onMyTile, State.onMe, State.tile_onTile, State.tile_onStrand, State.onTile_bun, State.onStrand_bun, if_neg hm]

theorem sameBytes_startArr (s : State) (f : Nat → Origin → ArrCmd) {g : Tile → Tile} (hg : KeepsArr g) :
    SameBytes s ((s.startArr f).onMyTile g) := by
  refine sameBytes_trans (sameBytes_trans (sameBytes_onMe s _) (sameBytes_onTile _ _ _ ?_)) (sameBytes_onTile _ _ g hg.scratch)
  exact fun _ => rfl

/-- An array word that sends a command, and whatever else it does to its tile beside its commands, starts it. -/
theorem arrayStarts_startArr (s : State) (f : Nat → Origin → ArrCmd) {g : Tile → Tile} (hg : KeepsArr g) (beat : Event)
    {c : ArrCmd} (hc : c = f s.myTile.arrNext (s.origin s.me.seqs.array)) (hid : c.id = s.myTile.arrNext)
    (horg : c.org = s.origin s.me.seqs.array) (hstart : c.start = s.cc) (hfmt : c.fmt = s.fmtA) :
    ArrayStarts s (((s.startArr f).onMyTile g).sched s.cc slotBeat beat) c c.op c.beats c.first beat := by
  have hmy : (((s.startArr f).onMyTile g).sched s.cc slotBeat beat).myTile = g (s.startArr f).myTile :=
    State.myTile_onMyTile _ g
  refine ⟨onlyTileOf_startArr s f g, numbers_startArr s f hg, sameBytes_startArr s f hg, insertKey_mem .., ?_, ?_, hid, rfl,
    horg, hstart, rfl, rfl, hfmt⟩
  · rw [hmy, hg.arr, myTile_startArr, hc]
  · rw [hmy, hg.next, myTile_startArr]

theorem smap_get_range {α : Type} (d : α) (f : Nat → α) {n k : Nat} (h : k < n) :
    SMap.get d ((List.range n).map fun c => (c, f c)) k = f k := by
  have hget (a m : Nat) (hlo : a ≤ k) (hhi : k < a + m) : SMap.get d ((List.range' a m).map fun c => (c, f c)) k = f k := by
    induction m generalizing a with
    | zero => omega
    | succ m ih =>
      rw [List.range'_succ, List.map_cons, SMap.get]
      split
      · next ha => rw [ha]
      · exact ih (a + 1) (by omega) (by omega)
  rw [List.range_eq_range']
  exact hget 0 n (Nat.zero_le k) (by omega)

/-! ### The four words -/

/-- The command that a WLD puts in flight (R200). -/
def wldCmd (s : State) (n : BitVec 12) (first : BitVec 7) (id : Nat) (o : Origin) : ArrCmd :=
  { ArrCmd.new id .wld o s.cc (beatsOf n) first.toNat s.fmtA with
    addr := lo32 s.arrStg[1], pitch := lo32 s.arrStg[2], idx := hi32 s.arrStg[1]
    cols := (List.range 96).map fun c => (c, (s.myTile.col c).at s.cc), final := s.cc + beatsOf n }
/-- What a WLD does to its tile's slots and banks. -/
def wldSlot (s : State) (n : BitVec 12) (x : Tile) : Tile :=
  { x with wFree := s.cc + beatsOf n, bankS := { x.bankS with fmt := s.fmtA.record } }

/-- The command that a STRM puts in flight (R202). -/
def strmCmd (s : State) (n : BitVec 12) (first : BitVec 8) (id : Nat) (o : Origin) : ArrCmd :=
  { ArrCmd.new id .strm o s.cc (beatsOf n) first.toNat s.fmtA with
    addr := lo32 s.arrStg[3], pitch := hi32 s.arrStg[3], ring := ringOf s.arrStg
    cred := if s.arrStg[5].getLsbD 16 then some (s.arrStg[5].extractLsb' 40 24).toNat else none
    chain := s.myTile.chain, final := s.cc + beatsOf n + strmDelay s.myTile.chain s.bun.tile }
/-- What a STRM does to its tile's slots. -/
def strmSlot (s : State) (n : BitVec 12) (x : Tile) : Tile := { x with sFree := s.cc + beatsOf n }

/-- The command that a DRN puts in flight (R205). -/
def drnCmd (s : State) (n : BitVec 12) (zr : Bool) (o : DrnFmt) (first : BitVec 8) (id : Nat) (g : Origin) : ArrCmd :=
  { ArrCmd.new id (.drn zr o) g s.cc (beatsOf n) first.toNat s.fmtA with
    addr := lo32 s.arrStg[4], pitch := hi32 s.arrStg[4], so := s.myTile.outL.at s.cc, final := s.cc + beatsOf n }
/-- The command that an ACLR puts in flight (R206). -/
def aclrCmd (s : State) (n : BitVec 12) (first : BitVec 8) (id : Nat) (o : Origin) : ArrCmd :=
  { ArrCmd.new id .aclr o s.cc (beatsOf n) first.toNat s.fmtA with final := s.cc + beatsOf n }
/-- What a DRN and an ACLR do to their tile's slots. -/
def drnSlot (s : State) (n : BitVec 12) (x : Tile) : Tile := { x with dFree := s.cc + beatsOf n }

theorem keepsArr_wldSlot (s : State) (n : BitVec 12) : KeepsArr (wldSlot s n) :=
  ⟨fun _ => rfl, fun _ => rfl, fun _ => rfl, fun _ => rfl⟩
theorem keepsArr_strmSlot (s : State) (n : BitVec 12) : KeepsArr (strmSlot s n) :=
  ⟨fun _ => rfl, fun _ => rfl, fun _ => rfl, fun _ => rfl⟩
theorem keepsArr_drnSlot (s : State) (n : BitVec 12) : KeepsArr (drnSlot s n) :=
  ⟨fun _ => rfl, fun _ => rfl, fun _ => rfl, fun _ => rfl⟩

theorem exec_wld {s : State} {n : BitVec 12} (h : wldCheck n s = .ok) (first : BitVec 7) : exec (.wld n first) s =
    .next (((s.startArr (wldCmd s n first)).onMyTile (wldSlot s n)).sched s.cc slotBeat (.wldBeat s.bun.tile 0)) := by
  change execWld n first s = _
  unfold execWld
  exact guarded_ok h

theorem exec_strm {s : State} {n : BitVec 12} (h : strmCheck n s = .ok) (first : BitVec 8) : exec (.strm n first) s =
    .next ((((s.startArr (strmCmd s n first)).onMyTile (strmSlot s n)).sched s.cc slotBeat (.strmBeat s.bun.tile 0)).sched
      (s.cc + beatsOf n + strmDelay s.myTile.chain s.bun.tile) 4 (.strmRowsFinal s.bun.tile s.myTile.arrNext)) := by
  change execStrm n first s = _
  unfold execStrm
  exact guarded_ok h

theorem exec_drn {s : State} {n : BitVec 12} {o : DrnFmt} (h : drnCheck n o s = .ok) (zr : Bool) (first : BitVec 8) :
    exec (.drn n zr o first) s =
    .next ((((s.startArr (drnCmd s n zr o first)).onMyTile (drnSlot s n)).sched s.cc slotBeat (.drnBeat s.bun.tile 0)).sched
      (s.cc + beatsOf n + 8) 4 (.drnOutputFinal s.bun.tile s.myTile.arrNext)) := by
  change execDrn n zr o first s = _
  unfold execDrn
  exact guarded_ok h

theorem exec_aclr {s : State} (h : slotFree s s.myTile.dFree = .ok) (n : BitVec 12) (first : BitVec 8) :
    exec (.aclr n first) s =
    .next (((s.startArr (aclrCmd s n first)).onMyTile (drnSlot s n)).sched s.cc slotBeat (.aclrBeat s.bun.tile 0)) := by
  change execAclr n first s = _
  unfold execAclr
  exact guarded_ok (pre := fun s => slotFree s s.myTile.dFree) h

/-- The tile behind an array word, but for its strands. -/
theorem myTile_startArr_slot (s : State) (f : Nat → Origin → ArrCmd) (g : Tile → Tile) :
    ((s.startArr f).onMyTile g).myTile = g { s.myTile.setStrand s.bun.strand
      { s.me.issued 2 s.me.seqs.array false with seqs := s.me.seqs.bump 2 } with
      arr := s.myTile.arr ++ [f s.myTile.arrNext (s.origin s.me.seqs.array)], arrNext := s.myTile.arrNext + 1 } := by
  rw [State.myTile_onMyTile, myTile_startArr]

theorem wldCheck_ok {s : State} {n : BitVec 12}
    (hpanel : s.det = false ∨ s.me.gang = .ganged) (hfree : s.myTile.wFree ≤ s.cc)
    (hrows : RowsFit (lo32 s.arrStg[1]) (lo32 s.arrStg[2]) (beatsOf n) (masterBytes s.fmtA.record))
    (hidx : s.fmtA.sp ≠ 0 →
      RowsFit (hi32 s.arrStg[1]) (indexBytes s.fmtA.record) (beatsOf n) (indexBytes s.fmtA.record)) :
    wldCheck n s = .ok := by
  have hfit : ∀ r ∈ wldRows s.arrStg s.fmtA.record (beatsOf n), r.Fits := by
    intro r hr
    rw [wldRows] at hr
    rcases List.mem_append.1 hr with h | h
    · rw [List.mem_singleton.1 h]
      exact hrows
    · split at h
      · cases h
      · next hsp =>
        rw [List.mem_singleton.1 h]
        exact hidx hsp
  rw [wldCheck, detGang_ok hpanel, Check.ok_and, rowCheck_ok hfit, Check.ok_and, slotFree_ok hfree]

theorem rowCheck_one {r : RowSet} (h : r.Fits) : rowCheck [r] = .ok :=
  rowCheck_ok fun _ hr => by
    rw [List.mem_singleton.1 hr]
    exact h

end Sys2Proof.Machine
end

section
open Sys2Proof Sys2Proof.Machine

/-- Settles O20: the rows fit, so the checks pass; each word then sends its command and marks its slot, which
`arrayStarts_startArr` says of all four. -/
theorem arrayCommandWords : Obligations.ArrayCommandWords := by
  unfold Obligations.ArrayCommandWords
  intro n f7 f zr o s a beats panel
  refine ⟨fun hpanel hfree hrows hidx => ?wld, fun hpanel hfree hrows => ?strm, fun hfree hrows => ?drn, fun hfree => ?aclr,
    fun hc hbusy => ?busy, fun hc halign => ?misaligned, fun hc halign hout hpitch => ?outside⟩
  case wld =>
    refine ⟨_, _, exec_wld (wldCheck_ok hpanel hfree hrows hidx) f7,
      arrayStarts_startArr s (wldCmd s n f7) (keepsArr_wldSlot s n) _ rfl rfl rfl rfl rfl, rfl, rfl, rfl,
      fun k hk => smap_get_range 0 (fun c => (s.myTile.col c).at s.cc) hk, ?_⟩
    simp only [State.myTile_sched, myTile_startArr_slot]
    exact ⟨rfl, rfl, rfl, rfl, rfl, rfl⟩
  case strm =>
    have hcheck : strmCheck n s = .ok := by
      rw [strmCheck, detGang_ok hpanel, Check.ok_and, strmRows, rowCheck_one hrows, Check.ok_and, slotFree_ok hfree]
    refine ⟨_, _, exec_strm hcheck f, arrayStarts_sched
      (arrayStarts_startArr s (strmCmd s n f) (keepsArr_strmSlot s n) _ rfl rfl rfl rfl rfl) _ _ _,
      rfl, rfl, rfl, rfl, rfl, ?_⟩
    simp only [State.myTile_sched, myTile_startArr_slot]
    refine ⟨rfl, rfl, rfl, rfl, fun hchain => ?_⟩
    have hdelay : strmDelay s.myTile.chain s.bun.tile = 196 := by rw [hchain]; rfl
    rw [hdelay]
    exact ⟨congrArg (s.cc + beatsOf n + ·) hdelay, insertKey_mem ..⟩
  case drn =>
    have hcheck : drnCheck n o s = .ok := by
      rw [drnCheck, drnRows, rowCheck_one hrows, Check.ok_and, slotFree_ok hfree]
    refine ⟨_, _, exec_drn hcheck zr f, arrayStarts_sched
      (arrayStarts_startArr s (drnCmd s n zr o f) (keepsArr_drnSlot s n) _ rfl rfl rfl rfl rfl) _ _ _, rfl, rfl, rfl, ?_⟩
    simp only [State.myTile_sched, myTile_startArr_slot]
    exact ⟨rfl, rfl, rfl, rfl, insertKey_mem ..⟩
  case aclr =>
    refine ⟨_, _, exec_aclr (slotFree_ok hfree) n f,
      arrayStarts_startArr s (aclrCmd s n f) (keepsArr_drnSlot s n) _ rfl rfl rfl rfl rfl, ?_⟩
    simp only [State.myTile_sched, myTile_startArr_slot]
    exact ⟨rfl, rfl, rfl, rfl⟩
  case busy =>
    change execAclr n f s = _
    exact guarded_trap (pre := fun s => slotFree s s.myTile.dFree) hc (need_eq_else (decide_eq_false hbusy.not_ge) _)
  case misaligned =>
    have hcheck : drnCheck n o s = .trap .align (some (BitVec.ofNat 64 (lo32 s.arrStg[4]))) none := by
      rw [drnCheck, drnRows, beatsOf, rowCheck_misaligned halign, Check.trap_and]
    change execDrn n zr o f s = _
    exact guarded_trap hc hcheck
  case outside =>
    have hcheck : drnCheck n o s = .trap .scratchRange (some (BitVec.ofNat 64 (max (lo32 s.arrStg[4]) 0x200000))) none := by
      rw [drnCheck, drnRows, beatsOf, rowCheck_outside halign hpitch hout, Check.trap_and]
    change execDrn n zr o f s = _
    exact guarded_trap hc hcheck
end

section
/-! Class Z, the system words (R323 to R329): what the checks leave, whom STOP names, what SFLT pops. -/
namespace Sys2Proof.Machine

/-! ### Pending writes of one word -/

theorem OnlyMe.trans {s t u : State} (h : OnlyMe s t) (g : OnlyMe t u) : OnlyMe s u := by
  obtain ⟨hst, htiles, hmine, hstrands⟩ := h
  obtain ⟨gst, gtiles, gmine, gstrands⟩ := g
  have hbun : t.bun = s.bun := (congrArg State.bun hst :)
  refine ⟨Eq.trans (congrArg (fun v : State => { v with agenda := s.agenda, tiles := s.tiles }) gst :) hst,
    fun n hn => (gtiles n (hbun ▸ hn)).trans (htiles n hn),
    Eq.trans (congrArg (fun v : Tile => { v with strands := s.myTile.strands }) gmine :) hmine, fun k hk => ?_⟩
  exact Eq.trans (hbun ▸ gstrands k (hbun ▸ hk)) (hstrands k hk)

theorem Quiet.trans {s t u : State} (h : Quiet s t) (g : Quiet t u) : Quiet s u :=
  ⟨h.1.trans g.1, Eq.trans (congrArg (fun v : Strand => { v with board := s.me.board }) g.2 :) h.2⟩

/-- A word that leaves two pending writes at one bound. -/
theorem postsAll_write_write (s : State) (b : Nat) (v w : Write) : PostsAll s ((s.write b v).write b w) b [v, w] := by
  obtain ⟨hquiet, hagenda, hboard⟩ := posts_write s b v
  obtain ⟨gquiet, gagenda, gboard⟩ := posts_write (s.write b v) b w
  have hcc : (s.write b v).cc = s.cc := (congrArg State.cc hquiet.1.1 :)
  have hbun : (s.write b v).bun = s.bun := (congrArg State.bun hquiet.1.1 :)
  refine ⟨hquiet.trans gquiet, ?_, ?_⟩
  · rw [gagenda, hagenda, hcc, hbun]
    rfl
  · rw [gboard, hboard, hcc]
    simp

/-! ### Privilege -/

theorem privileged_ok {s : State} (h : s.me.trap.priv = true) : privileged s = .ok := need_eq_ok h _
theorem privileged_trap {s : State} (h : s.me.trap.priv = false) :
    privileged s = .trap .privileged none none := need_eq_else h _

/-- A check that asks first for privilege refuses unprivileged code. -/
theorem privileged_and {s : State} (h : s.me.trap.priv = false) (b : Unit → Check) :
    (privileged s).and b = .trap .privileged none none := by
  rw [privileged_trap h, Check.trap_and]

/-- R40, R323: unprivileged code may issue no Z word but SRD of WAYPART. -/
theorem exec_unprivileged {s : State} (hc : s.bun.checked = false) (h : s.me.trap.priv = false) (g b : Reg) (r : SysReg)
    (loops deep cnt all : Bool) (kind : StopKind) (mask size : BitVec 5) (sc : Scope) (q : RecQueue) :
    ∀ i ∈ [Instr.swr g r, .tret loops, .tlbi g b cnt all sc, .shot g b size cnt all sc, .csav g, .crst g, .stop g deep kind,
      .slp g mask, .sflt g b q], exec i s = .next (s.trapHere .privileged none none) := by
  have hand := privileged_and h
  have htrans (n : Option Nat) : transCheck g n all s = .trap .privileged none none := by
    unfold transCheck
    exact hand _
  have hregion (f : Unit → Check) : (regionAlign g s).and f = .trap .privileged none none := by
    rw [regionAlign, hand, Check.trap_and]
  intro i hi
  simp only [List.mem_cons, List.not_mem_nil, or_false] at hi
  rcases hi with rfl | rfl | rfl | rfl | rfl | rfl | rfl | rfl | rfl
  · change execSwr g r s = _
    exact guarded_trap hc (privileged_trap h)
  · change execTret loops s = _
    exact guarded_trap hc (hand _)
  · change execTlbi g b cnt all sc s = _
    exact guarded_trap hc (htrans none)
  · change execShot g b size cnt all sc s = _
    exact guarded_trap hc (htrans (some size.toNat))
  · change execCsav g s = _
    exact guarded_trap hc (hregion _)
  · change execCrst g s = _
    exact guarded_trap hc (hregion _)
  · change execStop g deep kind s = _
    exact guarded_trap hc (privileged_trap h)
  · have hslp : slpCheck g mask s = .trap .privileged none none := by
      unfold slpCheck
      exact hand _
    change execSlp g mask s = _
    exact guarded_trap hc hslp
  · change execSflt g b q s = _
    exact guarded_trap hc (hand _)

/-! ### STOP -/

theorem mem_live {x : Tile} {k : Nat} :
    k ∈ x.live ↔ k < 4 ∧ x.unitOn = true ∧ (x.strand k).started = true ∧ (x.strand k).halted = false := by
  have hids : k ∈ strandIds ↔ k < 4 := by
    simp only [strandIds, List.mem_cons, List.not_mem_nil, or_false]
    omega
  rw [Tile.live]
  split
  · next h => simp [h, hids]
  · next h => simp [h]

theorem bits_zero (w : DWord) (n : Nat) : bits w 0 n = w.toNat % 2 ^ n := by
  rw [bits, BitVec.extractLsb'_toNat, Nat.shiftRight_zero]

/-- The strands that STOP names are those of R326. -/
theorem mem_stopTargets {s : State} {kind : StopKind} {w : DWord} {n k : Nat} :
    (n, k) ∈ s.stopTargets kind w ↔ specStops s kind w n k := by
  have hall (t : Nat) : (n, k) ∈ (s.tile t).live.map (fun j => (t, j)) ↔ n = t ∧ k ∈ (s.tile n).live := by
    simp only [List.mem_map, Prod.mk.injEq]
    constructor
    · rintro ⟨j, hj, rfl, rfl⟩
      exact ⟨rfl, hj⟩
    · rintro ⟨rfl, hk⟩
      exact ⟨k, hk, rfl, rfl⟩
  have hlive : k ∈ (s.tile n).live ↔ k < 4 ∧ (s.tile n).unitOn = true ∧ (s.strand n k).started = true ∧
      (s.strand n k).halted = false := mem_live
  cases kind with
  | strand =>
    simp only [State.stopTargets, specStops, List.mem_filter, hall, hlive, bits_zero, beq_iff_eq]
    tauto
  | tile =>
    simp only [State.stopTargets, specStops, hall, hlive, bits_zero]
    tauto
  | launch =>
    simp only [State.stopTargets, specStops, List.mem_flatMap, bits_zero]
    constructor
    · rintro ⟨l, hl, hmem⟩
      split at hmem
      · next hrun =>
        obtain ⟨t, ht, hk⟩ := List.mem_flatMap.1 hmem
        obtain ⟨rfl, hkl⟩ := (hall t).1 hk
        obtain ⟨hk4, hunit, hstarted, hhalted⟩ := hlive.1 hkl
        exact ⟨hk4, hunit, hstarted, hhalted, l, hl, hrun.1, hrun.2, ht⟩
      · cases hmem
    · rintro ⟨hk4, hunit, hstarted, hhalted, l, hl, hid, hphase, ht⟩
      refine ⟨l, hl, ?_⟩
      rw [if_pos ⟨hid, hphase⟩]
      exact List.mem_flatMap.2 ⟨n, ht, (hall n).2 ⟨rfl, hlive.2 ⟨hk4, hunit, hstarted, hhalted⟩⟩⟩

/-- The agenda once the flags of some strands stand on it. -/
def stopAgenda (key : Nat) (deep : Bool) (l : List (Nat × Nat)) (a : List (Nat × Event)) : List (Nat × Event) :=
  l.foldl (fun a p => insertKey key (.stopFlagSet p.1 p.2 deep) a) a

theorem mem_stopAgenda {key : Nat} {deep : Bool} {l : List (Nat × Nat)} {a : List (Nat × Event)} {e : Nat × Event} :
    e ∈ stopAgenda key deep l a ↔ e ∈ a ∨ ∃ p ∈ l, e = (key, .stopFlagSet p.1 p.2 deep) := by
  induction l generalizing a with
  | nil => simp [stopAgenda]
  | cons p l ih =>
    have hcons : stopAgenda key deep (p :: l) a = stopAgenda key deep l (insertKey key (.stopFlagSet p.1 p.2 deep) a) := rfl
    simp only [hcons, ih, mem_insertKey, List.mem_cons, exists_eq_or_imp]
    tauto

theorem foldl_stop (s : State) (deep : Bool) (l : List (Nat × Nat)) :
    l.foldl (fun s p => s.sched (s.dueCc 1024) 14 (.stopFlagSet p.1 p.2 deep)) s =
      { s with agenda := stopAgenda (keyOf (s.dueCc 1024) 14) deep l s.agenda } := by
  induction l generalizing s with
  | nil => rfl
  | cons p l ih =>
    rw [List.foldl_cons, ih]
    rfl

theorem exec_stop {s : State} (h : s.me.trap.priv = true) (g : Reg) (deep : Bool) (kind : StopKind) :
    exec (.stop g deep kind) s = .next { s with
      agenda := stopAgenda (keyOf (s.dueCc 1024) 14) deep (s.stopTargets kind (s.me.readG g)) s.agenda } := by
  rw [← foldl_stop]
  change execStop g deep kind s = _
  unfold execStop
  exact guarded_ok (privileged_ok h)

theorem dueCc_of_slack_nil {s : State} (h : s.slack = []) (b : Nat) : s.dueCc b = s.cc + b := by
  simp [State.dueCc, h]

/-! ### SFLT -/

/-- What SFLT writes to its 64 bytes of scratchpad (R329). -/
def sfltBytes (l : List (List Byte)) : List Byte :=
  match l with
  | [] => List.replicate 64 0
  | bs :: _ => bs ++ List.replicate (64 - bs.length) 0

/-- What SFLT gives in its register (R329). -/
def sfltWord (l : List (List Byte)) (drops : Nat) : DWord :=
  BitVec.ofNat 64 ((if l = [] then 0 else 1) + 2 ^ 32 * (drops % 2 ^ 32))

theorem getD_append_eq_sfltBytes (l : List (List Byte)) :
    (l.head?.getD [] ++ List.replicate (64 - (l.head?.getD []).length) 0 : List Byte) = sfltBytes l := by
  cases l <;> rfl

theorem packLow_eq_sfltWord (l : List (List Byte)) (drops : Nat) :
    BitVec.ofNat 64 (packLow [(1, l.head?.isSome.toNat), (31, 0), (32, drops)]) = sfltWord l drops := by
  rw [sfltWord]
  congr 1
  cases l <;> simp [packLow] <;> omega

/-- R329: SFLT gives the oldest record of the queue that it pops, and leaves the queue without it. -/
theorem exec_sflt {s u : State} {g b : Reg} {q : RecQueue} {l : List (List Byte)} {drops : Nat} (hok : sfltCheck b s = .ok)
    (hpop : s.popQueue s.bun.tile q = (l.head?, drops, u)) (hpairs : u.myTile.pairs = s.myTile.pairs) :
    ∃ t, exec (.sflt g b q) s = .next t ∧ PostsAll u t 64
      [.mem (s.myTile.phys (s.me.readG b).toNat) (sfltBytes l), .g g (sfltWord l drops)] := by
  refine ⟨_, ?_, postsAll_write_write u 64 _ _⟩
  change execSflt g b q s = _
  unfold execSflt
  rw [guarded_ok hok]
  have hphys (a : Nat) : u.myTile.phys a = s.myTile.phys a := by rw [Tile.phys, hpairs, Tile.phys]
  simp only [hpop, hphys, getD_append_eq_sfltBytes, packLow_eq_sfltWord]

theorem sfltCheck_ok {s : State} {b : Reg} (hpriv : s.me.trap.priv = true) (halign : (s.me.readG b).toNat % 64 = 0)
    (hrange : (s.me.readG b).toNat + 64 ≤ 0x200000) : sfltCheck b s = .ok := by
  rw [sfltCheck, privileged_ok hpriv, Check.ok_and, scratchCheck, need_eq_ok (by simpa using halign), Check.ok_and,
    scratchSize, need_eq_ok (decide_eq_true hrange)]

theorem sfltCheck_misaligned {s : State} {b : Reg} (hpriv : s.me.trap.priv = true)
    (halign : (s.me.readG b).toNat % 64 ≠ 0) :
    sfltCheck b s = .trap .align (some (s.me.readG b)) none := by
  rw [sfltCheck, privileged_ok hpriv, Check.ok_and, scratchCheck, need_eq_else (by simpa using halign),
    Check.at_, Check.trap_and]

theorem sfltCheck_outside {s : State} {b : Reg} (hpriv : s.me.trap.priv = true) (halign : (s.me.readG b).toNat % 64 = 0)
    (hrange : 0x200000 < (s.me.readG b).toNat + 64) : sfltCheck b s = .trap .scratchRange (some (s.me.readG b)) none := by
  rw [sfltCheck, privileged_ok hpriv, Check.ok_and, scratchCheck, need_eq_ok (by simpa using halign), Check.ok_and,
    need_eq_else (decide_eq_false (by rw [scratchSize]; omega)), Check.at_]

/-! ### SRD, TRET and SLP -/

theorem exec_srd {s : State} {r : SysReg} (h : srdCheck r s = .ok) (g : Reg) :
    exec (.srd g r) s = .next (s.write 2 (.g g (s.sysRead s.bun.tile s.bun.strand r))) := by
  change execSrd g r s = _
  unfold execSrd
  exact guarded_ok h

theorem srdCheck_ok {s : State} {r : SysReg} (h : s.me.trap.priv = true ∨ r = .waypart) : srdCheck r s = .ok := by
  rw [srdCheck]
  split
  · rfl
  · next hr => exact privileged_ok (h.resolve_right hr)

theorem exec_tret {s : State} (hpriv : s.me.trap.priv = true) (hinh : s.me.trap.inh = true) (loops : Bool) :
    exec (.tret loops) s = .next { s.onMe Strand.leaveHandler with
      bun := { s.bun with target := some s.me.trap.pc, tret := some loops } } := by
  have hok : tretCheck s = .ok := by rw [tretCheck, privileged_ok hpriv, Check.ok_and, need_eq_ok hinh]
  change execTret loops s = _
  unfold execTret
  exact guarded_ok hok

/-- What SLP waits for (R328). -/
def Wakes (s : State) (va : DWord) (mask : BitVec 5) : Prop :=
  va.toNat ≤ s.cc ∨ s.queueReady s.bun.tile mask = true ∨ (mask.getLsbD 4 = true ∧ s.me.trap.pend = true)

theorem wakes_iff (s : State) (va : DWord) (mask : BitVec 5) :
    (decide (va.toNat ≤ s.cc) || s.queueReady s.bun.tile mask || (mask.getLsbD 4 && s.me.trap.pend)) = true ↔
      Wakes s va mask := by
  simp only [Wakes, Bool.or_eq_true, Bool.and_eq_true, decide_eq_true_iff, or_assoc]

theorem slpCheck_eq {s : State} (hpriv : s.me.trap.priv = true) (g : Reg) (mask : BitVec 5) : slpCheck g mask s =
    need (decide ((s.me.readG g).toNat ≤ s.cc) || s.queueReady s.bun.tile mask || (mask.getLsbD 4 && s.me.trap.pend))
      (.block (.sleep (s.me.readG g) mask)) := by
  unfold slpCheck
  rw [privileged_ok hpriv]
  rfl

theorem exec_slp_of_wakes {s : State} {g : Reg} {mask : BitVec 5} (hpriv : s.me.trap.priv = true)
    (h : Wakes s (s.me.readG g) mask) : exec (.slp g mask) s = .next s := by
  have hok : slpCheck g mask s = .ok := by rw [slpCheck_eq hpriv, need_eq_ok ((wakes_iff ..).2 h)]
  change execSlp g mask s = _
  unfold execSlp
  exact guarded_ok hok

theorem exec_slp_of_not_wakes {s : State} {g : Reg} {mask : BitVec 5} (hc : s.bun.checked = false)
    (hpriv : s.me.trap.priv = true) (h : ¬Wakes s (s.me.readG g) mask) :
    exec (.slp g mask) s = .next (s.blockOn (.sleep (s.me.readG g) mask)) := by
  have hblock : slpCheck g mask s = .block (.sleep (s.me.readG g) mask) := by
    rw [slpCheck_eq hpriv, need_eq_else (Bool.eq_false_iff.2 (h ∘ (wakes_iff ..).1))]
  change execSlp g mask s = _
  exact guarded_block hc hblock

/-! ### SWR -/

theorem writeFmt_frame (s : State) (r : SysReg) (w : DWord) : { s.writeFmt r w with tiles := s.tiles } = s := by
  cases r <;> rfl

theorem writeFmt_of_no_format {s : State} {r : SysReg} {w : DWord} (hv : r ≠ .efrv) (ha : r ≠ .efra) :
    s.writeFmt r w = s := by
  cases r
  case efrv => exact absurd rfl hv
  case efra => exact absurd rfl ha
  all_goals rfl

theorem sameBytes_writeFmt (s : State) (r : SysReg) (w : DWord) : SameBytes s (s.writeFmt r w) := by
  by_cases hv : r = .efrv
  · subst hv
    exact sameBytes_onMe s _
  by_cases ha : r = .efra
  · subst ha
    refine sameBytes_onTile s _ _ ?_
    exact fun _ => rfl
  rw [writeFmt_of_no_format hv ha]
  exact sameBytes_refl s

end Sys2Proof.Machine
end

section
open Sys2Proof Sys2Proof.Machine

/-- Settles O40: privilege comes first in each word's checks; STOP's list of strands is R326's, and SFLT pops one queue. -/
theorem systemWords : Obligations.SystemWords := by
  unfold Obligations.SystemWords
  intro g b r loops deep cnt all kind mask size sc q s me va at_
  refine ⟨fun hc hpriv => ⟨fun hr => ?srdTrap, exec_unprivileged hc hpriv g b r loops deep cnt all kind mask size sc q⟩,
    fun h => ⟨_, exec_srd (srdCheck_ok h) g, posts_write ..⟩,
    fun hpriv => ⟨?swr, fun hc hinh => ?tretTrap, fun hinh => ?tret, ?stop, ?slp, fun hc => ⟨fun halign => ?sfltAlign,
      fun halign hrange => ?sfltRange⟩, fun halign hrange => ?sflt⟩⟩
  case srdTrap =>
    have hcheck : srdCheck r s = .trap .privileged none none := by rw [srdCheck, if_neg hr, privileged_trap hpriv]
    change execSrd g r s = _
    exact guarded_trap hc hcheck
  case swr =>
    refine ⟨_, exec_swr hpriv g r, ?_, sameBytes_writeFmt s r va, insertKey_mem .., fun hv ha => ?_⟩
    · exact congrArg (fun u : State => { u with agenda := s.agenda }) (writeFmt_frame s r va)
    · exact (congrArg State.tiles (writeFmt_of_no_format (s := s) (w := va) hv ha) :)
  case tretTrap =>
    have hcheck : tretCheck s = .trap .illegal none none := by
      rw [tretCheck, privileged_ok hpriv, Check.ok_and, need_eq_else hinh]
      rfl
    change execTret loops s = _
    exact guarded_trap hc hcheck
  case tret => exact ⟨_, exec_tret hpriv hinh loops, ⟨onlyMe_onMe s _, rfl, State.me_onMe s _⟩, rfl⟩
  case stop =>
    refine ⟨_, exec_stop hpriv g deep kind, rfl, fun n k hstops hslack => ?_, fun e he hnew => ?_⟩
    · rw [← dueCc_of_slack_nil hslack]
      exact mem_stopAgenda.2 (.inr ⟨(n, k), mem_stopTargets.2 hstops, rfl⟩)
    · obtain ⟨⟨n, k⟩, hmem, rfl⟩ := (mem_stopAgenda.1 he).resolve_left hnew
      exact ⟨n, k, mem_stopTargets.1 hmem, rfl, keyOf_mono (dueCc_le s 1024) 14⟩
  case slp => exact ⟨exec_slp_of_wakes hpriv, fun hc => exec_slp_of_not_wakes hc hpriv⟩
  case sfltAlign =>
    change execSflt g b q s = _
    exact guarded_trap hc (sfltCheck_misaligned hpriv halign)
  case sfltRange =>
    change execSflt g b q s = _
    exact guarded_trap hc (sfltCheck_outside hpriv halign hrange)
  case sflt =>
    intro x pop
    have hok := sfltCheck_ok hpriv halign hrange
    refine ⟨?_, ?_, ?_, ?_⟩ <;> rintro rfl
    · exact exec_sflt hok rfl rfl
    · exact exec_sflt hok rfl rfl
    · exact exec_sflt hok rfl rfl
    · refine exec_sflt hok ?_ ?_
      · rw [List.head?_map]
        rfl
      · have htile := State.myTile_onMyTile s fun y => { y with rfq := y.rfq.tail, rfDrop := 0 }
        exact (congrArg Tile.pairs htile :)
end

section
/-! The state after reset (O60): a register reads alike on every tile and strand, but for TRAPREC. -/
namespace Sys2Proof.Machine

theorem canonical_reset : Canonical State.reset := by
  have hnone {α : Type} {P : α → Prop} : ∀ e ∈ ([] : List α), P e := fun _ h => absurd h List.not_mem_nil
  have hmhz : (1100 : Nat) ∈ specSteps7 := by decide
  exact ⟨hnone, hnone, hnone, hnone, hmhz, fun _ h => absurd h (Option.some_ne_none _).symm, hnone⟩

/-- What registers reset to (Tables NUM-8, NUM-9, FAB-2, FAB-11, MEM-2, MEM-5, SCH-4 and TRP-8). -/
def resetValues : List (SysReg × DWord) :=
  [(.schedmode, 0), (.efrv, 0x5000), (.efra, 0x198000), (.loop0se, 0), (.loop0ct, 0), (.loop1se, 0), (.loop1ct, 0), (.trapst, 0),
    (.trappc, 0), (.trapvec, 0), (.stopflag, 0), (.savearea, 0), (.waypart, 0x1010), (.ptroot, 0), (.migthr, 0),
    (.agelimit, 2048), (.rfctr, 0), (.mlrjoin, 65536), (.ctrarea, 0), (.memgov, 0x0008010000100401), (.savepool, 0),
    (.bundlelimit, 4096), (.stopwin, 65536), (.readymap, 2)]

/-- Reset lists no tile, strand, cluster or die, so that each of them is the default one. -/
theorem sysRead_reset_eq {r : SysReg} (hr : r ≠ .traprec) (n k : Nat) :
    State.reset.sysRead n k r = State.reset.sysRead 0 0 r := by
  cases r
  case traprec => exact absurd rfl hr
  all_goals rfl

theorem sysRead_reset {p : SysReg × DWord} (hp : p ∈ resetValues) (n k : Nat) : State.reset.sysRead n k p.1 = p.2 := by
  have hvalues : ∀ p ∈ resetValues, p.1 ≠ .traprec ∧ State.reset.sysRead 0 0 p.1 = p.2 := by decide +kernel
  obtain ⟨hne, hvalue⟩ := hvalues p hp
  exact (sysRead_reset_eq hne n k).trans hvalue

theorem traprec_reset (n : Nat) {k : Nat} (hk : k < 4) : (State.reset.sysRead n k .traprec).toNat = 0x1FFF00 + 64 * k := by
  have harea : State.reset.sysRead n k .traprec = BitVec.ofNat 64 (0x1FFF00 + 64 * k) := rfl
  rw [harea, BitVec.toNat_ofNat]
  omega

theorem qcfg_reset (n k : Nat) (q : BitVec 4) : State.reset.sysRead n k (.qcfg q) = 0 := by
  have hword : State.reset.sysRead n k (.qcfg q) = QCfg.word (SMap.get QCfg.reset [] q.toNat) := rfl
  rw [hword, SMap.get]
  decide

end Sys2Proof.Machine
end

section
open Sys2Proof Sys2Proof.Machine

/-- Settles O60: reset lists nothing, so every tile and strand reads its registers as the first does, and those are evaluated. -/
theorem resetState : Obligations.ResetState := by
  unfold Obligations.ResetState
  intro s
  refine ⟨canonical_reset, rfl, rfl, rfl, by decide, rfl, by decide +kernel, by decide +kernel, fun n k hk => ?_⟩
  exact ⟨fun _ => rfl, rfl, fun p hp => sysRead_reset hp n k, traprec_reset n hk, qcfg_reset n k⟩
end

section
/-! Format, banks, chaining, status and scale latches of the array (O19; R71, R195, R199, R201, R207 to R209). -/
namespace Sys2Proof.Machine

/-- A change of the executing tile outside its strands. -/
theorem onlyTilePart_onMyTile (s : State) {f : Tile → Tile} (hf : ∀ x, (f x).strands = x.strands) :
    OnlyTilePart s (s.onMyTile f) s.bun.tile := by
  refine ⟨⟨rfl, fun m hm => ?_⟩, fun k => ?_⟩
  · rw [State.onMyTile_def, State.tile_onTile, if_neg hm]
  · rw [State.onMyTile_def, State.strand_onTile, if_pos rfl]
    exact congrArg (SMap.get (Strand.reset k) · k) (hf _)

/-! ### The format -/

theorem exec_afmt {s : State} {aw as_ ww ws : Bool} {af wf nsub sp : BitVec 2} (h : s.det = false ∨ sp = 0) :
    exec (.afmt aw af as_ ww wf ws nsub sp) s = .next (s.setFmtA ⟨aw, af, as_, ww, wf, ws, nsub, sp⟩) := by
  have hok : afmtCheck sp s = .ok := need_eq_ok (by rcases h with h | h <;> simp [h]) _
  change execAfmt aw af as_ ww wf ws nsub sp s = _
  unfold execAfmt
  exact guarded_ok hok

theorem myTile_setFmtA (s : State) (f : FmtA) : (s.setFmtA f).myTile =
    { s.myTile with fmtALog := s.myTile.fmtALog ++ [⟨s.bun.strand, s.me.bundles + 3, s.cc + 3, f⟩] } :=
  State.myTile_onMyTile ..

/-- R71: who sees the last write of a log has its format; who does not has what the log before it gives. -/
theorem Tile.fmt_of_log_append {y : Tile} {l : List FmtAWrite} {e : FmtAWrite} (h : y.fmtALog = l ++ [e]) (k cc : Nat) :
    y.fmt k cc = if y.sees k cc e then e.fmt else ({ y with fmtALog := l } : Tile).fmt k cc := by
  rw [Tile.fmt, h, List.foldl_append]
  rfl

/-! ### Slots -/

theorem slotFree_trap {s : State} {free : Nat} (h : s.cc < free) : slotFree s free = .trap .schedule none none :=
  need_eq_else (decide_eq_false h.not_ge) _

theorem aswpCheck_trap {s : State} (h : s.cc < s.myTile.wFree ∨ s.cc < s.myTile.sFree) :
    aswpCheck s = .trap .schedule none none := by
  by_cases hw : s.cc < s.myTile.wFree
  · rw [aswpCheck, slotFree_trap hw, Check.trap_and]
  · rw [aswpCheck, slotFree_ok (Nat.le_of_not_lt hw), Check.ok_and, slotFree_trap (h.resolve_left hw)]

theorem exec_aswp {s : State} (hw : s.myTile.wFree ≤ s.cc) (hs : s.myTile.sFree ≤ s.cc) :
    exec .aswp s = .next (s.onMyTile fun x => { x with bankA := x.bankS, bankS := x.bankA, wFree := s.cc + 1 }) := by
  have hok : aswpCheck s = .ok := by rw [aswpCheck, slotFree_ok hw, Check.ok_and, slotFree_ok hs]
  change execAswp s = _
  unfold execAswp
  exact guarded_ok hok

theorem agngCheck_of_gang {s : State} {ch : Bool} (h : ch = true → s.me.gang = .ganged) :
    agngCheck ch s = slotFree s s.myTile.sFree := by
  have hgang : (!ch || s.me.gang == .ganged) = true := by cases ch <;> simp_all
  rw [agngCheck, need_eq_ok hgang, Check.ok_and]

theorem exec_agng {s : State} {ch : Bool} (hs : s.myTile.sFree ≤ s.cc) (h : ch = true → s.me.gang = .ganged) :
    exec (.agng ch) s = .next (s.onMyTile fun x => { x with chain := ch }) := by
  have hok : agngCheck ch s = .ok := by rw [agngCheck_of_gang h, slotFree_ok hs]
  change execAgng ch s = _
  unfold execAgng
  exact guarded_ok hok

/-! ### The status -/

/-- One bit of a register that is packed from its fields. -/
theorem getLsbD_packLow {l : List (Nat × Nat)} (i : Nat) {lo : Nat} {b : Bool} (hi : l[i]? = some (1, b.toNat))
    (hlo : ((l.take i).map (·.1)).sum = lo) (hle : lo + 1 ≤ 64) : (BitVec.ofNat 64 (packLow l)).getLsbD lo = b := by
  have hbit := congrArg (·.getLsbD 0) (extract_packLow i hi hlo hle)
  cases b <;> simpa using hbit

theorem ofNat_recordBits (r : BankRec) : BitVec.ofNat 6 r.bits =
    ((BitVec.ofBool r.ww ++ r.wf) ++ (BitVec.ofBool r.ws ++ r.sp) : BitVec 6) := by
  obtain ⟨ww, wf, ws, sp⟩ := r
  revert ww wf ws sp
  decide +kernel

/-- The fields of the array status (Table ARR-5). -/
theorem arrStatus_fields (x : Tile) (cc : Nat) : let v := arrStatus x cc
    v.extractLsb' 32 32 = x.arrDone ∧ v.getLsbD 23 = x.chain ∧ v.getLsbD 8 = decide (cc < x.wFree) ∧
    v.getLsbD 7 = decide (cc < x.sFree) ∧ v.getLsbD 6 = decide (cc < x.dFree) ∧ v.getLsbD 2 = x.flagsA.cl ∧
    v.getLsbD 1 = x.flagsA.ov ∧ v.getLsbD 0 = x.flagsA.nv ∧ v.extractLsb' 16 6 = ((BitVec.ofBool x.bankA.fmt.ww ++
      x.bankA.fmt.wf) ++ (BitVec.ofBool x.bankA.fmt.ws ++ x.bankA.fmt.sp) : BitVec 6) := by
  have hdone : BitVec.ofNat 32 x.arrDone.toNat = x.arrDone := by rw [BitVec.ofNat_toNat, BitVec.setWidth_eq]
  unfold arrStatus
  refine ⟨(extract_packLow (lo := 32) 13 rfl rfl (by decide)).trans hdone, getLsbD_packLow 11 rfl rfl (by decide),
    getLsbD_packLow 6 rfl rfl (by decide), getLsbD_packLow 5 rfl rfl (by decide), getLsbD_packLow 4 rfl rfl (by decide),
    getLsbD_packLow 2 rfl rfl (by decide), getLsbD_packLow 1 rfl rfl (by decide), getLsbD_packLow 0 rfl rfl (by decide),
    (extract_packLow (lo := 16) 9 rfl rfl (by decide)).trans (ofNat_recordBits _)⟩

/-! ### Latches -/

/-- A latch has taken a value: the row that enters three cc from now uses it, and what samples the latch now does not (R195). -/
def Latch.Takes (cc : Nat) (l l' : Latch) (v : Word) : Prop :=
  l'.last = v ∧ (∀ c, cc + 3 ≤ c → l'.at c = v) ∧ l'.at cc = l.at cc

theorem Latch.at_set (l : Latch) (now eff : Nat) (v : Word) (c : Nat) : (l.set now eff v).at c = if eff ≤ c then v else
    (l.log.filter fun w => now < w.1).foldl (fun a w => if w.1 ≤ c then w.2 else a) (l.at now) := by
  rw [Latch.at, Latch.set, List.foldl_append]
  rfl

theorem Latch.takes_set (l : Latch) (cc : Nat) (v : Word) : l.Takes cc (l.set cc (cc + 3) v) v := by
  refine ⟨by simp [Latch.last, Latch.set], fun c hc => by rw [Latch.at_set, if_pos hc], ?_⟩
  rw [Latch.at_set, if_neg (by omega), List.foldl_filter]
  refine List.foldl_fixed' (fun w => ?_) _
  split
  · next hw => exact if_neg (Nat.not_le.2 (of_decide_eq_true hw))
  · rfl

theorem Latch.takes_zero (cc : Nat) : Latch.zero.Takes cc Latch.zero 0 := ⟨rfl, fun _ _ => rfl, rfl⟩

/-- What relates each value of a map to its image, and the default to itself, relates what the two maps read. -/
theorem get_map_related {α : Type} {R : α → α → Prop} {g : α → α} {d : α} (hg : ∀ x, R x (g x)) (hd : R d d) (m : SMap α)
    (k : Nat) : R (SMap.get d m k) (SMap.get d (m.map fun e => (e.1, g e.2)) k) := by
  induction m with
  | nil => exact hd
  | cons e m ih =>
    simp only [List.map_cons, SMap.get]
    split
    · exact hg e.2
    · exact ih

/-- One change at each of several keys. -/
theorem get_foldl_put {α : Type} (d : α) (g : α → α) {l : List Nat} (hl : l.Nodup) (m : SMap α) (n : Nat) :
    SMap.get d (l.foldl (fun m c => SMap.put m c (g (SMap.get d m c))) m) n =
      if n ∈ l then g (SMap.get d m n) else SMap.get d m n := by
  induction l generalizing m with
  | nil => rfl
  | cons c l ih =>
    obtain ⟨hc, hl⟩ := List.nodup_cons.1 hl
    rw [List.foldl_cons, ih hl, SMap.get_put]
    by_cases h : n = c
    · subst h; simp [hc]
    · simp [h]

theorem nodup_kswCols (c : BitVec 7) : (kswCols c).Nodup := by
  rw [kswCols]
  split
  · exact List.nodup_range
  · exact List.nodup_singleton _

theorem mem_kswCols {c : BitVec 7} {n : Nat} (hn : n < 96) : n ∈ kswCols c ↔ c = 127 ∨ c.toNat = n := by
  rw [kswCols]
  split
  · next h => simp [h, hn]
  · next h => rw [List.mem_singleton, or_iff_right h, eq_comm]

/-- The column latches after a KSW (R209). -/
theorem col_ksw {x y : Tile} {c : BitVec 7} {cc : Nat} {v : Word}
    (h : y.colL = (kswCols c).foldl (fun m c => SMap.put m c ((SMap.get Latch.zero m c).set cc (cc + 3) v)) x.colL)
    {n : Nat} (hn : n < 96) :
    if c = 127 ∨ c.toNat = n then (x.col n).Takes cc (y.col n) v else y.col n = x.col n := by
  have hcol : y.col n = if c = 127 ∨ c.toNat = n then (x.col n).set cc (cc + 3) v else x.col n := by
    rw [Tile.col, h, get_foldl_put Latch.zero (fun l => l.set cc (cc + 3) v) (nodup_kswCols c)]
    simp only [mem_kswCols hn]
    rfl
  split
  · next hnamed =>
    rw [hcol, if_pos hnamed]
    exact Latch.takes_set ..
  · next hother => rw [hcol, if_neg hother]

end Sys2Proof.Machine
end

section
open Sys2Proof Sys2Proof.Machine

/-- Settles O19: a check that passes leaves the change of the tile that the word names; the log of formats, the slots, the
fields of the status and the latches then read by the laws above. -/
theorem arrayRegisters : Obligations.ArrayRegisters := by
  unfold Obligations.ArrayRegisters
  refine ⟨fun aw sg ww ws ch clr af wf ns sp s => ⟨fun h => ?afmt, fun hw hs => ?aswp, fun hc hbusy => ?aswpTrap,
    fun hs hgang => ?agng, fun hc hgang => ?agngGang, fun hc hbusy => ?agngBusy, ?asta⟩, ?latches⟩
  case afmt =>
    refine ⟨_, exec_afmt h, onlyTilePart_onMyTile s fun _ => rfl, ?_, fun y k cc hlog => ?_⟩
    · rw [myTile_setFmtA]
    · rw [myTile_setFmtA] at hlog
      rw [Tile.fmt_of_log_append hlog]
      simp only [Tile.sees, eq_comm (a := k)]
  case aswp =>
    refine ⟨_, exec_aswp hw hs, onlyTilePart_onMyTile s fun _ => rfl, ?_⟩
    rw [State.myTile_onMyTile]
  case aswpTrap =>
    change execAswp s = _
    exact guarded_trap hc (aswpCheck_trap hbusy)
  case agng =>
    refine ⟨_, exec_agng hs hgang, onlyTilePart_onMyTile s fun _ => rfl, ?_⟩
    rw [State.myTile_onMyTile]
  case agngGang =>
    have hcheck : agngCheck true s = .trap .gangState none none := by
      rw [agngCheck, need_eq_else (by simpa using hgang)]
      rfl
    change execAgng true s = _
    exact guarded_trap hc hcheck
  case agngBusy =>
    have hcheck : agngCheck false s = .trap .schedule none none := by
      rw [agngCheck_of_gang (fun h => absurd h Bool.false_ne_true), slotFree_trap hbusy]
    change execAgng false s = _
    exact guarded_trap hc hcheck
  case asta =>
    refine ⟨_, arrStatus s.myTile s.cc, rfl, ⟨_, posts_write .., rfl⟩, ?_⟩
    exact arrStatus_fields s.myTile s.cc
  case latches =>
    intro a i j c ext s takes
    refine ⟨?ksa, ?kso, ?ksw, ?kclr⟩
    case ksa =>
      refine ⟨_, rfl, onlyTilePart_onMyTile s fun _ => rfl, ?_⟩
      rw [State.myTile_onMyTile]
      exact ⟨rfl, Latch.takes_set ..⟩
    case kso =>
      refine ⟨_, rfl, onlyTilePart_onMyTile s fun _ => rfl, ?_⟩
      rw [State.myTile_onMyTile]
      exact ⟨rfl, Latch.takes_set ..⟩
    case ksw =>
      refine ⟨_, rfl, onlyTilePart_onMyTile s fun _ => rfl, ?_⟩
      rw [State.myTile_onMyTile]
      exact ⟨rfl, fun n hn => col_ksw rfl hn⟩
    case kclr =>
      refine ⟨_, rfl, onlyTilePart_onMyTile s fun _ => rfl, ?_⟩
      rw [State.myTile_onMyTile]
      exact ⟨rfl, Latch.takes_set .., Latch.takes_set .., get_map_related (R := fun l l' => l.Takes s.cc l' 0)
        (fun l => Latch.takes_set l s.cc 0) (Latch.takes_zero s.cc) s.myTile.colL⟩
end

section
/-! Rounding into floating point (R50): a magnitude that is held as bits, an exponent and a sticky mark, rounded in each mode. -/
namespace Sys2Proof.Machine

/-! ### Signs -/

/-- A magnitude with a sign. -/
def withSign (neg : Bool) (z : ℝ) : ℝ := if neg then -z else z

@[simp] theorem withSign_true (z : ℝ) : withSign true z = -z := rfl
@[simp] theorem withSign_false (z : ℝ) : withSign false z = z := rfl
theorem abs_withSign (neg : Bool) (z : ℝ) : |withSign neg z| = |z| := by cases neg <;> simp
theorem withSign_div (neg : Bool) (z w : ℝ) : withSign neg z / w = withSign neg (z / w) := by cases neg <;> simp [neg_div]
theorem withSign_mul (neg : Bool) (z w : ℝ) : withSign neg z * w = withSign neg (z * w) := by cases neg <;> simp
theorem withSign_inj {neg : Bool} {z w : ℝ} : withSign neg z = withSign neg w ↔ z = w := by cases neg <;> simp
theorem withSign_neg_iff {neg : Bool} {z : ℝ} (hz : 0 < z) : withSign neg z < 0 ↔ neg = true := by
  cases neg
  · simpa using hz.le
  · simpa using hz
theorem withSign_pos_iff {neg : Bool} {z : ℝ} (hz : 0 < z) : 0 < withSign neg z ↔ neg = false := by
  cases neg
  · simpa using hz
  · simpa using hz.le
theorem withSign_sub (neg : Bool) (z w : ℝ) : withSign neg z - withSign neg w = withSign neg (z - w) := by
  cases neg
  · rfl
  · simp only [withSign_true]
    ring
theorem cast_signed (neg : Bool) (n : Nat) : ((signed neg n : ℤ) : ℝ) = withSign neg n := by cases neg <;> simp [signed]

theorem even_signed {neg : Bool} {n : Nat} : Even (signed neg n) ↔ Even n := by cases neg <;> simp [signed]

/-! ### Rounding to an integer -/

/-- Whether a mode takes the larger of the two integers beside a magnitude z, whose floor is n (R50, R63). -/
def RoundsUp (rm : Rnd) (neg : Bool) (z : ℝ) (n : Nat) : Prop :=
  match rm with
  | .rne => 1 / 2 < z - n ∨ (z - n = 1 / 2 ∧ n % 2 = 1)
  | .rtz => False
  | .rdn => neg = true ∧ z ≠ n
  | .rup => neg = false ∧ z ≠ n

theorem ceil_of_floor {up : Bool} {z : ℝ} {n : Nat} (hlo : (n : ℝ) ≤ z) (hhi : z < n + 1) (hup : up = true ↔ z ≠ n) :
    z ≤ (if up then n + 1 else n : Nat) ∧ ((if up then n + 1 else n : Nat) : ℝ) < z + 1 := by
  cases up with
  | true =>
    have hlt : (n : ℝ) < z := lt_of_le_of_ne hlo (hup.1 rfl).symm
    rw [if_pos rfl, Nat.cast_add_one]
    exact ⟨hhi.le, by linarith⟩
  | false =>
    have heq : z = n := not_not.1 (mt hup.2 Bool.false_ne_true)
    rw [if_neg Bool.false_ne_true]
    exact ⟨heq.le, by linarith⟩

theorem roundsTo_of_floor {rm : Rnd} {neg up : Bool} {z : ℝ} {n : Nat} (hlo : (n : ℝ) ≤ z) (hhi : z < n + 1)
    (hup : up = true ↔ RoundsUp rm neg z n) : RoundsTo rm (withSign neg z) (signed neg (if up then n + 1 else n)) := by
  have hn : (0 : ℝ) ≤ n := n.cast_nonneg
  cases rm with
  | rne =>
    simp only [RoundsUp] at hup
    simp only [RoundsTo, cast_signed, withSign_sub, abs_withSign, even_signed, abs_le]
    cases up with
    | true =>
      have hz : 1 / 2 ≤ z - n := by
        rcases hup.1 rfl with h | h
        · exact h.le
        · exact h.1.ge
      rw [if_pos rfl, Nat.cast_add_one]
      refine ⟨⟨by linarith, by linarith⟩, fun heq => ?_⟩
      rw [abs_of_nonpos (by linarith)] at heq
      have hodd : n % 2 = 1 := ((hup.1 rfl).resolve_left (by linarith)).2
      exact Nat.even_iff.2 (by omega)
    | false =>
      obtain ⟨hle, heven⟩ := not_or.1 (mt hup.2 Bool.false_ne_true)
      rw [if_neg Bool.false_ne_true]
      refine ⟨⟨by linarith, by linarith⟩, fun heq => ?_⟩
      rw [abs_of_nonneg (by linarith)] at heq
      exact Nat.not_odd_iff_even.1 fun hodd => heven ⟨heq, Nat.odd_iff.1 hodd⟩
  | rtz =>
    obtain rfl : up = false := Bool.eq_false_iff.2 fun h => hup.1 h
    simp only [RoundsTo, cast_signed, abs_withSign, if_neg Bool.false_ne_true, abs_of_nonneg hn, abs_of_nonneg (hn.trans hlo)]
    refine ⟨hlo, hhi, ?_⟩
    cases neg
    · exact mul_nonneg (hn.trans hlo) hn
    · simpa using mul_nonneg (hn.trans hlo) hn
  | rdn =>
    simp only [RoundsTo, cast_signed]
    cases neg with
    | false =>
      obtain rfl : up = false := Bool.eq_false_iff.2 fun h => Bool.false_ne_true (hup.1 h).1
      exact ⟨hlo, hhi⟩
    | true =>
      obtain ⟨hle, hlt⟩ := ceil_of_floor hlo hhi (hup.trans (and_iff_right rfl))
      simp only [withSign_true]
      exact ⟨by linarith, by linarith⟩
  | rup =>
    simp only [RoundsTo, cast_signed]
    cases neg with
    | false => exact ceil_of_floor hlo hhi (hup.trans (and_iff_right rfl))
    | true =>
      obtain rfl : up = false := Bool.eq_false_iff.2 fun h => Bool.false_ne_true (hup.1 h).1.symm
      simp only [withSign_true, if_neg Bool.false_ne_true]
      exact ⟨by linarith, by linarith⟩

/-! ### Magnitudes -/

/-- y is m * 2^e, or lies above it by less than 2^e, as the sticky mark says. -/
structure IsMag (y : ℝ) (m : Nat) (e : ℤ) (sticky : Bool) : Prop where
  lo : m * 2 ^ e ≤ y
  hi : y < (m + 1) * 2 ^ e
  sticky_iff : sticky = true ↔ y ≠ m * 2 ^ e

section
variable {z δ : ℝ} {n rem sh : Nat} (hz : z = n + (rem + δ) / 2 ^ (sh + 1)) (h0 : 0 ≤ δ) (h1 : δ < 1)
  {sticky : Bool} (hsticky : sticky = true ↔ δ ≠ 0)
include hz h0 hsticky

theorem ne_floor_iff : z ≠ n ↔ (rem != 0 || sticky) = true := by
  have hsum : z = n ↔ (rem : ℝ) + δ = 0 := by
    rw [hz, add_eq_left, div_eq_zero_iff, or_iff_left (by positivity)]
  rw [Ne, hsum, add_eq_zero_iff_of_nonneg rem.cast_nonneg h0, Bool.or_eq_true, hsticky, bne_iff_ne, Nat.cast_eq_zero]
  tauto

include h1

/-- Where a magnitude lies between two neighbours that are 2^(sh+1) units apart, of which it stands rem above the lower one. -/
theorem roundsUp_iff (rm : Rnd) (neg : Bool) :
    roundsUp rm neg (n % 2 == 1) rem (2 ^ sh) sticky = true ↔ RoundsUp rm neg z n := by
  have hne := ne_floor_iff hz h0 hsticky
  cases rm with
  | rne =>
    have hpow : (0 : ℝ) < 2 ^ sh := by positivity
    have hfrac : (z - n) * 2 * 2 ^ sh = rem + δ := by rw [hz, pow_succ]; field_simp; ring
    have hgt : 1 / 2 < z - n ↔ (2 : ℝ) ^ sh < rem + δ := by
      rw [← hfrac, lt_mul_iff_one_lt_left hpow, div_lt_iff₀ two_pos]
    have heq : z - n = 1 / 2 ↔ rem + δ = (2 : ℝ) ^ sh := by
      rw [← hfrac, mul_eq_right₀ hpow.ne', eq_div_iff two_ne_zero]
    simp only [roundsUp, RoundsUp, hgt, heq, Bool.or_eq_true, Bool.and_eq_true, decide_eq_true_iff, beq_iff_eq, hsticky]
    rcases lt_trichotomy rem (2 ^ sh) with hlt | rfl | hgt
    · have hreal : (rem : ℝ) + 1 ≤ 2 ^ sh := by exact_mod_cast hlt
      have hlt' : (rem : ℝ) + δ < 2 ^ sh := by linarith
      simp [hlt.not_gt, hlt.ne, hlt'.not_gt, hlt'.ne]
    · push_cast
      rw [add_eq_left, lt_add_iff_pos_right, h0.lt_iff_ne', lt_self_iff_false]
      tauto
    · have hreal : (2 : ℝ) ^ sh < rem := by exact_mod_cast hgt
      simp [hgt, hreal.trans_le (le_add_of_nonneg_right h0)]
  | rtz => simp [roundsUp, RoundsUp]
  | rdn => simp only [roundsUp, RoundsUp, hne, Bool.and_eq_true]
  | rup => simp only [roundsUp, RoundsUp, hne, Bool.and_eq_true, Bool.not_eq_true']

end

theorem not_roundsUp_self (rm : Rnd) (neg : Bool) (n : Nat) : ¬RoundsUp rm neg n n := by cases rm <;> simp [RoundsUp]

theorem two_zpow_sub {q e : ℤ} (h : q ≤ e) : (2 : ℝ) ^ e = 2 ^ (e - q).toNat * 2 ^ q := by
  rw [← zpow_natCast, Int.toNat_of_nonneg (sub_nonneg.2 h), ← zpow_add₀ two_ne_zero, sub_add_cancel]

/-- A pair is a magnitude z rounded to an integer, and whether that is inexact: the floor of z, or the integer above it. -/
def RoundedMag (rm : Rnd) (neg : Bool) (z : ℝ) (r : Nat × Bool) : Prop :=
  ∃ (n : Nat) (up : Bool), (n : ℝ) ≤ z ∧ z < n + 1 ∧ (up = true ↔ RoundsUp rm neg z n) ∧
    r = (if up then n + 1 else n, decide (z ≠ n))

theorem RoundedMag.spec {rm : Rnd} {neg : Bool} {z : ℝ} {r : Nat × Bool} (h : RoundedMag rm neg z r) :
    RoundsTo rm (withSign neg z) (signed neg r.1) ∧ (r.2 = true ↔ (r.1 : ℝ) ≠ z) ∧
      (∀ a : Nat, (a : ℝ) ≤ z → a ≤ r.1) ∧ ∀ b : Nat, z < b → r.1 ≤ b := by
  obtain ⟨n, up, hlo, hhi, hup, rfl⟩ := h
  refine ⟨roundsTo_of_floor hlo hhi hup, ?_, fun a ha => ?_, fun b hb => ?_⟩
  · rw [decide_eq_true_iff]
    refine not_congr ⟨fun hn => ?_, fun hr => ?_⟩
    · rw [hn] at hup
      rw [if_neg fun h => not_roundsUp_self rm neg n (hup.1 h), hn]
    · split at hr
      · rw [← hr, Nat.cast_add_one] at hhi
        exact absurd hhi (lt_irrefl _)
      · exact hr.symm
  · have : a < n + 1 := by exact_mod_cast ha.trans_lt hhi
    split <;> omega
  · have : n < b := by exact_mod_cast hlo.trans_lt hb
    split <;> omega

section
variable {y : ℝ} {m : Nat} {e q : ℤ}

/-- A magnitude that is a multiple of 2^q stays. -/
theorem roundAt_multiple (hq : q ≤ e) (rm : Rnd) (neg : Bool) :
    RoundedMag rm neg (m * 2 ^ e / 2 ^ q) (roundAt rm neg m e q false) := by
  have hz : (m : ℝ) * 2 ^ e / 2 ^ q = (m * 2 ^ (e - q).toNat : Nat) := by
    rw [two_zpow_sub hq, ← mul_assoc, mul_div_cancel_right₀ _ (by positivity)]
    push_cast
    rfl
  rw [roundAt, if_pos hq, hz]
  exact ⟨m * 2 ^ (e - q).toNat, false, le_rfl, lt_add_one _, iff_of_false Bool.false_ne_true (not_roundsUp_self rm neg _),
    by rw [decide_eq_false (not_not.2 rfl)]; rfl⟩

/-- Any other loses its bits below 2^q; what lies above its last bit is below that. -/
theorem roundAt_shifted {sticky : Bool} (h : IsMag y m e sticky) (hq : e < q) (rm : Rnd) (neg : Bool) :
    RoundedMag rm neg (y / 2 ^ q) (roundAt rm neg m e q sticky) := by
  obtain ⟨sh, hsh⟩ : ∃ sh, (q - e).toNat = sh + 1 := ⟨(q - e).toNat - 1, by omega⟩
  have he0 : (0 : ℝ) < 2 ^ e := by positivity
  have hpow : (0 : ℝ) < 2 ^ (sh + 1) := by positivity
  have hδ0 : 0 ≤ y / 2 ^ e - m := sub_nonneg.2 ((le_div_iff₀ he0).2 h.lo)
  have hδ1 : y / 2 ^ e - m < 1 := sub_lt_iff_lt_add'.2 ((div_lt_iff₀ he0).2 h.hi)
  have hsticky : sticky = true ↔ y / 2 ^ e - m ≠ 0 := by
    rw [h.sticky_iff, Ne, Ne, sub_eq_zero, div_eq_iff he0.ne']
  have hm : (m : ℝ) = 2 ^ (sh + 1) * (m / 2 ^ (sh + 1) : Nat) + (m % 2 ^ (sh + 1) : Nat) := by
    exact_mod_cast (Nat.div_add_mod m (2 ^ (sh + 1))).symm
  have hz : y / 2 ^ q = (m / 2 ^ (sh + 1) : Nat) + ((m % 2 ^ (sh + 1) : Nat) + (y / 2 ^ e - m)) / 2 ^ (sh + 1) := by
    rw [two_zpow_sub hq.le, hsh]
    field_simp
    linear_combination (2 : ℝ) ^ e * hm
  have hrem : ((m % 2 ^ (sh + 1) : Nat) : ℝ) + 1 ≤ 2 ^ (sh + 1) := by
    exact_mod_cast Nat.mod_lt m (Nat.two_pow_pos (sh + 1))
  rw [roundAt, if_neg hq.not_ge, hsh]
  refine ⟨m / 2 ^ (sh + 1), _, ?_, ?_, roundsUp_iff hz hδ0 hδ1 hsticky rm neg, Prod.ext rfl ?_⟩
  · rw [hz]
    exact le_add_of_nonneg_right (by positivity)
  · rw [hz, add_lt_add_iff_left, div_lt_one hpow]
    linarith
  · rw [Bool.eq_iff_iff, decide_eq_true_iff, ne_floor_iff hz hδ0 hsticky]

/-- What roundAt answers: the rounded magnitude in units of 2^q, and whether it is another one. -/
theorem roundAt_spec {sticky : Bool} (h : IsMag y m e sticky) (hq : sticky = true → e < q) (rm : Rnd) (neg : Bool) :
    let r := roundAt rm neg m e q sticky
    RoundsTo rm (withSign neg y / 2 ^ q) (signed neg r.1) ∧ (r.2 = true ↔ (r.1 : ℝ) * 2 ^ q ≠ y) ∧
      (∀ a : Nat, (a : ℝ) ≤ y / 2 ^ q → a ≤ r.1) ∧ ∀ b : Nat, y / 2 ^ q < b → r.1 ≤ b := by
  have hrounded : RoundedMag rm neg (y / 2 ^ q) (roundAt rm neg m e q sticky) := by
    rcases lt_or_ge e q with hlt | hge
    · exact roundAt_shifted h hlt rm neg
    · obtain rfl : sticky = false := Bool.eq_false_iff.2 fun hs => absurd (hq hs) hge.not_gt
      obtain rfl : y = m * 2 ^ e := not_not.1 (mt h.sticky_iff.2 Bool.false_ne_true)
      exact roundAt_multiple hge rm neg
  have hq0 : (2 : ℝ) ^ q ≠ 0 := by positivity
  have hspec := hrounded.spec
  rwa [← withSign_div, Ne, eq_div_iff hq0] at hspec

end

/-! ### Codes -/

theorem two_pow_add_seven {p : Nat} (hp : 0 < p) : 2 ^ (p + 7) = 256 * 2 ^ (p - 1) := by
  rw [show p + 7 = 8 + (p - 1) by omega, pow_add]
  rfl

/-- The fields of a code that is put together from its sign, its exponent field x and its fraction f (R49). -/
theorem code_fields {p : Nat} (hp : 0 < p) (neg : Bool) {x f : Nat} (hx : x < 256) (hf : f < 2 ^ (p - 1)) :
    let c := fpSign p neg + (x * 2 ^ (p - 1) + f)
    c / 2 ^ (p - 1) % 256 = x ∧ c % 2 ^ (p - 1) = f ∧ codeNeg p c = neg ∧ c < 2 ^ (p + 8) ∧
      c % 2 ^ (p + 7) = x * 2 ^ (p - 1) + f := by
  intro c
  have hH : 0 < 2 ^ (p - 1) := Nat.two_pow_pos _
  have hlow : x * 2 ^ (p - 1) + f < 256 * 2 ^ (p - 1) := by nlinarith
  have hc : c = (neg.toNat * 256 + x) * 2 ^ (p - 1) + f := by
    have hsign : fpSign p neg = neg.toNat * 256 * 2 ^ (p - 1) := by
      cases neg
      · simp [fpSign]
      · simp [fpSign, two_pow_add_seven hp]
    rw [show c = fpSign p neg + (x * 2 ^ (p - 1) + f) from rfl, hsign]
    ring
  have hc' : c = x * 2 ^ (p - 1) + f + neg.toNat * 2 ^ (p + 7) := by
    rw [hc, two_pow_add_seven hp]
    ring
  have htop : c / 2 ^ (p + 7) = neg.toNat := by
    rw [hc', Nat.add_mul_div_right _ _ (Nat.two_pow_pos _), Nat.div_eq_of_lt (by rwa [two_pow_add_seven hp]), Nat.zero_add]
  have hdiv : c / 2 ^ (p - 1) = neg.toNat * 256 + x := by
    rw [hc, mul_comm, Nat.mul_add_div hH, Nat.div_eq_of_lt hf, Nat.add_zero]
  refine ⟨by omega, ?_, ?_, ?_, ?_⟩
  · rw [hc, mul_comm, Nat.mul_add_mod, Nat.mod_eq_of_lt hf]
  · rw [codeNeg, htop]
    cases neg <;> rfl
  · rw [show p + 8 = p + 7 + 1 by rfl, pow_succ]
    refine (Nat.div_lt_iff_lt_mul (Nat.two_pow_pos _)).1 ?_ |>.trans_eq (mul_comm _ _)
    have := neg.toNat_lt
    omega
  · rw [hc', Nat.add_mul_mod_self_right, Nat.mod_eq_of_lt (by rwa [two_pow_add_seven hp])]

/-- A significand and an exponent that the format holds: below 2^p, and normal unless at the smallest exponent. -/
structure Normalised (p : Nat) (q : ℤ) (sig : Nat) : Prop where
  lt : sig < 2 ^ p
  le : -125 - (p : ℤ) ≤ q
  low : sig < 2 ^ (p - 1) → q = -125 - (p : ℤ)

/-- The code that fpRound makes of a significand and an exponent. -/
def codeOf (p : Nat) (neg : Bool) (q : ℤ) (sig : Nat) : Nat :=
  fpSign p neg + if sig < 2 ^ (p - 1) then sig else (q + p + 125).toNat * 2 ^ (p - 1) + sig

/-- The value of a code by its exponent field and its fraction (R49). -/
theorem codeVal_fields {p : Nat} (hp : 0 < p) (neg : Bool) {x f : Nat} (hx : x < 256) (hf : f < 2 ^ (p - 1)) :
    (codeVal p (fpSign p neg + (x * 2 ^ (p - 1) + f)) : ℝ) =
      withSign neg (if x = 0 then f * 2 ^ (-125 - p : ℤ) else (2 ^ (p - 1) + f) * 2 ^ (x - 126 - p : ℤ)) := by
  obtain ⟨hexp, hfrac, hneg, -, -⟩ := code_fields hp neg hx hf
  simp only [codeVal, hexp, hfrac, hneg]
  by_cases h0 : x = 0 <;> cases neg <;> simp [h0]

theorem codeOf_spec {p : Nat} (hp : 0 < p) (neg : Bool) {q : ℤ} {sig : Nat} (h : Normalised p q sig) (hq : q + p ≤ 128) :
    codeFinite p (codeOf p neg q sig) ∧ (codeVal p (codeOf p neg q sig) : ℝ) = withSign neg (sig * 2 ^ q) ∧
      codeNeg p (codeOf p neg q sig) = neg ∧ codeOf p neg q sig < 2 ^ (p + 8) := by
  obtain ⟨x, f, hx, hf, hcode, hval⟩ : ∃ x f : Nat, x < 255 ∧ f < 2 ^ (p - 1) ∧
      codeOf p neg q sig = fpSign p neg + (x * 2 ^ (p - 1) + f) ∧
      (if x = 0 then (f : ℝ) * 2 ^ (-125 - p : ℤ) else (2 ^ (p - 1) + f) * 2 ^ (x - 126 - p : ℤ)) = sig * 2 ^ q := by
    by_cases hsig : sig < 2 ^ (p - 1)
    · refine ⟨0, sig, by decide, hsig, ?_, ?_⟩
      · rw [codeOf, if_pos hsig, Nat.zero_mul, Nat.zero_add]
      · rw [if_pos rfl, h.low hsig]
    · have hdouble : 2 ^ p = 2 ^ (p - 1) + 2 ^ (p - 1) := by rw [← two_mul, ← pow_succ', Nat.sub_add_cancel hp]
      have hlt := h.lt
      have hle := h.le
      refine ⟨(q + p + 125).toNat + 1, sig - 2 ^ (p - 1), by omega, by omega, ?_, ?_⟩
      · rw [codeOf, if_neg hsig, add_mul]
        omega
      · rw [if_neg (Nat.succ_ne_zero _), Nat.cast_sub (not_lt.1 hsig)]
        push_cast
        rw [Int.toNat_of_nonneg (by omega), add_sub_cancel]
        congr 2
        ring
  obtain ⟨hexp, -, hneg, hlt, -⟩ := code_fields hp neg (hx.trans (by decide)) hf
  have hcv := codeVal_fields hp neg (hx.trans (by decide)) hf
  rw [hval] at hcv
  rw [hcode]
  exact ⟨by rw [codeFinite, hexp]; exact hx.ne, hcv, hneg, hlt⟩

theorem overflow_iff {p : Nat} (hp : 0 < p) {q : ℤ} {sig : Nat} (h : Normalised p q sig) :
    128 < q + p ↔ (2 : ℝ) ^ 128 ≤ sig * 2 ^ q := by
  have hq0 : (0 : ℝ) < 2 ^ q := by positivity
  have hpow : (2 : ℝ) ^ 128 = 2 ^ (128 : ℤ) := rfl
  rw [hpow]
  constructor
  · intro hbig
    have hsig : 2 ^ (p - 1) ≤ sig := not_lt.1 fun hlt => absurd (h.low hlt) (by omega)
    calc (2 : ℝ) ^ (128 : ℤ) ≤ 2 ^ (((p - 1 : Nat) : ℤ) + q) := zpow_le_zpow_right₀ one_le_two (by omega)
      _ = 2 ^ (p - 1) * 2 ^ q := by rw [zpow_add₀ two_ne_zero, zpow_natCast]
      _ ≤ sig * 2 ^ q := mul_le_mul_of_nonneg_right (by exact_mod_cast hsig) hq0.le
  · intro hbig
    have hlt : (2 : ℝ) ^ (128 : ℤ) < 2 ^ ((p : ℤ) + q) := calc
      (2 : ℝ) ^ (128 : ℤ) ≤ sig * 2 ^ q := hbig
      _ < 2 ^ p * 2 ^ q := mul_lt_mul_of_pos_right (by exact_mod_cast h.lt) hq0
      _ = 2 ^ ((p : ℤ) + q) := by rw [zpow_add₀ two_ne_zero, zpow_natCast]
    have := (zpow_lt_zpow_iff_right₀ one_lt_two).1 hlt
    omega

/-! ### Lengths -/

theorem bitLen_spec {m : Nat} (hm : 0 < m) : 0 < bitLen m ∧ 2 ^ (bitLen m - 1) ≤ m ∧ m < 2 ^ bitLen m := by
  rw [bitLen, if_neg hm.ne']
  exact ⟨Nat.succ_pos _, Nat.log2_self_le hm.ne', Nat.lt_log2_self⟩

/-- The power of two below a magnitude (R50). -/
theorem IsMag.bounds {y : ℝ} {m : Nat} {e : ℤ} {sticky : Bool} (h : IsMag y m e sticky) (hm : 0 < m) :
    2 ^ (e + bitLen m - 1) ≤ y ∧ y < 2 ^ (e + bitLen m) := by
  obtain ⟨hpos, hlo, hhi⟩ := bitLen_spec hm
  have he : (0 : ℝ) < 2 ^ e := by positivity
  constructor
  · calc (2 : ℝ) ^ (e + bitLen m - 1) = 2 ^ (bitLen m - 1) * 2 ^ e := by
          rw [← zpow_natCast, ← zpow_add₀ two_ne_zero]
          congr 1
          omega
      _ ≤ m * 2 ^ e := mul_le_mul_of_nonneg_right (by exact_mod_cast hlo) he.le
      _ ≤ y := h.lo
  · calc y < (m + 1) * 2 ^ e := h.hi
      _ ≤ 2 ^ bitLen m * 2 ^ e := mul_le_mul_of_nonneg_right (by exact_mod_cast hhi) he.le
      _ = 2 ^ (e + bitLen m) := by rw [add_comm, zpow_add₀ two_ne_zero, zpow_natCast]

/-- A natural is the magnitude of itself. -/
theorem isMag_self (m : Nat) (e : ℤ) : IsMag (m * 2 ^ e) m e false := by
  have he : (0 : ℝ) < 2 ^ e := by positivity
  exact ⟨le_rfl, mul_lt_mul_of_pos_right (lt_add_one _) he, iff_of_false Bool.false_ne_true (not_not.2 rfl)⟩

theorem mul_zpow_lt_iff {m : Nat} (hm : 0 < m) (e t : ℤ) : (m : ℝ) * 2 ^ e < 2 ^ t ↔ e + bitLen m ≤ t := by
  obtain ⟨hlo, hhi⟩ := (isMag_self m e).bounds hm
  constructor
  · intro hlt
    have := (zpow_lt_zpow_iff_right₀ one_lt_two).1 (hlo.trans_lt hlt)
    omega
  · exact fun hle => hhi.trans_le (zpow_le_zpow_right₀ one_le_two hle)

/-! ### A rounded result -/

/-- What fpRound answers for a rounded significand and its exponent. -/
def finishFp (p : Nat) (rm : Rnd) (neg : Bool) (q : ℤ) (sig : Nat) (inexact tiny : Bool) : Flagged Nat :=
  if q + p > 128 then
    let away := match rm with | .rne => true | .rtz => false | .rdn => neg | .rup => !neg
    (if away then fpInf p neg else fpMax p neg, { Flags.zero with ov := true, nx := true })
  else (codeOf p neg q sig, { Flags.zero with nx := inexact, uf := inexact && tiny })

/-- A significand that rounding took to 2^p is one place longer. -/
def carried (p : Nat) (q : ℤ) (sig : Nat) : ℤ × Nat := if sig = 2 ^ p then (q + 1, sig / 2) else (q, sig)

theorem fpRound_eq (p : Nat) (rm : Rnd) (neg : Bool) (m : Nat) (e : ℤ) (sticky : Bool) :
    fpRound p rm neg m e sticky =
      let free : ℤ := e + bitLen m - p
      let q := max free (-125 - p)
      let r := roundAt rm neg m e q sticky
      let c := carried p q r.1
      finishFp p rm neg c.1 c.2 r.2 (decide (free + bitLen (roundAt rm neg m e free sticky).1 ≤ -126)) := rfl

theorem carried_value {p : Nat} (hp : 0 < p) (q : ℤ) (sig : Nat) :
    ((carried p q sig).2 : ℝ) * 2 ^ (carried p q sig).1 = sig * 2 ^ q := by
  rw [carried]
  split
  · next h =>
    have hhalf : sig = 2 * (sig / 2) := by
      rw [h, ← Nat.sub_add_cancel hp, pow_succ]
      omega
    have hreal : (sig : ℝ) = 2 * (sig / 2 : Nat) := by exact_mod_cast hhalf
    rw [hreal, zpow_add_one₀ two_ne_zero]
    ring
  · rfl

theorem normalised_carried {p : Nat} (hp : 0 < p) {q : ℤ} {sig : Nat} (hle : sig ≤ 2 ^ p) (hq : -125 - (p : ℤ) ≤ q)
    (hlow : sig < 2 ^ (p - 1) → q = -125 - (p : ℤ)) : Normalised p (carried p q sig).1 (carried p q sig).2 := by
  have hdouble : 2 ^ p = 2 ^ (p - 1) + 2 ^ (p - 1) := by rw [← two_mul, ← pow_succ', Nat.sub_add_cancel hp]
  have hpos : 0 < 2 ^ (p - 1) := Nat.two_pow_pos _
  rw [carried]
  split
  · next h => exact ⟨by simp only; omega, by simp only; omega, fun hlt => by simp only at hlt; omega⟩
  · next h => exact ⟨lt_of_le_of_ne hle h, hq, hlow⟩

/-- The modes that take an overflow to infinity. -/
def goesAway (rm : Rnd) (neg : Bool) : Bool := match rm with | .rne => true | .rtz => false | .rdn => neg | .rup => !neg

theorem goesAway_iff {rm : Rnd} {neg : Bool} :
    goesAway rm neg = true ↔ rm = .rne ∨ (rm = .rdn ∧ neg = true) ∨ (rm = .rup ∧ neg = false) := by
  cases rm <;> simp [goesAway]

theorem finishFp_overflow (p : Nat) (rm : Rnd) (neg : Bool) {q : ℤ} (hq : 128 < q + p) (sig : Nat) (inexact tiny : Bool) :
    finishFp p rm neg q sig inexact tiny =
      (if goesAway rm neg then fpInf p neg else fpMax p neg, { Flags.zero with ov := true, nx := true }) := if_pos hq

theorem finishFp_finite (p : Nat) (rm : Rnd) (neg : Bool) {q : ℤ} (hq : ¬128 < q + p) (sig : Nat) (inexact tiny : Bool) :
    finishFp p rm neg q sig inexact tiny =
      (codeOf p neg q sig, { Flags.zero with nx := inexact, uf := inexact && tiny }) := if_neg hq

/-- R50: an overflow goes to infinity, or to the largest finite number where the mode rounds toward zero. -/
theorem overflow_code {p : Nat} (hp : 0 < p) (away neg : Bool) : let c := if away then fpInf p neg else fpMax p neg
    c < 2 ^ (p + 8) ∧ codeNeg p c = neg ∧
      c % 2 ^ (p + 7) = if away then 255 * 2 ^ (p - 1) else 255 * 2 ^ (p - 1) - 1 := by
  have hpos : 0 < 2 ^ (p - 1) := Nat.two_pow_pos _
  obtain ⟨x, f, hx, hf, hfields, hcode⟩ : ∃ x f, x < 256 ∧ f < 2 ^ (p - 1) ∧
      x * 2 ^ (p - 1) + f = (if away then 255 * 2 ^ (p - 1) else 255 * 2 ^ (p - 1) - 1) ∧
      (if away then fpInf p neg else fpMax p neg) = fpSign p neg + (x * 2 ^ (p - 1) + f) := by
    cases away
    · have hfields : 254 * 2 ^ (p - 1) + (2 ^ (p - 1) - 1) = 255 * 2 ^ (p - 1) - 1 := by omega
      exact ⟨254, 2 ^ (p - 1) - 1, by decide, by omega, hfields, congrArg (fpSign p neg + ·) hfields.symm⟩
    · exact ⟨255, 0, by decide, hpos, rfl, rfl⟩
  obtain ⟨-, -, hneg, hlt, hmod⟩ := code_fields hp neg hx hf
  rw [hcode, ← hfields]
  exact ⟨hlt, hneg, hmod⟩

/-- R50: the code and the flags of a significand n that y's mode gives it in the format's last places, and of u, the one that
it would have without the limit of the subnormals. -/
theorem rounded_finishFp {p : Nat} (hp : 0 < p) {rm : Rnd} {neg : Bool} {y : ℝ} {k q : ℤ} {n u : Nat} {inexact tiny : Bool}
    (hlo : 2 ^ k ≤ y) (hhi : y < 2 ^ (k + 1)) (hq : q = max (k + 1 - p) (-125 - p))
    (hn : RoundsTo rm (withSign neg y / 2 ^ q) (signed neg n))
    (hu : RoundsTo rm (withSign neg y / 2 ^ (k + 1 - p)) (signed neg u))
    (hinexact : inexact = true ↔ (n : ℝ) * 2 ^ q ≠ y) (htiny : tiny = true ↔ (u : ℝ) * 2 ^ (k + 1 - p) < 2 ^ (-126 : ℤ))
    (hle : n ≤ 2 ^ p) (hlow : n < 2 ^ (p - 1) → q = -125 - (p : ℤ)) :
    Rounded p rm (withSign neg y) (finishFp p rm neg (carried p q n).1 (carried p q n).2 inexact tiny) := by
  have hy : 0 < y := lt_of_lt_of_le (by positivity) hlo
  have hnorm := normalised_carried hp hle (hq.trans_ge (le_max_right ..)) hlow
  have hvalue := carried_value hp q n
  generalize carried p q n = c at hnorm hvalue ⊢
  have hout : ((signed neg n : ℤ) : ℝ) * 2 ^ q = withSign neg (c.2 * 2 ^ c.1) := by
    rw [cast_signed, withSign_mul, hvalue]
  have habs : |((signed neg n : ℤ) : ℝ) * 2 ^ q| = c.2 * 2 ^ c.1 := by
    rw [hout, abs_withSign, abs_of_nonneg (by positivity)]
  have hne : ((signed neg n : ℤ) : ℝ) * 2 ^ q ≠ withSign neg y ↔ inexact = true := by
    rw [hout, hinexact, hvalue, Ne, withSign_inj]
  have hou : |((signed neg u : ℤ) : ℝ)| = u := by rw [cast_signed, abs_withSign, Nat.abs_cast]
  have hsign {b : Bool} (hb : b = neg) : b = true ↔ withSign neg y < 0 := by rw [hb, withSign_neg_iff hy]
  refine ⟨k, signed neg n, signed neg u, ?_⟩
  rw [abs_withSign, abs_of_pos hy]
  refine ⟨hlo, hhi, ?_⟩
  intro q' out away
  obtain rfl : q' = q := hq.symm
  by_cases hbig : 128 < c.1 + p
  · have hover : (2 : ℝ) ^ 128 ≤ |out| := ((overflow_iff hp hnorm).1 hbig).trans_eq habs.symm
    have haway : away ↔ goesAway rm neg = true := by
      rw [goesAway_iff, ← withSign_neg_iff hy, ← withSign_pos_iff hy]
    obtain ⟨hlt, hneg, hmod⟩ := overflow_code hp (goesAway rm neg) neg
    rw [finishFp_overflow p rm neg hbig]
    refine ⟨hn, hu, hlt, hsign hneg, fun _ => ⟨fun h => ?_, fun h => ?_, rfl⟩, fun h => absurd hover h.not_ge⟩
    · simpa only [if_pos (haway.1 h)] using hmod
    · simpa only [if_neg (mt haway.2 h)] using hmod
  · have hover : |out| < (2 : ℝ) ^ 128 := lt_of_not_ge fun h => hbig ((overflow_iff hp hnorm).2 (h.trans_eq habs))
    obtain ⟨hfinite, hval, hneg, hlt⟩ := codeOf_spec hp neg hnorm (not_lt.1 hbig)
    rw [finishFp_finite p rm neg hbig]
    refine ⟨hn, hu, hlt, hsign hneg, fun h => absurd hover h.not_gt, fun _ =>
      ⟨hfinite, hval.trans hout.symm, rfl, hne.symm, ?_⟩⟩
    rw [hou, Bool.and_eq_true, htiny, hne]

/-- R50: fpRound rounds a magnitude with a sign, whichever the mode. A magnitude with a sticky mark needs more bits than the
format, so that what the mark stands for lies below the last place. -/
theorem rounded_fpRound {p : Nat} (hp : 0 < p) (rm : Rnd) (neg : Bool) {y : ℝ} {m : Nat} {e : ℤ} {sticky : Bool} (hm : 0 < m)
    (h : IsMag y m e sticky) (hbits : sticky = true → p < bitLen m) :
    Rounded p rm (withSign neg y) (fpRound p rm neg m e sticky) := by
  obtain ⟨hlo, hhi⟩ := h.bounds hm
  have hk : e + bitLen m - 1 + 1 - p = e + bitLen m - p := by ring
  have hfree : sticky = true → e < e + bitLen m - p := fun hs => by have := hbits hs; omega
  have hfree0 : (0 : ℝ) < 2 ^ (e + bitLen m - p) := by positivity
  have hleast : ((2 ^ (p - 1) : Nat) : ℝ) ≤ y / 2 ^ (e + bitLen m - p) := by
    rw [le_div_iff₀ hfree0, Nat.cast_pow, Nat.cast_two, ← zpow_natCast, ← zpow_add₀ two_ne_zero]
    exact (zpow_le_zpow_right₀ one_le_two (by omega)).trans hlo
  have hmost : y / 2 ^ max (e + bitLen m - p) (-125 - p) < (2 ^ p : Nat) := by
    rw [div_lt_iff₀ (by positivity), Nat.cast_pow, Nat.cast_two, ← zpow_natCast, ← zpow_add₀ two_ne_zero]
    exact hhi.trans_le (zpow_le_zpow_right₀ one_le_two (by omega))
  obtain ⟨hn, hinexact, hfloor, hceil⟩ :=
    roundAt_spec h (q := max (e + bitLen m - p) (-125 - p)) (fun hs => (hfree hs).trans_le (le_max_left ..)) rm neg
  obtain ⟨hu, -, hufloor, -⟩ := roundAt_spec h hfree rm neg
  have hupos := (Nat.two_pow_pos _).trans_le (hufloor _ hleast)
  rw [fpRound_eq]
  refine rounded_finishFp hp hlo (by rwa [sub_add_cancel]) (by rw [hk]) hn (by rwa [hk]) hinexact ?_ (hceil _ hmost)
    fun hsmall => ?_
  · rw [decide_eq_true_iff, hk, mul_zpow_lt_iff hupos]
  · refine max_eq_right (le_of_not_ge fun hge => ?_)
    rw [max_eq_left hge] at hsmall hfloor
    exact absurd (hfloor _ hleast) hsmall.not_ge

end Sys2Proof.Machine
end

section
/-! Product terms, weight rounding and drains against their exact values (O21; R54 to R57, R61, R65). -/
namespace Sys2Proof.Machine

/-! ### Exponents -/

theorem floor_div_pow (x : ℤ) (k : Nat) : ⌊(x : ℚ) / 2 ^ k⌋ = x / 2 ^ k := by
  have h := Rat.floor_intCast_div_natCast x (2 ^ k)
  push_cast at h
  exact h

/-- R54: rounding an exponent to nearest is rounding the rational that it stands for. -/
theorem roundExp_rne (neg : Bool) (x : ℤ) (k : Nat) : roundExp .rne neg x k false = roundNe ((x : ℚ) / 2 ^ k) := by
  have hpow : (0 : ℤ) < 2 ^ k := by positivity
  have hpow' : (0 : ℚ) < 2 ^ k := by positivity
  obtain ⟨r, hr⟩ := Int.eq_ofNat_of_zero_le (Int.emod_nonneg x hpow.ne')
  have hdiv : 2 ^ k * (x / 2 ^ k) + r = x := by
    have h := Int.mul_ediv_add_emod x (2 ^ k)
    rwa [hr] at h
  have hdivQ : 2 ^ k * ((x / 2 ^ k : ℤ) : ℚ) + r = x := by exact_mod_cast hdiv
  have hfrac : (x : ℚ) / 2 ^ k - (x / 2 ^ k : ℤ) = (r : ℚ) / 2 ^ k := by
    field_simp
    linear_combination -hdivQ
  have hlt : (x : ℚ) / 2 ^ k - (x / 2 ^ k : ℤ) < 1 / 2 ↔ 2 * r < 2 ^ k := by
    rw [hfrac, div_lt_div_iff₀ hpow' two_pos, one_mul, mul_comm]
    exact_mod_cast Iff.rfl
  have hgt : 1 / 2 < (x : ℚ) / 2 ^ k - (x / 2 ^ k : ℤ) ↔ 2 ^ k < 2 * r := by
    rw [hfrac, div_lt_div_iff₀ two_pos hpow', one_mul, mul_comm (r : ℚ)]
    exact_mod_cast Iff.rfl
  simp only [roundExp, roundNe, floor_div_pow, hlt, hgt, hr, Int.toNat_natCast]
  rcases lt_trichotomy (2 * r) (2 ^ k) with h | h | h
  · simp [h, h.not_gt, h.ne]
  · simp only [h, lt_irrefl, decide_false, beq_self_eq_true, Bool.false_or, Bool.true_and, if_false, beq_iff_eq]
    split <;> omega
  · simp [h, h.not_gt]

/-! ### Codes -/

theorem LogFmt.bias_eq (f : LogFmt) : f.bias = codeBias f := by
  rw [LogFmt.bias, codeBias]
  split <;> rfl

theorem LogFmt.e_eq (f : LogFmt) (c : Nat) : f.e c = (codeM f c : ℤ) - codeBias f := by
  rw [LogFmt.e, LogFmt.bias_eq]
  rfl

theorem ArrayFmt.two_le {f : LogFmt} (h : ArrayFmt f) : 2 ≤ f.bits := by
  rcases h with ⟨hb, -⟩ | ⟨hb, -⟩ <;> omega

theorem ArrayFmt.bits_pos {f : LogFmt} (h : ArrayFmt f) : 0 < f.bits := two_pos.trans_le h.two_le

theorem LogFmt.neg_eq {f : LogFmt} (hf : 0 < f.bits) {c : Nat} (hc : c < 2 ^ f.bits) : f.neg c = codeMinus f c := by
  have hH : 0 < 2 ^ (f.bits - 1) := Nat.two_pow_pos _
  have htwo : c / 2 ^ (f.bits - 1) < 2 := by
    rw [Nat.div_lt_iff_lt_mul hH, ← pow_succ', Nat.sub_add_cancel hf]
    exact hc
  have htop : c / 2 ^ (f.bits - 1) % 2 = 1 ↔ 2 ^ (f.bits - 1) ≤ c := by
    rw [Nat.mod_eq_of_lt htwo, ← Nat.one_le_div_iff hH]
    omega
  rw [LogFmt.neg, codeMinus, Bool.beq_eq_decide_eq, decide_eq_decide.2 htop]

theorem LogFmt.nar_eq {f : LogFmt} (hf : 0 < f.bits) : f.nar = codeTop f + 1 := by
  have hH : 0 < 2 ^ (f.bits - 1) := Nat.two_pow_pos _
  have hdouble : 2 ^ f.bits = 2 ^ (f.bits - 1) + 2 ^ (f.bits - 1) := by
    rw [← two_mul, ← pow_succ', Nat.sub_add_cancel hf]
  rw [LogFmt.nar, codeTop]
  split <;> omega

/-! ### Terms -/

theorem powerT_eq (k : Nat) : powerT k = specT19 k := by
  rw [powerT, specT19]
  simp

theorem specT19_lt (k : Nat) : specT19 k < 2 ^ 20 := by
  by_cases hk : k < 16
  · interval_cases k <;> decide
  · rw [specT19, Array.getD_eq_getD_getElem?, Array.getElem?_eq_none (not_lt.1 hk)]
    decide

theorem specMag_eq (F : Nat) (P : ℤ) : specMag F P =
    let sh := P / 2 ^ F + 11
    let T := specT19 ((P % 2 ^ F).toNat * (16 / 2 ^ F))
    (if 43 < sh then 2 ^ 62 - 1 else if 0 ≤ sh then T * 2 ^ sh.toNat else T / 2 ^ (-sh).toNat, decide (43 < sh)) := by
  rw [specMag]
  split
  · next h => simp only [h, if_true, decide_true]
  · next h =>
    simp only [h, if_false, decide_false]
    split <;> rfl

theorem specMag_lt (F : Nat) (P : ℤ) : (specMag F P).1 < 2 ^ 63 := by
  rw [specMag]
  have hT := specT19_lt ((P % 2 ^ F).toNat * (16 / 2 ^ F))
  split
  · decide
  · split
    · next hle hge =>
      calc specT19 ((P % 2 ^ F).toNat * (16 / 2 ^ F)) * 2 ^ (P / 2 ^ F + 11).toNat
          < 2 ^ 20 * 2 ^ (P / 2 ^ F + 11).toNat := Nat.mul_lt_mul_of_pos_right hT (Nat.two_pow_pos _)
        _ ≤ 2 ^ 20 * 2 ^ 43 := Nat.mul_le_mul_left _ (Nat.pow_le_pow_right two_pos (by omega))
        _ = 2 ^ 63 := by decide
    · exact (Nat.div_le_self ..).trans_lt (hT.trans (by decide))

theorem specMag_of_saturated {F : Nat} {P : ℤ} (h : (specMag F P).2 = true) : (specMag F P).1 = 2 ^ 62 - 1 := by
  rw [specMag] at h ⊢
  split
  · rfl
  · next hle =>
    rw [if_neg hle] at h
    split at h <;> exact absurd h Bool.false_ne_true

/-- A term with a zero operand or a zero scale (R57). -/
def ZeroTerm (a w : Nat) (sa sw : Word) : Prop := a = 0 ∨ w = 0 ∨ sa = zeroScale ∨ sw = zeroScale

theorem zeroTerm_iff {a w : Nat} {sa sw : Word} :
    (a == 0 || w == 0 || sa == zeroScale || sw == zeroScale) = true ↔ ZeroTerm a w sa sw := by
  simp only [ZeroTerm, Bool.or_eq_true, beq_iff_eq, or_assoc]

/-- The exponent of a product term, in units of 2^-F, as the model reads its operands and scales (R57). -/
def termExp (fa : LogFmt) (a : Nat) (fw : LogFmt) (w : Nat) (sa sw : Word) : ℤ :=
  let F := max fa.F fw.F
  fa.e a * 2 ^ (F - fa.F) + fw.e w * 2 ^ (F - fw.F) + roundScale sa F + roundScale sw F

theorem termExp_eq (fa : LogFmt) (a : Nat) (fw : LogFmt) (w : Nat) (sa sw : Word) :
    termExp fa a fw w sa sw = specP fa a fw w sa sw := by
  simp only [termExp, specP, LogFmt.e_eq, roundScale, roundExp_rne]

section
variable {fa fw : LogFmt} {a w : Nat} {sa sw : Word}

theorem productTerm_nar (h : a = fa.nar ∨ w = fw.nar) (ns : BitVec 2) : let t := productTerm fa a fw w sa sw ns
    t.fl = ⟨false, false, true⟩ ∧
    (ZeroTerm a w sa sw → t.val = 0 ∧ t.nar = false) ∧
    (¬ZeroTerm a w sa sw → t.val = (if ns = 1 then 2 ^ 62 - 1 else if ns = 2 then -(2 ^ 62 - 1) else 0) ∧
      (t.nar = true ↔ ns = 3)) := by
  have hns : ns = 0 ∨ ns = 1 ∨ ns = 2 ∨ ns = 3 := by revert ns; decide
  intro t
  have ht : t = productTerm fa a fw w sa sw ns := rfl
  rw [productTerm, if_pos h] at ht
  by_cases hz : ZeroTerm a w sa sw
  · rw [zeroTerm_iff.2 hz] at ht
    simp [ht, hz, EngFlags.zero]
  · rw [Bool.eq_false_iff.2 (mt zeroTerm_iff.1 hz)] at ht
    rcases hns with rfl | rfl | rfl | rfl <;> simp [ht, hz, EngFlags.zero]

theorem productTerm_zero (ha : a ≠ fa.nar) (hw : w ≠ fw.nar) (hz : ZeroTerm a w sa sw) (ns : BitVec 2) :
    productTerm fa a fw w sa sw ns = ⟨0, .zero, false⟩ := by
  rw [productTerm, if_neg (not_or.2 ⟨ha, hw⟩), if_pos (zeroTerm_iff.2 hz)]

theorem productTerm_value (ha : a ≠ fa.nar) (hw : w ≠ fw.nar) (hz : ¬ZeroTerm a w sa sw) (ns : BitVec 2) :
    let m := specMag (max fa.F fw.F) (specP fa a fw w sa sw)
    productTerm fa a fw w sa sw ns = ⟨signed (fa.neg a != fw.neg w) m.1, ⟨false, m.2, false⟩, false⟩ := by
  rw [productTerm, if_neg (not_or.2 ⟨ha, hw⟩), if_neg (mt zeroTerm_iff.1 hz), ← termExp_eq]
  have hmod (P : ℤ) (F : Nat) : P - P / 2 ^ F * 2 ^ F = P % 2 ^ F := by rw [Int.emod_def, mul_comm]
  simp only [powerT_eq, hmod]
  rw [← termExp.eq_def fa a fw w sa sw, specMag_eq]
  rfl

end

theorem signed_natAbs (neg : Bool) (n : Nat) : (signed neg n).natAbs = n := by cases neg <;> simp [signed]

theorem signed_not (neg : Bool) (n : Nat) : signed (!neg) n = -signed neg n := by cases neg <;> simp [signed]

/-- The signs of a term and of its operands agree, whatever its magnitude (R57). -/
theorem signed_sign (neg : Bool) (n : Nat) : if neg then signed neg n ≤ 0 else 0 ≤ signed neg n := by
  cases neg <;> simp [signed]

/-! ### Codes of opposite signs -/

theorem codeM_eq_of_sgn {f : LogFmt} (hs : f.sgn = true) (c : Nat) : codeM f c = c % 2 ^ (f.bits - 1) := if_pos hs

/-- A signed code is its sign and its biased exponent (R51). -/
theorem code_eq_of_sgn {f : LogFmt} (hs : f.sgn = true) (hf : 0 < f.bits) {c : Nat} (hc : c < 2 ^ f.bits) :
    c = codeM f c + if codeMinus f c then 2 ^ (f.bits - 1) else 0 := by
  have hdouble : 2 ^ f.bits = 2 ^ (f.bits - 1) + 2 ^ (f.bits - 1) := by
    rw [← two_mul, ← pow_succ', Nat.sub_add_cancel hf]
  rw [codeM_eq_of_sgn hs, codeMinus, hs, Bool.true_and]
  by_cases hge : 2 ^ (f.bits - 1) ≤ c
  · rw [decide_eq_true hge, if_pos rfl, Nat.mod_eq_sub_mod hge, Nat.mod_eq_of_lt (by omega), Nat.sub_add_cancel hge]
  · rw [decide_eq_false hge, if_neg Bool.false_ne_true, Nat.mod_eq_of_lt (not_le.1 hge), Nat.add_zero]

/-- The other signed code of an exponent has the other sign (R51). -/
theorem codeMinus_of_codeM_eq {f : LogFmt} (hs : f.sgn = true) (hf : 0 < f.bits) {c d : Nat} (hc : c < 2 ^ f.bits)
    (hd : d < 2 ^ f.bits) (hM : codeM f d = codeM f c) (hne : d ≠ c) : codeMinus f d = !codeMinus f c := by
  refine Bool.eq_not_of_ne fun hsign => hne ?_
  rw [code_eq_of_sgn hs hf hd, code_eq_of_sgn hs hf hc, hM, hsign]

/-- The signed codes of exponent 0 are zero and NaR (R51). -/
theorem codeM_eq_zero_iff {f : LogFmt} (hs : f.sgn = true) (hf : 0 < f.bits) {c : Nat} (hc : c < 2 ^ f.bits) :
    codeM f c = 0 ↔ c = 0 ∨ c = f.nar := by
  have hnar : f.nar = 2 ^ (f.bits - 1) := if_pos hs
  have hcode := code_eq_of_sgn hs hf hc
  have hpos : 0 < 2 ^ (f.bits - 1) := Nat.two_pow_pos _
  rw [hnar]
  constructor
  · intro h
    rw [h] at hcode
    split at hcode <;> omega
  · rintro (rfl | rfl)
    · rw [codeM_eq_of_sgn hs, Nat.zero_mod]
    · rw [codeM_eq_of_sgn hs, Nat.mod_self]

/-! ### Clamping -/

theorem LogFmt.clamp_eq {f : LogFmt} {neg : Bool} (hneg : neg = true → f.sgn = true) (htop : 1 ≤ codeTop f) (e : ℤ) :
    ((f.clamp neg e).1, ({ EngFlags.zero with cl := (f.clamp neg e).2.cl } : EngFlags)) = clampCode f neg e := by
  have hcode (m : Nat) : f.code neg m = (if neg then 2 ^ (f.bits - 1) else 0) + m := by
    cases neg
    · simp [LogFmt.code]
    · simp [LogFmt.code, hneg rfl]
  have hmax : f.mmax = codeTop f := rfl
  rw [clampCode, LogFmt.clamp, LogFmt.bias_eq, hmax]
  by_cases hlow : e + codeBias f < 1
  · have hm : (max 1 (min (codeTop f : ℤ) (e + codeBias f))).toNat = 1 := by omega
    simp only [hlow, hm, hcode, if_true, true_or, decide_true]
    rfl
  · by_cases hhigh : (codeTop f : ℤ) < e + codeBias f
    · have hm : (max 1 (min (codeTop f : ℤ) (e + codeBias f))).toNat = codeTop f := by omega
      simp only [hlow, hhigh, hm, hcode, if_true, if_false, or_true, decide_true]
      rfl
    · have hm : max 1 (min (codeTop f : ℤ) (e + codeBias f)) = e + codeBias f := by omega
      simp only [hlow, hhigh, hm, hcode, if_false, or_false, decide_false]
      rfl

theorem codeTop_pos {f : LogFmt} (h : 2 ≤ f.bits) : 1 ≤ codeTop f := by
  have htwo : 2 ^ 1 ≤ 2 ^ (f.bits - 1) := Nat.pow_le_pow_right two_pos (by omega)
  have hfour : 2 ^ 2 ≤ 2 ^ f.bits := Nat.pow_le_pow_right two_pos h
  rw [codeTop]
  split <;> omega

theorem flags_of_clamp (b : Bool) : (if b then { EngFlags.zero with cl := true } else .zero) = { EngFlags.zero with cl := b } := by
  cases b <;> rfl

/-! ### Weights -/

theorem weightRound_unsigned {f : LogFmt} {w : Nat} (h0 : w ≠ 0) (hnar : w ≠ 0x8000) {sw : Word} (hs : sw ≠ zeroScale)
    (hsgn : f.sgn = false) (hw : 0x8000 < w) : weightRound w f sw = (0, ⟨true, false, false⟩) := by
  rw [weightRound, if_neg hnar, if_neg (not_or.2 ⟨h0, hs⟩), if_pos ⟨by rw [hsgn]; rfl, hw.le⟩]
  rfl

theorem weightRound_value {f : LogFmt} (hf : 2 ≤ f.bits) {w : Nat} (h0 : w ≠ 0) (hnar : w ≠ 0x8000) {sw : Word}
    (hs : sw ≠ zeroScale) (hsign : ¬(f.sgn = false ∧ 0x8000 < w)) : weightRound w f sw =
      clampCode f (0x8000 < w) (roundNe (((((w % 0x8000 : Nat) : ℤ) - 16384) * 256 - sw.toInt : ℤ) / 2 ^ (16 - f.F))) := by
  have hle : 0x8000 ≤ w ↔ 0x8000 < w := ⟨fun h => lt_of_le_of_ne h hnar.symm, le_of_lt⟩
  have hneg (h : decide (0x8000 < w) = true) : f.sgn = true :=
    Bool.eq_true_of_not_eq_false fun hs => hsign ⟨hs, of_decide_eq_true h⟩
  have hunsigned : ¬((!f.sgn) = true ∧ 0x8000 ≤ w) := by rwa [Bool.not_eq_true', hle]
  rw [← LogFmt.clamp_eq hneg (codeTop_pos hf), ← roundExp_rne false, weightRound, if_neg hnar, if_neg (not_or.2 ⟨h0, hs⟩),
    if_neg hunsigned]
  simp only [flags_of_clamp, hle]

/-! ### Drains -/

theorem pow2Of_whole {n : ℤ} (h : n % 65536 = 0) : pow2Of n = (1, n / 65536, false) := by
  rw [pow2Of, h]
  rfl

theorem withSign_natAbs (x : ℤ) (z : ℝ) : withSign (decide (x < 0)) (x.natAbs * z) = x * z := by
  have habs : (x.natAbs : ℝ) = |(x : ℝ)| := by rw [Nat.cast_natAbs, Int.cast_abs]
  by_cases hx : x < 0
  · rw [decide_eq_true hx, withSign_true, habs, abs_of_neg (by exact_mod_cast hx)]
    ring
  · rw [decide_eq_false hx, withSign_false, habs, abs_of_nonneg (by exact_mod_cast not_lt.1 hx)]

section
variable {x : DWord} {so : Word} {f : FmtA}

theorem drainConvert_zero (h : x = 0 ∨ so = zeroScale) (f : FmtA) (o : DrnFmt) : drainConvert x so f o = (0, .zero) := by
  refine if_pos (h.imp_left fun hx => ?_)
  rw [hx]
  rfl

variable (hx : x ≠ 0) (hso : so ≠ zeroScale)
include hx hso

theorem not_drainZero : ¬(x.toInt = 0 ∨ so = zeroScale) :=
  not_or.2 ⟨fun h => hx (BitVec.eq_of_toInt_eq (h.trans BitVec.toInt_zero.symm)), hso⟩

/-- A drain to floating point under a scale that is a power of two: the entry's magnitude, rounded once (R65). -/
theorem drainConvert_fp (hwhole : so.toInt % 65536 = 0) {o : DrnFmt} (ho : o ≠ .log) : drainConvert x so f o =
    let r := fpRound (if o = .f32 then 24 else 8) .rne (x.toInt < 0) x.toInt.natAbs (-30 + so.toInt / 65536) false
    (r.1, ⟨false, r.2.ov, false⟩) := by
  rw [drainConvert, if_neg (not_drainZero hx hso), pow2Of_whole hwhole]
  simp only [mul_one, neg_add_eq_sub]
  cases o
  case log => exact absurd rfl ho
  all_goals rfl

theorem drainConvert_unsigned (hsgn : f.sgn = false) (hneg : x.toInt < 0) :
    drainConvert x so f .log = (0, ⟨true, false, false⟩) := by
  have hact : x.toInt < 0 ∧ (!f.act.sgn) = true := ⟨hneg, by rw [Bool.not_eq_true']; exact hsgn⟩
  rw [drainConvert, if_neg (not_drainZero hx hso)]
  exact if_pos hact

/-- A drain of a power of two to a log code: its exponent under the scale, rounded (R65). -/
theorem drainConvert_pow2 {j : Nat} (hpow : x.toInt.natAbs = 2 ^ j) (hsign : f.sgn = true ∨ 0 < x.toInt) :
    drainConvert x so f .log = clampCode f.act (x.toInt < 0)
      (roundNe (((j : ℤ) * 65536 + so.toInt - 30 * 65536 : ℤ) / 2 ^ (16 - f.act.F))) := by
  have hneg (h : decide (x.toInt < 0) = true) : f.act.sgn = true := hsign.resolve_right (of_decide_eq_true h).not_gt
  have hunsigned : ¬(x.toInt < 0 ∧ (!f.act.sgn) = true) := fun ⟨h, hs⟩ => by
    rw [hneg (decide_eq_true h)] at hs
    exact Bool.false_ne_true hs
  have hbits : 2 ≤ f.act.bits := by
    rw [FmtA.act]
    dsimp only
    split <;> decide
  have hispow : isPow2 (2 ^ j) = true := by rw [isPow2, Nat.log2_two_pow, beq_self_eq_true]
  rw [← LogFmt.clamp_eq hneg (codeTop_pos hbits), ← roundExp_rne (decide (x.toInt < 0)), drainConvert,
    if_neg (not_drainZero hx hso)]
  simp only [if_neg hunsigned, hpow, hispow, if_true, Nat.log2_two_pow, add_sub_assoc]

end
end Sys2Proof.Machine
end

section
open Sys2Proof Sys2Proof.Machine

/-- Settles O21: each function is the specification's on its own readings (`productTerm_value`, `weightRound_value`,
`drainConvert_pow2`), and what a drain rounds to floating point is rounded as `rounded_fpRound` says. -/
theorem arrayArithmetic : Obligations.ArrayArithmetic := by
  unfold Obligations.ArrayArithmetic
  refine ⟨fun fa fw a w sa sw ns => ?terms, fun fa fw a w sa sw ns hfa hfw ha hw ha0 hw0 hanar hwnar hsa hsw => ?values,
    fun f sw w => ?weightSpecials, fun f sw w hf hlt h0 hnar hsw => ?weights,
    fun x so f o => ⟨drainConvert_zero (.inl rfl) f o, drainConvert_zero (.inr rfl) f o⟩,
    fun x so f hx hso => ⟨fun o ho hwhole => ?drainFp, drainConvert_unsigned hx hso,
      fun j _ hpow hsign => drainConvert_pow2 hx hso hpow hsign⟩⟩
  case terms =>
    intro z t
    refine ⟨fun h => ?_, fun ha hw hz => ?_, fun ha hw => ?_, fun ha hw hz hov => ?_, fun ha hw hz => ?_⟩
    · obtain ⟨hfl, hzero, hvalue⟩ := productTerm_nar (sa := sa) (sw := sw) h ns
      refine ⟨hfl, ?_⟩
      by_cases hz : z
      · obtain ⟨hval, hnar⟩ := hzero hz
        exact ⟨by rw [if_pos hz]; exact hval, iff_of_false (Bool.eq_false_iff.1 hnar) fun h => h.1 hz⟩
      · obtain ⟨hval, hnar⟩ := hvalue hz
        exact ⟨by rw [if_neg hz]; exact hval, hnar.trans (and_iff_right hz).symm⟩
    · have ht : t = ⟨0, .zero, false⟩ := productTerm_zero ha hw hz ns
      rw [ht]
      exact ⟨rfl, rfl, rfl⟩
    · by_cases hz : z
      · have ht : t = ⟨0, .zero, false⟩ := productTerm_zero ha hw hz ns
        rw [ht]
        exact ⟨rfl, rfl, rfl, by decide⟩
      · have ht : t = _ := productTerm_value ha hw hz ns
        rw [ht]
        exact ⟨rfl, rfl, rfl, (signed_natAbs ..).trans_lt (specMag_lt ..)⟩
    · have ht : t = _ := productTerm_value ha hw hz ns
      rw [ht] at hov ⊢
      exact (signed_natAbs ..).trans (specMag_of_saturated hov)
    · have ht : t = _ := productTerm_value ha hw hz ns
      rw [ht]
      exact signed_sign ..
  case values =>
    intro m t
    have hwbits := hfw.bits_pos
    have habits := hfa.bits_pos
    rw [← LogFmt.nar_eq habits] at hanar
    rw [← LogFmt.nar_eq hwbits] at hwnar
    have hz : ¬ZeroTerm a w sa sw := not_or.2 ⟨ha0, not_or.2 ⟨hw0, not_or.2 ⟨hsa, hsw⟩⟩⟩
    have ht : t = ⟨signed (codeMinus fa a != codeMinus fw w) m.1, ⟨false, m.2, false⟩, false⟩ := by
      rw [← LogFmt.neg_eq habits ha, ← LogFmt.neg_eq hwbits hw]
      exact productTerm_value hanar hwnar hz ns
    rw [ht]
    refine ⟨rfl, rfl, rfl, fun hsgn w' hw' hM hne => ?_⟩
    have hM0 : codeM fw w' ≠ 0 := hM ▸ mt (codeM_eq_zero_iff hsgn hwbits hw).1 (not_or.2 ⟨hw0, hwnar⟩)
    obtain ⟨hw0', hwnar'⟩ := not_or.1 (mt (codeM_eq_zero_iff hsgn hwbits hw').2 hM0)
    have hz' : ¬ZeroTerm a w' sa sw := not_or.2 ⟨ha0, not_or.2 ⟨hw0', not_or.2 ⟨hsa, hsw⟩⟩⟩
    have hP : specP fa a fw w' sa sw = specP fa a fw w sa sw := by rw [specP, specP, hM]
    rw [productTerm_value hanar hwnar' hz' ns, LogFmt.neg_eq habits ha, LogFmt.neg_eq hwbits hw',
      codeMinus_of_codeM_eq hsgn hwbits hw hw' hM hne, hP, Bool.bne_not, signed_not]
  case weightSpecials =>
    refine ⟨rfl, rfl, fun h => ?_⟩
    rw [weightRound, if_neg h, if_pos (.inr rfl)]
  case weights =>
    split
    · next h => exact weightRound_unsigned h0 hnar hsw h.1 h.2
    · next h => exact weightRound_value (hf.two_le) h0 hnar hsw h
  case drainFp =>
    have hlog : o ≠ .log := by rintro rfl; simp at ho
    have hpos : 0 < x.toInt.natAbs := Int.natAbs_pos.2 (not_or.1 (not_drainZero hx hso)).1
    have hp : 0 < if o = .f32 then 24 else 8 := by split <;> decide
    refine ⟨_, ?_, drainConvert_fp hx hso hwhole hlog⟩
    rw [← withSign_natAbs]
    exact rounded_fpRound hp .rne _ hpos (isMag_self ..) nofun
end
section
/-! SUPPORT. The invariant `Canonical` (O59), first layer: sparse maps whose values all have a property; the parts of a state
in canonical form; and one rule per operation that writes a part of the state. Every later rule is composed of these. -/
namespace Sys2Proof
open Machine

-- One theorem at a time, as above: side by side they ask for more threads than the limit on memory admits.
set_option Elab.async false

/-! ### Maps whose values have a property -/

section
variable {α : Type} {P : α → Prop} {m : SMap α}

theorem SMap.mem_put {k : Nat} {v : α} {e : Nat × α} (he : e ∈ SMap.put m k v) : e = (k, v) ∨ e ∈ m := by
  induction m with
  | nil => exact .inl (List.mem_singleton.1 he)
  | cons c m ih =>
    simp only [SMap.put] at he
    split at he
    · exact (List.mem_cons.1 he)
    · split at he
      · exact (List.mem_cons.1 he).imp_right (List.mem_cons_of_mem _)
      · rcases List.mem_cons.1 he with rfl | he
        · exact .inr List.mem_cons_self
        · exact (ih he).imp_right (List.mem_cons_of_mem _)

theorem SMap.all_put (h : ∀ e ∈ m, P e.2) (k : Nat) {v : α} (hv : P v) : ∀ e ∈ SMap.put m k v, P e.2 := by
  intro e he
  obtain rfl | he := SMap.mem_put he
  · exact hv
  · exact h e he

theorem SMap.all_upd (h : ∀ e ∈ m, P e.2) (k : Nat) {f : α → α} (hf : ∀ v, P v → P (f v)) : ∀ e ∈ SMap.upd f m k, P e.2 := by
  induction m with
  | nil => exact h
  | cons c m ih =>
    obtain ⟨hc, hm⟩ := List.forall_mem_cons.1 h
    simp only [SMap.upd]
    split
    · exact List.forall_mem_cons.2 ⟨hf _ hc, hm⟩
    · exact List.forall_mem_cons.2 ⟨hc, ih hm⟩

theorem SMap.all_del (h : ∀ e ∈ m, P e.2) (k : Nat) : ∀ e ∈ SMap.del m k, P e.2 :=
  fun e he => h e (List.mem_filter.1 he).1

theorem SMap.all_map {f : Nat × α → α} (hf : ∀ e ∈ m, P (f e)) :
    ∀ e ∈ m.map fun e => (e.1, f e), P e.2 :=
  List.forall_mem_map.2 hf

theorem SMap.all_get (h : ∀ e ∈ m, P e.2) {d : α} (hd : P d) (k : Nat) : P (SMap.get d m k) := by
  induction m with
  | nil => exact hd
  | cons c m ih =>
    obtain ⟨hc, hm⟩ := List.forall_mem_cons.1 h
    simp only [SMap.get]
    split
    · exact hc
    · exact ih hm

theorem SMap.all_find (h : ∀ e ∈ m, P e.2) {k : Nat} {v : α} (hv : SMap.find m k = some v) : P v := by
  induction m with
  | nil => cases hv
  | cons c m ih =>
    obtain ⟨hc, hm⟩ := List.forall_mem_cons.1 h
    simp only [SMap.find] at hv
    split at hv
    · exact Option.some.inj hv ▸ hc
    · exact ih hm hv

end

/-! ### Memories -/

theorem Memory.wf_foldl {β : Type} {f : Memory → β → Memory} {l : List β} (hf : ∀ m, m.wf = true → ∀ b ∈ l, (f m b).wf = true)
    {m : Memory} (h : m.wf = true) : (l.foldl f m).wf = true :=
  List.foldlRecOn (motive := fun m => Memory.wf m = true) l f h fun m hm b hb => hf m hm b hb

/-- A list of bytes by rising addresses, without its zeros. -/
theorem Memory.wf_filterMap {β : Type} {l : List β} {a : β → Nat} {v : β → Byte} (h : l.Pairwise fun x y => a x < a y) :
    Memory.wf (l.filterMap fun x => if v x = 0 then none else some (a x, v x)) = true := by
  rw [Memory.wf_iff]
  refine ⟨h.filterMap _ fun x y hxy b hb c hc => ?_, fun c hc => ?_⟩
  · obtain ⟨-, ⟨⟩⟩ := Option.ite_none_left_eq_some.1 hb
    obtain ⟨-, ⟨⟩⟩ := Option.ite_none_left_eq_some.1 hc
    exact hxy
  · obtain ⟨x, -, hx⟩ := List.mem_filterMap.1 hc
    obtain ⟨hne, ⟨⟩⟩ := Option.ite_none_left_eq_some.1 hx
    exact hne

namespace Machine

/-! ### The parts of a state -/

/-- A die's part of `Canonical`. -/
def Die.Canonical (x : Die) : Prop := x.mem.wf = true ∧ WholeLines x

/-- A launch's part of `Canonical`: what the loader keeps of it while it is stopped. -/
def Launch.Canonical (l : Launch) : Prop := (∀ e ∈ l.keptT, e.2.scratch.wf = true) ∧ ∀ e ∈ l.keptC, e.2.store.wf = true

variable {s : State}

theorem Canonical.tile (h : Canonical s) (n : Nat) : (s.tile n).scratch.wf = true :=
  SMap.all_get (P := fun x : Tile => x.scratch.wf = true) h.1 rfl n

theorem Canonical.cluster (h : Canonical s) (c : Nat) : (s.cluster c).store.wf = true :=
  SMap.all_get (P := fun x : Cluster => x.store.wf = true) h.2.1 rfl c

theorem Canonical.dies (h : Canonical s) : ∀ e ∈ s.dies, e.2.Canonical := fun e he => ⟨h.2.2.1 e he, h.2.2.2.1 e he⟩

theorem Canonical.die (h : Canonical s) (d : Nat) : (s.die d).Canonical :=
  SMap.all_get (P := Die.Canonical) h.dies ⟨rfl, rfl, List.forall_mem_nil _, List.forall_mem_nil _⟩ d

theorem Canonical.launches (h : Canonical s) : ∀ e ∈ s.launches, e.2.Canonical := h.2.2.2.2.2.2

theorem Canonical.launch (h : Canonical s) {q : Nat} {l : Launch} (hl : s.launch q = some l) : l.Canonical :=
  SMap.all_find (P := Launch.Canonical) h.launches hl

/-! ### Writing a part -/

theorem Canonical.of_tiles (h : Canonical s) {m : SMap Tile} (hm : ∀ e ∈ m, e.2.scratch.wf = true) :
    Canonical { s with tiles := m } := ⟨hm, h.2⟩

theorem Canonical.of_clusters (h : Canonical s) {m : SMap Cluster} (hm : ∀ e ∈ m, e.2.store.wf = true) :
    Canonical { s with clusters := m } := ⟨h.1, hm, h.2.2⟩

theorem Canonical.of_dies (h : Canonical s) {m : SMap Die} (hm : ∀ e ∈ m, e.2.Canonical) :
    Canonical { s with dies := m } := ⟨h.1, h.2.1, fun e he => (hm e he).1, fun e he => (hm e he).2, h.2.2.2.2⟩

theorem Canonical.of_launches (h : Canonical s) {m : SMap Launch} (hm : ∀ e ∈ m, e.2.Canonical) :
    Canonical { s with launches := m } := ⟨h.1, h.2.1, h.2.2.1, h.2.2.2.1, h.2.2.2.2.1, h.2.2.2.2.2.1, hm⟩

theorem Canonical.of_mhz (h : Canonical s) {f : Nat} (hf : f ∈ specSteps7) : Canonical { s with mhz := f } :=
  ⟨h.1, h.2.1, h.2.2.1, h.2.2.2.1, hf, h.2.2.2.2.2⟩

theorem Canonical.of_wantMhz (h : Canonical s) {w : Option Nat} (hw : ∀ f, w = some f → f ∈ specSteps7) :
    Canonical { s with wantMhz := w } := ⟨h.1, h.2.1, h.2.2.1, h.2.2.2.1, h.2.2.2.2.1, hw, h.2.2.2.2.2.2⟩

theorem Canonical.onTile (h : Canonical s) {n : Nat} {f : Tile → Tile}
    (hf : (s.tile n).scratch.wf = true → (f (s.tile n)).scratch.wf = true := by exact fun h => h) : Canonical (s.onTile n f) :=
  h.of_tiles (SMap.all_put (P := fun x : Tile => x.scratch.wf = true) h.1 n (hf (h.tile n)))

theorem Canonical.onCluster (h : Canonical s) {c : Nat} {f : Cluster → Cluster}
    (hf : (s.cluster c).store.wf = true → (f (s.cluster c)).store.wf = true := by exact fun h => h) : Canonical (s.onCluster c f) :=
  h.of_clusters (SMap.all_put (P := fun x : Cluster => x.store.wf = true) h.2.1 c (hf (h.cluster c)))

theorem Canonical.onDie (h : Canonical s) {d : Nat} {f : Die → Die}
    (hf : (s.die d).Canonical → (f (s.die d)).Canonical := by exact fun h => h) : Canonical (s.onDie d f) :=
  h.of_dies (SMap.all_put (P := Die.Canonical) h.dies d (hf (h.die d)))

theorem Canonical.onLaunch (h : Canonical s) {q : Nat} {f : Launch → Launch}
    (hf : ∀ l, l.Canonical → (f l).Canonical := by exact fun _ h => h) : Canonical (s.onLaunch q f) :=
  h.of_launches (SMap.all_upd (P := Launch.Canonical) h.launches q hf)

theorem Canonical.onStrand (h : Canonical s) {n k : Nat} {f : Strand → Strand} : Canonical (s.onStrand n k f) := h.onTile
theorem Canonical.onMe (h : Canonical s) {f : Strand → Strand} : Canonical (s.onMe f) := h.onTile

theorem Canonical.onMyTile (h : Canonical s) {f : Tile → Tile}
    (hf : s.myTile.scratch.wf = true → (f s.myTile).scratch.wf = true := by exact fun h => h) : Canonical (s.onMyTile f) := h.onTile hf

theorem Canonical.sched (h : Canonical s) {cc slot : Nat} {e : Event} : Canonical (s.sched cc slot e) := h
theorem Canonical.soon (h : Canonical s) {b slot : Nat} {e : Event} : Canonical (s.soon b slot e) := h
theorem Canonical.unsched (h : Canonical s) {f : Event → Bool} : Canonical (s.unsched f) := h
theorem Canonical.spend (h : Canonical s) : Canonical s.spend := h
theorem Canonical.emit (h : Canonical s) {o : Output} : Canonical (s.emit o) := h
theorem Canonical.hostErr (h : Canonical s) : Canonical s.hostErr := h
theorem Canonical.onBun (h : Canonical s) {f : Bundle → Bundle} : Canonical (s.onBun f) := h
theorem Canonical.begin (h : Canonical s) {t k len : Nat} {follow : Bool} {stg : Option (Vector DWord 8)} :
    Canonical (s.begin t k len follow stg) := h

/-! ### Branches and loops -/

theorem Canonical.ite {p : Prop} [Decidable p] {a b : State} (ha : Canonical a) (hb : Canonical b) :
    Canonical (if p then a else b) := by
  split
  · exact ha
  · exact hb

theorem Canonical.foldl {α : Type} (h : Canonical s) {l : List α} {f : State → α → State}
    (hf : ∀ {s} x, Canonical s → Canonical (f s x)) : Canonical (l.foldl f s) :=
  List.foldlRecOn l f h fun _ hs x _ => hf x hs

theorem Canonical.each {α : Type} (h : Canonical s) {l : List α} {f : State → α → State}
    (hf : ∀ {s} x, Canonical s → Canonical (f s x)) : Canonical (s.each l f) := h.foldl hf

/-- `Canonical` of the state that comes with something else. -/
def CanonicalFst {β : Type} (p : State × β) : Prop := Canonical p.1

theorem CanonicalFst.foldl {α β : Type} (h : Canonical s) {b : β} {l : List α} {f : State × β → α → State × β}
    (hf : ∀ p x, CanonicalFst p → CanonicalFst (f p x)) : CanonicalFst (l.foldl f (s, b)) :=
  List.foldlRecOn l f h fun p hp x _ => hf p x hp

theorem Canonical.getD (h : Canonical s) {o : Option State} (ho : ∀ t, o = some t → Canonical t) : Canonical (o.getD s) := by
  cases o with
  | none => exact h
  | some t => exact ho t rfl

end Machine
end Sys2Proof
end

section
/-! SUPPORT. `Canonical` is kept by what several units share: faults and wakings, the stacks, the counters, translation, the
fabric station, releases, traps and waits. One rule per operation. -/
namespace Sys2Proof.Machine

-- One theorem at a time, as above: side by side they ask for more threads than the limit on memory admits.
set_option Elab.async false

variable {s : State}

/-! ### Pending writes -/

theorem Tile.scratch_writeStg (x : Tile) (k : Nat) (e : Eng) (i : BitVec 4) (v : DWord) : (x.writeStg k e i v).scratch = x.scratch := by
  cases e <;> rfl

theorem Tile.wf_commit {x : Tile} (h : x.scratch.wf = true) (k : Nat) (w : Write) : (x.commit k w).scratch.wf = true := by
  cases w with
  | mem a bs => exact Memory.writes_wf _ _ _ h
  | nib a hi v => exact Memory.writeNib_wf _ _ _ _ h
  | stg e i v => exact (Tile.scratch_writeStg x k e i v).symm ▸ h
  | _ => exact h

theorem Tile.wf_foldl {α : Type} {f : Tile → α → Tile} (hf : ∀ x, x.scratch.wf = true → ∀ a, (f x a).scratch.wf = true) {l : List α}
    {x : Tile} (h : x.scratch.wf = true) : (l.foldl f x).scratch.wf = true :=
  List.foldlRecOn (motive := fun x : Tile => x.scratch.wf = true) l f h fun x hx a _ => hf x hx a

theorem Tile.wf_writeBytes {x : Tile} (h : x.scratch.wf = true) (a : Nat) (bs : List Byte) : (x.writeBytes a bs).scratch.wf = true := by
  unfold Tile.writeBytes
  dsimp only
  split
  · exact Memory.writes_wf _ _ _ h
  · exact Memory.wf_foldl (fun m hm b _ => Memory.write_wf _ _ _ hm) h

theorem Canonical.watch (h : Canonical s) {d cc} : Canonical (s.watch d cc) := .ite h h.onMe

theorem Canonical.write (h : Canonical s) {b w} : Canonical (s.write b w) := by
  unfold State.write
  dsimp only
  split
  · exact h.sched
  · exact h.sched.watch

theorem Canonical.raise (h : Canonical s) {f} : Canonical (s.raise f) := h.onMe

/-! ### Running and waking -/

theorem Canonical.carry (h : Canonical s) {q p} : Canonical (s.carry q p) := by
  unfold State.carry
  split
  · exact h
  · exact h

theorem Canonical.spendOn (h : Canonical s) {t} : Canonical (s.spendOn t) := h.spend.onLaunch

theorem Canonical.stir (h : Canonical s) {t} : Canonical (s.stir t) := by
  unfold State.stir
  dsimp only
  split
  · exact h.onTile
  · exact .ite h h.onTile
  · exact h

theorem Canonical.leave (h : Canonical s) {t k} : Canonical (s.leave t k) := .ite h.onTile h.stir
theorem Canonical.wake (h : Canonical s) {t k} : Canonical (s.wake t k) := h.onStrand.stir
theorem Canonical.addFault (h : Canonical s) {t k due i} : Canonical (s.addFault t k due i) := .ite h.onStrand.stir h.onStrand.sched
theorem Canonical.fault (h : Canonical s) {o c e isw a} : Canonical (s.fault o c e isw a) := h.addFault
theorem Canonical.wakeSleepers (h : Canonical s) : Canonical s.wakeSleepers := h.each fun _ h => h.soon
theorem Canonical.wakeWhere (h : Canonical s) {t f} : Canonical (s.wakeWhere t f) := h.each fun _ h => h.sched

theorem Canonical.settleQueues (h : Canonical s) : Canonical s.settleQueues := by
  unfold State.settleQueues
  split
  · have hd : Canonical { s with dies := s.dies.map fun e => (e.1, e.2.settle) } :=
      h.of_dies (SMap.all_map (P := Die.Canonical) fun e he => h.dies e he)
    exact (hd.of_tiles (SMap.all_map (P := fun x : Tile => x.scratch.wf = true) fun e he =>
      (Tile.scratch_settle e.2).symm ▸ h.1 e he)).wakeSleepers
  · exact h

/-! ### The stacks -/

theorem Canonical.memRecord (h : Canonical s) {d off cause syms verdict rank} :
    Canonical (s.memRecord d off cause syms verdict rank) := h.onDie

theorem Canonical.health (h : Canonical s) {d r} : Canonical (s.health d r) := h.onDie
theorem Canonical.startTest (h : Canonical s) {u} : Canonical (s.startTest u) := .ite h h.sched
theorem Canonical.uncorrectable (h : Canonical s) {d off cause rank} : Canonical (s.uncorrectable d off cause rank) :=
  h.onDie.memRecord.startTest

theorem Canonical.noteRead (h : Canonical s) {d off n rank} : Canonical (s.noteRead d off n rank) :=
  .ite h (h.onDie.each fun _ h => h.uncorrectable)

theorem WholeLines.renew {x : Die} (h : WholeLines x) (f : Nat → Bool) : WholeLines (x.renew f) :=
  ⟨h.1, fun l hl => h.2.1 l (List.mem_filter.1 hl).1, fun e he => h.2.2 e (List.mem_filter.1 he).1⟩

/-- The bytes of lines cleared one after the other. -/
theorem Memory.wf_clears {m : Memory} (h : m.wf = true) (l : List Nat) : (l.foldl (fun m l => m.clear l (l + 128)) m).wf = true :=
  Memory.wf_foldl (fun _ hm _ _ => Memory.clear_wf _ _ _ hm) h

theorem Canonical.memWrite (h : Canonical s) {d off bs} : Canonical (s.memWrite d off bs) :=
  (h.onDie fun ⟨hm, hl⟩ => ⟨Memory.writes_wf _ _ _ (Memory.wf_clears hm _), hl.renew _⟩).each fun _ h => h.uncorrectable

/-! ### Counters -/

theorem Canonical.ctrNote (h : Canonical s) {d id} : Canonical (s.ctrNote d id) := .ite h h.noteRead
theorem Canonical.ctrSet (h : Canonical s) {d id v} : Canonical (s.ctrSet d id v) := .ite h.onDie h.memWrite

theorem Canonical.ctrRose (h : Canonical s) {d id} : Canonical (s.ctrRose d id) :=
  (Canonical.each (h.each fun _ h => h.onStrand.soon) fun _ h => by exact h).each (fun _ h => h.sched) |>.each fun _ h => h.sched

theorem Canonical.ctrAdd (h : Canonical s) {d id inc} (t : State) (ht : s.ctrAdd d id inc = some t) : Canonical t := by
  obtain ⟨-, ht⟩ := Option.ite_none_right_eq_some.1 ht
  exact Option.some.inj ht ▸ h.ctrNote.ctrSet.ctrRose

/-! ### Translation -/

theorem Canonical.migrate (h : Canonical s) {d page e rank} : Canonical (s.migrate d page e rank) := .ite h.onDie h

theorem Canonical.readTables (h : Canonical s) {c page} : Canonical (s.readTables c page) :=
  (h.each fun _ h => h.noteRead).onCluster

theorem Canonical.touch (h : Canonical s) {c va rank} : Canonical (s.touch c va rank) := by
  unfold State.touch
  dsimp only
  split
  · exact h
  · split
    · exact .ite h h.onCluster.migrate
    · split
      · split
        · exact h
        · exact .ite h h.onCluster.migrate
      · split
        · exact h
        · have hw := h.readTables.onCluster (f := fun x => { x with walks := x.walks ++ [{ s.walkOf c (va.toNat / 65536) with
            res := (s.walkOf c (va.toNat / 65536)).res.map (s.counted (c / 32)) }] }) (c := c) (s := s.readTables c (va.toNat / 65536))
          split
          · exact hw.soon
          · exact hw.migrate.soon

theorem Canonical.coreTouch (h : Canonical s) {t va} : Canonical (s.coreTouch t va) := by
  unfold State.coreTouch
  dsimp only
  split
  · exact h
  · exact h.touch
  · exact h.touch
  · exact h.touch.onTile

/-! ### The end of commands, releases -/

theorem Canonical.checkUnit (h : Canonical s) {t} : Canonical (s.checkUnit t) := .ite h.sched h

theorem Canonical.finish (h : Canonical s) {o e q} : Canonical (s.finish o e q) := by
  unfold State.finish
  dsimp only
  split
  · exact (Canonical.ite h.onStrand.onTile h.onStrand.onTile.soon).checkUnit
  · exact (Canonical.ite h.onStrand.onTile h.onStrand.onTile.stir).checkUnit

theorem Canonical.halted (h : Canonical s) {t k} : Canonical (s.halted t k) :=
  (Canonical.ite h.onStrand h.onStrand).stir.checkUnit.each fun _ h => h.sched

theorem Canonical.releasePoke (h : Canonical s) {t} : Canonical (s.releasePoke t) :=
  ((Canonical.ite h h.sched).each fun _ h => h.soon).onTile

theorem Canonical.settle (h : Canonical s) {t k} : Canonical (s.settle t k) :=
  .ite h ((Canonical.ite h.onStrand.halted h.onStrand.checkUnit).releasePoke.each fun _ h => .ite h.sched h)

theorem Canonical.entryDone (h : Canonical s) {o} : Canonical (s.entryDone o) := h.finish.onStrand.settle
theorem Canonical.entriesDone (h : Canonical s) {e} : Canonical (s.entriesDone e) := h.each fun _ h => h.entryDone
theorem Canonical.skip (h : Canonical s) {e cause xcause} : Canonical (s.skip e cause xcause) :=
  (Canonical.ite h.onTile.sched h.onTile).entriesDone
theorem Canonical.fabCause (h : Canonical s) {t cause} : Canonical (s.fabCause t cause) := h.onTile

theorem Canonical.publish (h : Canonical s) {c l} : Canonical (s.publish c l) :=
  (h.each fun _ h => h.onCluster fun hm => Memory.wf_foldl (fun _ hm _ _ => Memory.write_wf _ _ _ hm) hm).each
    fun _ h => h.each fun _ h => h.memWrite

theorem Canonical.performRelease (h : Canonical s) {t k rel} : Canonical (s.performRelease t k rel) := by
  unfold State.performRelease
  dsimp only
  split
  · exact h
  · split
    · exact h
    · split
      · exact h.publish.onStrand.settle
      · exact (Canonical.ite h.publish.onStrand.onStrand h.publish.onStrand.addFault).settle

theorem Canonical.ownFirst (h : Canonical s) {t k} : Canonical (s.ownFirst t k) := h.each fun _ h => h.performRelease

/-! ### The station -/

theorem Canonical.perform (h : Canonical s) {d e} : Canonical (s.perform d e) := by
  unfold State.perform
  dsimp only
  split
  · exact h.ownFirst.soon
  · exact .ite h.ownFirst.skip h.ownFirst.memWrite.entriesDone
  · exact .ite h.ownFirst.skip (.ite h.ownFirst.noteRead.skip h.ownFirst.noteRead.memWrite.entriesDone)

theorem Canonical.elsewhere (h : Canonical s) {e} : Canonical (s.elsewhere e) := by
  unfold State.elsewhere
  dsimp only
  split
  · exact h.spend.entriesDone
  · split
    · exact h.spend.skip
    · exact .ite h.spend.skip h.spend.skip
    · exact h.spend.addFault.entriesDone

theorem Canonical.cordHere (h : Canonical s) {c} : Canonical (s.cordHere c) :=
  .ite (h.each fun _ h => h.perform) (h.emit.each fun _ h => h.elsewhere)

theorem Canonical.foreign (h : Canonical s) {e off n copied} : Canonical (s.foreign e off n copied).2 := by
  unfold State.foreign
  split
  · exact h
  · exact h.spend

theorem Canonical.loadHere (h : Canonical s) {r now} : Canonical (s.loadHere r now) := by
  have hput {u : State} (hu : Canonical u) {cc slot e} {w : Write} :
      Canonical (if now then u.onTile r.org.tile fun x => x.commit r.org.strand w else u.sched cc slot e) :=
    .ite (hu.onTile fun hm => Tile.wf_commit hm _ _) hu.sched
  unfold State.loadHere
  dsimp only
  split
  · exact hput (.ite h.finish.noteRead.spend.addFault h.finish.noteRead)
  · exact hput h.finish.emit.foreign

theorem Canonical.setCord (h : Canonical s) {n : Nat} : Canonical { s with cordNext := n } := h

theorem Canonical.send (h : Canonical s) {d p} : Canonical (s.send d p) := by
  unfold State.send
  extract_lets x refused spent
  have hs : Canonical spent := h.carry.spend
  clear_value spent
  exact hs.setCord.soon

theorem Canonical.landPackets (h : Canonical s) {f now} : Canonical (s.landPackets f now) :=
  h.unsched.each fun p h => match p with
    | .cord _ => h.cordHere
    | .load _ => h.loadHere

theorem Canonical.depart (h : Canonical s) {d id evict} : Canonical (s.depart d id evict) := by
  unfold State.depart
  split
  · exact h
  · exact h.onDie.send

theorem Canonical.departWhere (h : Canonical s) {d f} : Canonical (s.departWhere d f) := h.each fun _ h => h.sched
theorem Canonical.flushing (h : Canonical s) {d peer launch} : Canonical (s.flushing d peer launch) := h.onDie

/-- The rick that leaves when the station has no room left. -/
theorem Canonical.evict (h : Canonical s) {d} : Canonical (match (s.die d).ricks with | [] => s | r :: _ => s.depart d r.id true) := by
  split
  · exact h
  · exact h.depart

theorem Canonical.place (h : Canonical s) {d launch p} : Canonical (s.place d launch p) := by
  unfold State.place
  extract_lets peer
  split
  · split
    · exact h.onDie
    · exact .ite h.onDie.depart h.onDie
  · rename_i made id age opened _ _
    have hm : Canonical made := .ite h h.evict
    have ho : Canonical opened := hm.onDie
    exact .ite ho.depart (.ite ho.sched ho.sched)

theorem Canonical.holderUpdate (h : Canonical s) {d peer frame add} : Canonical (s.holderUpdate d peer frame add) := .ite h.soon h.emit
theorem Canonical.dropCopies (h : Canonical s) {d f} : Canonical (s.dropCopies d f) := h.onDie.each fun _ h => h.holderUpdate
theorem Canonical.dropUncached (h : Canonical s) {d} : Canonical (s.dropUncached d) := .ite h.dropCopies h

theorem Canonical.copyFrame (h : Canonical s) {d e va} : Canonical (s.copyFrame d e va) := by
  unfold State.copyFrame
  extract_lets frame page first key out dropped noted
  have hd : Canonical dropped := by
    unfold dropped
    split
    · exact .ite h.spend.dropCopies h.spend
    · exact h
  have hn : Canonical noted := hd.onDie
  exact .ite h (.ite hn.holderUpdate hn)

theorem Canonical.remoteLoad (h : Canonical s) {r} : Canonical (s.remoteLoad r) := h.departWhere.sched

theorem Canonical.landStrand (h : Canonical s) {t k loads} : Canonical (s.landStrand t k loads) :=
  (h.each fun _ h => h.flushing.depart).landPackets

theorem Canonical.stationEntry (h : Canonical s) {kind va data dbl o issue} : Canonical (s.stationEntry kind va data dbl o issue) := by
  unfold State.stationEntry
  dsimp only
  split
  · exact h.touch.skip
  · exact .ite h.touch.skip (.ite h.touch.skip (.ite h.touch.skip h.touch.place))

theorem Canonical.stationAdd (h : Canonical s) {id inc peer o issue} : Canonical (s.stationAdd id inc peer o issue) :=
  .ite h.fault.entryDone (.ite h.fault.entryDone h.place)

theorem Canonical.stationLoad (h : Canonical s) {va size signed dest o due bundle own} :
    Canonical (s.stationLoad va size signed dest o due bundle own) := by
  unfold State.stationLoad
  dsimp only
  split
  · exact h.touch.finish.addFault
  · exact .ite h.touch.finish.addFault.fabCause (.ite h.touch.finish.addFault.fabCause
      (Canonical.ite (.ite h.touch.copyFrame h.touch) (Canonical.onStrand (.ite h.touch.copyFrame h.touch))).remoteLoad)

theorem Canonical.stationFlush (h : Canonical s) {all peer o} : Canonical (s.stationFlush all peer o) :=
  .ite h.departWhere h.flushing.departWhere

theorem Canonical.moveItem (h : Canonical s) (i : FabItem) : Canonical (s.moveItem i) := by
  cases i with
  | entry => exact h.stationEntry
  | remoteAdd => exact (Canonical.ite (h.landStrand.each fun _ h => h.performRelease) h).stationAdd
  | load => exact h.stationLoad
  | flush => exact h.stationFlush
  | drain => exact h.departWhere
  | group => exact h
  | reduce => exact h

theorem Canonical.moveItems (h : Canonical s) {t k} : Canonical (s.moveItems t k) := h.onTile.each fun i h => h.moveItem i
theorem Canonical.ownEntries (h : Canonical s) {t k va n} : Canonical (s.ownEntries t k va n) := .ite h.moveItems.landStrand h

theorem Canonical.releaseFor (h : Canonical s) {t k halts bar} : Canonical (s.releaseFor t k halts bar) := by
  unfold State.releaseFor
  extract_lets x id r folded queued due
  have hf : Canonical folded := h.onStrand
  have hq : Canonical queued := .ite hf.departWhere hf.onTile
  have hd : Canonical due := .ite hq hq.soon
  exact hd.settle

theorem Canonical.release (h : Canonical s) {t k halts} : Canonical (s.release t k halts) := h.releaseFor
theorem Canonical.releaseIf (h : Canonical s) {rel} : Canonical (s.releaseIf rel) := .ite h.release h

/-! ### Flushes, traps and waits -/

theorem Canonical.landWrites (h : Canonical s) {t k} : Canonical (s.landWrites t k) :=
  (h.unsched.onTile fun hm => Tile.wf_foldl (fun _ hm _ => Tile.wf_commit hm _ _) hm).onStrand

theorem Canonical.flush (h : Canonical s) {t k} : Canonical (s.flush t k) :=
  (h.moveItems.landStrand.unsched.each fun _ h => h.loadHere).landWrites

theorem Canonical.endLaunch (h : Canonical s) {q code} : Canonical (s.endLaunch q code) := h.onLaunch.sched
theorem Canonical.leaveGang (h : Canonical s) {t k} : Canonical (s.leaveGang t k) := .ite h h

theorem Canonical.takeTrap (h : Canonical s) {t k i} : Canonical (s.takeTrap t k i) := by
  have hr : Canonical (((s.flush t k).leaveGang t k).onTile t fun y =>
      y.writeBytes (((s.flush t k).leaveGang t k).strand t k).trap.area (trapRecord ((s.flush t k).leaveGang t k).cc t k 0 0 0 i)) :=
    h.flush.leaveGang.onTile fun hm => Tile.wf_writeBytes hm _ _
  unfold State.takeTrap
  dsimp only
  split
  · split
    · exact hr.health.onStrand.leave.checkUnit
    · exact hr.health.onStrand.endLaunch.leave.checkUnit
  · exact hr.onStrand.leave

theorem Canonical.trapHere (h : Canonical s) {c a i} : Canonical (s.trapHere c a i) := h.spend.takeTrap

theorem Canonical.addPanelFault (h : Canonical s) {t k due i} : Canonical (s.addPanelFault t k due i) := by
  unfold State.addPanelFault
  split
  · exact h.addFault
  · exact .ite h h.onStrand

theorem Canonical.scatterFault (h : Canonical s) {c due f} : Canonical (s.scatterFault c due f) := h.each fun _ h => h.addPanelFault

theorem Canonical.join (h : Canonical s) {t k sc ss gang} : Canonical (s.join t k sc ss gang) := by
  unfold State.join
  dsimp only
  split
  · exact h
  · exact h

theorem Canonical.departAll (h : Canonical s) {t k} : Canonical (s.departAll t k) := .ite h.departWhere h.departWhere.onTile

theorem Canonical.startWait (h : Canonical s) {t k} (w : Wait) : Canonical (s.startWait t k w) := by
  cases w with
  | barrier => exact h.join
  | gang => exact h.onStrand.join
  | engines => exact .ite h.departAll h
  | sleep => exact h.sched
  | region => exact h.onStrand (n := t) (k := k) (f := fun x => { x with regionDue := x.regionDue.or (some (s.dueCc 2046)) })
  | _ => exact h

theorem Canonical.blockOn (h : Canonical s) {w} : Canonical (s.blockOn w) := (h.onMe.startWait w).leave

/-! ### Answers -/

/-- An answer that is a state answers one in canonical form. -/
def CanonicalResult : Result → Prop
  | .next t => Canonical t
  | _ => True

theorem CanonicalResult.next (h : Canonical s) : CanonicalResult (.next s) := h

theorem CanonicalResult.of_next {r : Result} (hr : CanonicalResult r) {t : State} (h : r = .next t) : Canonical t := by
  subst h
  exact hr

/-- What comes after an answer that is a state. -/
theorem CanonicalResult.bind {r : Result} {f : State → Result} : CanonicalResult r → (∀ t, Canonical t → CanonicalResult (f t)) →
    CanonicalResult (match r with | .next t => f t | r => r) := by
  intro hr hf
  cases r with
  | next t => exact hf t hr
  | fault | refused => exact hr

theorem Canonical.guarded (h : Canonical s) {pre : State → Check} {eff : State → State} (he : Canonical (eff s)) :
    CanonicalResult (guarded pre eff s) := by
  unfold Machine.guarded
  split
  · exact he
  · split
    · exact he
    · exact h.trapHere
    · exact h.blockOn

theorem Canonical.numbered (h : Canonical s) {e} : Canonical (s.numbered e) := h.onMe
theorem Canonical.command (h : Canonical s) {e entry} : Canonical (s.command e entry).2 := h.onMe
theorem Canonical.toStation (h : Canonical s) {i} : Canonical (s.toStation i) :=
  Canonical.onMyTile (.ite h.sched h)

end Sys2Proof.Machine
end

section
/-! SUPPORT. `Canonical` is kept by the engines of a tile: the array, the quilt, the streams. One rule per operation and one per
command word or event. -/
namespace Sys2Proof.Machine

-- One theorem at a time, as above: side by side they ask for more threads than the limit on memory admits.
set_option Elab.async false

variable {s : State}

/-! ### The array -/

theorem Canonical.setFmtA (h : Canonical s) {f} : Canonical (s.setFmtA f) := h.onMyTile
theorem Canonical.startArr (h : Canonical s) {f} : Canonical (s.startArr f) := h.onMe.onMyTile
theorem Canonical.raiseA (h : Canonical s) {t f} : Canonical (s.raiseA t f) := h.onTile
theorem Canonical.onArr (h : Canonical s) {t id f} : Canonical (s.onArr t id f) := h.onTile
theorem Canonical.arrDoneAt (h : Canonical s) {t c} : Canonical (s.arrDoneAt t c) := h.onTile.finish

theorem Canonical.engineFault (h : Canonical s) {c i start due} : Canonical (s.engineFault c i start due) :=
  .ite (.ite h.onStrand.onCluster.stir h.onStrand.scatterFault) h.addFault

theorem canonical_execAfmt (h : Canonical s) {aw af as_ ww wf ws nsub sp} : CanonicalResult (execAfmt aw af as_ ww wf ws nsub sp s) :=
  h.guarded h.setFmtA

theorem canonical_execWld (h : Canonical s) {beats first} : CanonicalResult (execWld beats first s) :=
  h.guarded h.startArr.onMyTile.sched

theorem canonical_execAswp (h : Canonical s) : CanonicalResult (execAswp s) := h.guarded h.onMyTile

theorem canonical_execStrm (h : Canonical s) {beats first} : CanonicalResult (execStrm beats first s) :=
  h.guarded h.startArr.onMyTile.sched.sched

theorem canonical_execDrn (h : Canonical s) {beats zr o first} : CanonicalResult (execDrn beats zr o first s) :=
  h.guarded h.startArr.onMyTile.sched.sched

theorem canonical_execAclr (h : Canonical s) {beats first} : CanonicalResult (execAclr beats first s) :=
  h.guarded h.startArr.onMyTile.sched

theorem canonical_execAgng (h : Canonical s) {chain} : CanonicalResult (execAgng chain s) := h.guarded h.onMyTile
theorem canonical_execAsta (h : Canonical s) {clr} : CanonicalResult (execAsta clr s) := .next (.ite h.write.onMyTile h.write)
theorem canonical_execKsa (h : Canonical s) {a i ext} : CanonicalResult (execKsa a i ext s) := .next h.onMyTile
theorem canonical_execKsw (h : Canonical s) {a c i ext} : CanonicalResult (execKsw a c i ext s) := .next h.onMyTile
theorem canonical_execKso (h : Canonical s) {a i ext} : CanonicalResult (execKso a i ext s) := .next h.onMyTile
theorem canonical_execKclr (h : Canonical s) : CanonicalResult (execKclr s) := .next h.onMyTile

theorem canonical_execWldBeat (h : Canonical s) {t beat} : CanonicalResult (execWldBeat t beat s) := by
  refine .next ?_
  split
  · exact h
  · exact .ite h.arrDoneAt (Canonical.onTile h.spendOn).raiseA.sched

theorem canonical_execStrmBeat (h : Canonical s) {t beat} : CanonicalResult (execStrmBeat t beat s) := by
  refine .next ?_
  split
  · exact h
  · refine .ite h ?_
    extract_lets x row sums raised k0 added summed asked
    have hr : Canonical raised := h.spendOn.raiseA.onArr
    have hd : Canonical added := hr.onTile
    have hs : Canonical summed := .ite hr.onTile (.ite hd.onTile hd)
    have ha : Canonical asked := by
      unfold asked
      split
      · exact hs
      · exact hs.soon
    exact ha.sched

theorem canonical_execStrmRowsFinal (h : Canonical s) {t cmd} : CanonicalResult (execStrmRowsFinal t cmd s) := by
  refine .next ?_
  split
  · exact h
  · have hd {c} : Canonical (s.spend.arrDoneAt t c) := h.spend.arrDoneAt
    exact .ite (Canonical.ite hd.engineFault hd).engineFault (.ite hd.engineFault hd)

theorem canonical_execDrnBeat (h : Canonical s) {t beat} : CanonicalResult (execDrnBeat t beat s) := by
  refine .next ?_
  split
  · exact h
  · split
    · exact .ite h (Canonical.ite h.raiseA.onArr.onTile h.raiseA.onArr).sched
    · exact h

theorem canonical_execDrnOutputFinal (h : Canonical s) {t cmd} : CanonicalResult (execDrnOutputFinal t cmd s) := by
  refine .next ?_
  split
  · exact h
  · exact (h.onTile fun hm => Tile.wf_foldl (fun _ hm _ => Tile.wf_writeBytes hm _ _) hm).arrDoneAt

theorem canonical_execAclrBeat (h : Canonical s) {t beat} : CanonicalResult (execAclrBeat t beat s) := by
  refine .next ?_
  split
  · exact h
  · exact .ite h.arrDoneAt h.onTile.sched

/-! ### The quilt -/

theorem Tile.wf_setQRecord {x : Tile} (h : x.scratch.wf = true) (b : Nat) (l : List Byte) : (x.setQRecord b l).scratch.wf = true := by
  unfold Tile.setQRecord
  split
  · exact h
  · exact h

/-- A tile's part of `Canonical`. -/
def Tile.Canonical (x : Tile) : Prop := x.scratch.wf = true

theorem Tile.Canonical.quiltFault {x : Tile} (h : x.Canonical) {cc f} : (x.quiltFault cc f).Canonical := h
theorem Tile.Canonical.setQarray {x : Tile} (h : x.Canonical) {a} : (x.setQarray a).Canonical := h

theorem Canonical.foldTile {α : Type} (h : Canonical s) {t : Nat} {l : List α} {f : Tile → α → Tile} {g : Tile → Tile}
    (hg : ∀ x : Tile, x.Canonical → (g x).Canonical) (hf : ∀ (x : Tile) a, x.Canonical → (f x a).Canonical) :
    Canonical (s.onTile t fun x => l.foldl f (g x)) :=
  h.onTile fun hm => List.foldlRecOn (motive := Tile.Canonical) l f (hg _ hm) fun x hx a _ => hf x a hx

theorem Tile.wf_quiltBeat {x : Tile} (h : x.scratch.wf = true) (c : QCmd) (cc b : Nat) : (x.quiltBeat c cc b).scratch.wf = true := by
  unfold Tile.quiltBeat
  split
  case h_1 =>
    dsimp only
    split
    · exact h
    · exact h
  case h_3 => exact Tile.wf_writeBytes h _ _
  case h_4 => exact Tile.wf_setQRecord h _ _
  all_goals exact h

theorem Canonical.startQuilt (h : Canonical s) {op n first} : Canonical (s.startQuilt op n first) := h.onMe.onMyTile.sched
theorem Canonical.startBeats (h : Canonical s) {op n first} : Canonical (s.startBeats op n first) := h.startQuilt.sched
theorem Canonical.keepOld (h : Canonical s) {t c beat} : Canonical (s.keepOld t c beat) := .ite h h.onTile

theorem canonical_execQpat (h : Canonical s) {cells first} : CanonicalResult (execQpat cells first s) := h.guarded h.startBeats
theorem canonical_execQldy (h : Canonical s) {cells first} : CanonicalResult (execQldy cells first s) := h.guarded h.startBeats
theorem canonical_execQdom (h : Canonical s) {d} : CanonicalResult (execQdom d s) := h.guarded h.onMyTile

theorem canonical_execQstp (h : Canonical s) {steps d mask} : CanonicalResult (execQstp steps d mask s) := by
  refine h.guarded ?_
  dsimp only
  split
  · exact h.startQuilt
  · exact h.startQuilt.sched

theorem canonical_execQsav (h : Canonical s) : CanonicalResult (execQsav s) := h.guarded h.startBeats
theorem canonical_execQrst (h : Canonical s) : CanonicalResult (execQrst s) := h.guarded h.startBeats
theorem canonical_execQrdv (h : Canonical s) {blk d} : CanonicalResult (execQrdv blk d s) := h.guarded h.startQuilt.write

theorem canonical_execQsta (h : Canonical s) {clr} : CanonicalResult (execQsta clr s) :=
  .next (.ite (h.write.onMyTile fun hm => by split <;> exact hm) h.write)

theorem canonical_execQuiltBeat (h : Canonical s) {t beat} : CanonicalResult (execQuiltBeat t beat s) := by
  refine .next ?_
  split
  · exact h
  · refine .ite h ?_
    extract_lets done
    have hd : Canonical done := h.keepOld.onTile fun hm => Tile.wf_quiltBeat hm _ _ _
    exact .ite hd.sched hd

theorem canonical_execQuiltStepCycle (h : Canonical s) {t offset} : CanonicalResult (execQuiltStepCycle t offset s) := by
  refine .next ?_
  split
  · exact h
  · split
    · split
      · exact h
      · extract_lets x E r stepped
        clear_value r
        have hs : Canonical stepped := h.foldTile (fun _ h => h.setQarray) fun _ _ h => h.quiltFault
        split
        · exact hs
        · exact hs.sched
    · exact h

theorem canonical_execQuiltCommandComplete (h : Canonical s) {t} : CanonicalResult (execQuiltCommandComplete t s) := by
  refine .next ?_
  split
  · exact h
  · refine .ite h ?_
    dsimp only
    split
    · exact h.onTile.finish
    · exact h.onTile.finish.engineFault

/-! ### The engines' way to memory -/

theorem Canonical.touchAll (h : Canonical s) {c va n} : Canonical (s.touchAll c va n) := h.each fun _ h => h.touch

theorem Canonical.readPiece (h : Canonical s) {d p} : Canonical (s.readPiece d p).1 := by
  unfold State.readPiece
  extract_lets copied off home b
  have hc : Canonical copied := .ite h.copyFrame h
  split
  · exact hc.noteRead
  · exact hc.foreign

/-- `engReadGlobal` after the translation. -/
def State.readPieces (s : State) (c va n : Nat) : Except ElemErr (List Piece) → Except ElemErr (State × List Byte × Option Nat)
  | .error e => .error e
  | .ok ps => .ok (ps.foldl (fun a p =>
      let r := a.1.readPiece (c / 32) p
      (r.1, a.2.1 ++ r.2.1, a.2.2.or r.2.2)) (s.touchAll c va n, [], none))

theorem engReadGlobal_eq (s : State) (c va n : Nat) : s.engReadGlobal c va n = s.readPieces c va n (s.pieces c va n) := rfl

theorem Canonical.readPieces (h : Canonical s) {c va n ps r} (hr : s.readPieces c va n ps = .ok r) : Canonical r.1 := by
  cases ps with
  | error e => cases hr
  | ok ps =>
    obtain rfl := Except.ok.inj hr
    exact CanonicalFst.foldl h.touchAll fun p _ hp => Canonical.readPiece (s := p.1) hp

theorem Canonical.engReadGlobal (h : Canonical s) {c va n r} (hr : s.engReadGlobal c va n = .ok r) : Canonical r.1 :=
  h.readPieces (engReadGlobal_eq .. ▸ hr)

theorem Canonical.writePiece (h : Canonical s) {p bs} : Canonical (s.writePiece p bs) := .ite h.memWrite h.emit

theorem Canonical.engWriteGlobal (h : Canonical s) {c va bs t} (ht : s.engWriteGlobal c va bs = .ok t) : Canonical t := by
  unfold State.engWriteGlobal at ht
  cases hp : s.writePieces c va bs.length with
  | error => rw [hp] at ht; cases ht
  | ok ps =>
    rw [hp] at ht
    exact Except.ok.inj ht ▸ h.touchAll.each fun _ h => h.writePiece

/-! ### Streams -/

theorem Canonical.enqueue (h : Canonical s) {op k shd src dst desc} : Canonical (s.enqueue op k shd src dst desc) :=
  Canonical.sched (Canonical.onMyTile (Canonical.spendOn h.onMe))

theorem Canonical.readElem (h : Canonical s) {t c a n r} (hr : s.readElem t c a n = .ok r) : Canonical r.1 := by
  unfold State.readElem at hr
  split at hr
  · exact h.engReadGlobal hr
  · exact Except.ok.inj hr ▸ h
  · exact Except.ok.inj hr ▸ h.spendOn
  · split at hr
    · exact Except.ok.inj hr ▸ h.spendOn
    · exact Except.ok.inj hr ▸ h.spend

theorem Tile.wf_engWrite {x : Tile} (h : x.scratch.wf = true) (shd : Bool) (a : Nat) (bs : List Byte) :
    (x.engWrite shd a bs).scratch.wf = true := by
  unfold Tile.engWrite
  split
  · exact h
  · split
    · exact Tile.wf_writeBytes h _ _
    · refine Tile.wf_foldl (fun y hy b => ?_) h
      split
      · exact hy
      · exact Tile.wf_writeBytes hy _ _

theorem Canonical.writeElem (h : Canonical s) {t c a bs u} (hu : s.writeElem t c a bs = .ok u) : Canonical u := by
  unfold State.writeElem at hu
  split at hu
  · exact h.engWriteGlobal hu
  · exact Except.ok.inj hu ▸ h.onCluster fun hm => Memory.writes_wf _ _ _ hm
  · exact Except.ok.inj hu ▸ h.onTile fun hm => Tile.wf_engWrite hm _ _ _
  · split at hu
    · exact Except.ok.inj hu ▸ h.onTile fun hm => Tile.wf_engWrite hm _ _ _
    · exact Except.ok.inj hu ▸ h.emit

theorem canonical_copyElem {p : Progress} (h : Canonical p.s) {t c size e} : Canonical (copyElem t c size p e).s := by
  unfold copyElem
  dsimp only
  split
  · exact h
  · split
    · exact h
    · rename_i u bs bad hr
      have hu : Canonical u := by
        split at hr
        · cases hr
          exact h
        · exact h.readElem hr
      split
      · exact hu
      · rename_i v hw
        split
        · exact hu.writeElem hw
        · exact hu.writeElem hw

theorem canonical_tapElem {p : Progress} (h : Canonical p.s) {t c cb row e} : Canonical (tapElem t c cb row p e).s := by
  have hw {u : State} (hu : Canonical u) {a bs} : Canonical (u.onTile t fun x => x.engWrite c.shd a bs) :=
    hu.onTile fun hm => Tile.wf_engWrite hm _ _ _
  unfold tapElem
  split
  · exact hw h
  · split
    · exact h
    · rename_i hr
      dsimp only
      split
      · exact hw (h.readElem hr)
      · exact hw (h.readElem hr)

/-- A command's elements one after the other. -/
theorem canonical_elems {α : Type} {f : Progress → α → Progress} (hf : ∀ p e, Canonical p.s → Canonical (f p e).s) {l : List α}
    {p : Progress} (h : Canonical p.s) : Canonical (l.foldl f p).s :=
  List.foldlRecOn (motive := fun p : Progress => Canonical p.s) l f h fun p hp e _ => hf p e hp

theorem Canonical.arrive (h : Canonical s) {t c sizes} : Canonical (s.arrive t c sizes) := .ite h.emit (h.each fun _ h => h.sched)

theorem Canonical.completionAdd (h : Canonical s) {t c} : Canonical (s.completionAdd t c).1 := by
  unfold State.completionAdd
  dsimp only
  split
  · exact h
  · split
    · exact h.emit
    · split
      · rename_i u hu
        exact h.ctrAdd u hu
      · exact h

theorem Canonical.streamFault (h : Canonical s) {t c e n refused} : Canonical (s.streamFault t c e n refused) := h.onTile.fault
theorem Canonical.streamLeave (h : Canonical s) {t c} : Canonical (s.streamLeave t c) := h.onTile.finish.sched

theorem Canonical.streamDone (h : Canonical s) {t c err n} : Canonical (s.streamDone t c err n) := by
  have ha : Canonical ((s.completionAdd t c).1.onTile t fun x => { x with sDone := x.sDone + 1 }) := h.completionAdd.onTile
  unfold State.streamDone
  dsimp only
  split
  · exact ha.streamFault.streamLeave
  · exact ha.streamFault.streamLeave
  · exact ha.streamLeave

theorem Canonical.streamFirst (h : Canonical s) {t c} : Canonical (s.streamFirst t c) := by
  unfold State.streamFirst
  split
  case h_3 => exact .ite h.sched h.soon
  case h_4 | h_5 | h_6 => exact .ite h.sched h.soon
  all_goals exact h.soon

theorem canonical_execDcpy (h : Canonical s) {k shd src dst} : CanonicalResult (execDcpy k shd src dst s) := h.guarded h.enqueue
theorem canonical_execDunf (h : Canonical s) {k shd src dst} : CanonicalResult (execDunf k shd src dst s) := h.guarded h.enqueue
theorem canonical_execDpubInit (h : Canonical s) {k pair} : CanonicalResult (execDpubInit k pair s) := h.guarded h.enqueue
theorem canonical_execDpub (h : Canonical s) {k pair} : CanonicalResult (execDpub k pair s) := h.guarded h.enqueue
theorem canonical_execDfil (h : Canonical s) {k shd src dst} : CanonicalResult (execDfil k shd src dst s) := h.guarded h.enqueue
theorem canonical_execDgth (h : Canonical s) {k shd src dst} : CanonicalResult (execDgth k shd src dst s) := h.guarded h.enqueue

theorem canonical_execDsta (h : Canonical s) {clr} : CanonicalResult (execDsta clr s) :=
  .next (.ite (h.write.onMyTile fun hm => by split <;> exact hm) h.write)

theorem canonical_execStreamCommandComplete (h : Canonical s) {t cmd} : CanonicalResult (execStreamCommandComplete t cmd s) := by
  refine .next ?_
  split
  · exact h
  · refine .ite h.sched ?_
    split
    · exact h.onTile.streamDone
    · exact h.streamDone
    · extract_lets size flushed r folded told
      have hf : Canonical folded :=
        Canonical.onStrand (canonical_elems (fun _ _ h => canonical_copyElem h) (Canonical.spendOn h.ownFirst))
      have ht : Canonical told := .ite hf.arrive hf
      exact ht.streamDone

theorem canonical_execStreamCommandStart (h : Canonical s) {t} : CanonicalResult (execStreamCommandStart t s) := by
  refine .next ?_
  split
  · exact h
  · refine .ite h ?_
    extract_lets left c begun
    have hl : Canonical left := h.onTile.stir
    have hb : Canonical begun := .ite hl.carry hl
    split
    · exact hb.streamFault.streamLeave
    · exact (Canonical.onTile hb.sched).streamFirst

theorem canonical_execArrival (h : Canonical s) {t addr bytes} : CanonicalResult (execArrival t addr bytes s) := by
  unfold execArrival
  extract_lets x r written hit
  have hw : Canonical written := h.onTile fun hm => by
    split
    · exact hm
    · exact Tile.wf_writeBytes hm _ _
  exact .next (hw.each fun _ h => h.soon)

theorem canonical_execDunfRow (h : Canonical s) {t cmd row} : CanonicalResult (execDunfRow t cmd row s) := by
  unfold execDunfRow
  refine CanonicalResult.next ?_
  split
  · exact h
  · rename_i c _
    extract_lets u base used flushed r filled noted told
    split
    · exact h
    split
    · exact h
    have hf : Canonical flushed := h.ownFirst
    clear_value flushed
    have hr : Canonical r.s := by exact canonical_elems (f := tapElem t c u.cb base) (fun _ _ h => canonical_tapElem h) hf.spendOn
    clear_value r
    have hn : Canonical noted := Canonical.onTile (hr.onTile fun hm => Tile.wf_engWrite hm _ _ _)
    clear_value noted
    have ht : Canonical told := .ite hn.arrive hn
    exact .ite ht.sched ht.soon

theorem canonical_execPublishSwap (h : Canonical s) {t cmd} : CanonicalResult (execPublishSwap t cmd s) := by
  refine .next ?_
  split
  · exact h
  · split
    · refine .ite h.sched ?_
      split
      · exact h.sched
      · exact h.onTile.streamDone
    · exact h

end Sys2Proof.Machine
end

section
/-! SUPPORT. `Canonical` is kept by the kiln, the way splits, the synchronisation words, scalar memory and control, the fabric and
collectives. One rule per operation and one per command word or event. -/
namespace Sys2Proof.Machine

-- One theorem at a time, as above: side by side they ask for more threads than the limit on memory admits.
set_option Elab.async false

variable {s : State}

/-! ### Kilns -/

theorem Canonical.toKiln (h : Canonical s) {op cnt bf} : Canonical (s.toKiln op cnt bf) := h.onMe.onCluster.sched
theorem Canonical.kilnFault (h : Canonical s) {k cause x skip refused addr} : Canonical (s.kilnFault k cause x skip refused addr) := h.fault
theorem Canonical.kilnLeave (h : Canonical s) {c k} : Canonical (s.kilnLeave c k) := h.onCluster.finish.sched

theorem CanonicalFst.masterElem {r : KRun} (h : CanonicalFst r) {s0 c i u0 fl} : CanonicalFst (masterElem s0 c i u0 fl r) := by
  unfold Machine.masterElem
  extract_lets x cfg a w t flagged
  have hf : CanonicalFst flagged := h
  split
  · exact h
  · split
    · exact h
    · split
      · exact hf
      · split
        · exact hf
        · rename_i m _
          have hc : CanonicalFst (if m.2 then flagged.clamped else flagged) := by
            split
            · exact hf
            · exact hf
          exact Canonical.onCluster hc fun hm => Memory.writes_wf _ _ _ hm

theorem CanonicalFst.readMoment {r : KRun} (h : CanonicalFst r) {s0 d off va} : CanonicalFst (readMoment s0 d off va r).1 := by
  have hn : Canonical (r.1.noteRead d off 4) := Canonical.noteRead h
  unfold Machine.readMoment
  dsimp only
  split
  · exact hn
  · exact hn

theorem CanonicalFst.kilnElem {r : KRun} (h : CanonicalFst r) {s0 c i} : CanonicalFst (kilnElem s0 c r i) := by
  unfold Machine.kilnElem
  extract_lets k d a1 a2 w skip x w0
  split
  · exact h.masterElem
  · split
    · exact h
    · exact h
    · rename_i o1 o2 _ _
      split
      · exact h
      · split
        · exact h
        · have h1 := h.readMoment (s0 := s0) (d := d) (off := o1) (va := a1)
          generalize Machine.readMoment s0 d o1 a1 r = q1 at h1 ⊢
          obtain ⟨r1, m1⟩ := q1
          have h2 := CanonicalFst.readMoment h1 (s0 := s0) (d := d) (off := o2) (va := a2)
          dsimp only at h2 ⊢
          generalize Machine.readMoment s0 d o2 a2 r1 = q2 at h2 ⊢
          obtain ⟨r2, m2⟩ := q2
          split
          · exact CanonicalFst.masterElem h2
          · split
            · exact h2
            · unfold CanonicalFst
              dsimp only
              refine Canonical.onStrand (Canonical.memWrite (Canonical.memWrite ?_))
              exact h2
    · exact h

theorem canonical_execUpcf (h : Canonical s) : CanonicalResult (execUpcf s) := h.guarded h.toKiln
theorem canonical_execUpdm (h : Canonical s) {mom cnt bf} : CanonicalResult (execUpdm mom cnt bf s) := h.guarded h.toKiln
theorem canonical_execUpmo (h : Canonical s) {cnt bf} : CanonicalResult (execUpmo cnt bf s) := h.guarded h.toKiln
theorem canonical_execUpst (h : Canonical s) {clr} : CanonicalResult (execUpst clr s) := .next (.ite h.write.onCluster h.write)

theorem canonical_execKilnCommandStart (h : Canonical s) {c} : CanonicalResult (execKilnCommandStart c s) := by
  refine .next ?_
  split
  · refine .ite h ?_
    extract_lets begun woken
    have hw : Canonical woken := h.onCluster.each fun _ h => h.wakeWhere
    split
    · clear_value woken
      exact .ite hw.kilnFault.kilnLeave (Canonical.onCluster hw).kilnLeave
    · split
      · exact hw.kilnFault.kilnLeave
      rename_i touched r _ _ _
      have ht : Canonical touched := .ite (hw.ownFirst.each fun _ h => h.touch) hw.ownFirst
      have hr : CanonicalFst r := CanonicalFst.foldl ht fun _ _ h => h.kilnElem
      exact (Canonical.onCluster hr).soon
  · exact h

/-- The counter add of a kiln command, in the state with its status added. -/
theorem Canonical.kilnAdd (h : Canonical s) {p : Bool} {d id inc} : Canonical (if p then (s, true) else
    match s.ctrAdd d id inc with | some u => (u, true) | none => (s, false)).1 := by
  split
  · exact h
  · split
    · rename_i u hu
      exact h.ctrAdd u hu
    · exact h

theorem canonical_execKilnCommandComplete (h : Canonical s) {c} : CanonicalResult (execKilnCommandComplete c s) := by
  refine .next ?_
  split
  · exact h
  · refine .ite h.sched ?_
    extract_lets told id
    split
    rename_i u ok hu
    have hu : Canonical (u, ok).1 := hu ▸ Canonical.kilnAdd (s := told) h.onCluster
    split
    · exact hu.kilnFault.kilnLeave
    · exact hu.kilnFault.kilnLeave
    · exact hu.kilnLeave

/-! ### Way splits -/

theorem canonical_execSplt (h : Canonical s) {a} : CanonicalResult (execSplt a s) := h.guarded h.numbered.onMe.onMe.onCluster.sched

theorem canonical_execSpltDrain (h : Canonical s) {c} : CanonicalResult (execSpltDrain c s) := by
  refine .next ?_
  split
  · exact h
  · exact .ite h.sched h.soon

theorem canonical_execSpltComplete (h : Canonical s) {c} : CanonicalResult (execSpltComplete c s) := by
  refine .next ?_
  split
  · exact h
  · refine Canonical.each (Canonical.sched (Canonical.stir (Canonical.onStrand (Canonical.dropUncached (h.onCluster ?_))))) fun _ h => h.sched
    exact fun hm => Memory.wf_filter _ _ hm

/-! ### Synchronisation -/

theorem Canonical.yWord (h : Canonical s) : Canonical s.yWord := h.numbered.onMe

theorem canonical_execCadd (h : Canonical s) {a b rel} : CanonicalResult (execCadd a b rel s) := by
  have hq : Canonical (((s.releaseIf rel).onMe Strand.unsplit).command 6 false).2 := h.releaseIf.onMe.command
  exact h.guarded (.ite hq.onMyTile.soon hq.onMyTile)

theorem canonical_execCaddRemote (h : Canonical s) {a b rel peer} : CanonicalResult (execCaddRemote a b rel peer s) :=
  h.guarded (Canonical.toStation (Canonical.onMe h.releaseIf.yWord))

theorem canonical_execCrd (h : Canonical s) {a d} : CanonicalResult (execCrd a d s) := h.guarded h.ctrNote.yWord.write

theorem canonical_execAarm (h : Canonical s) {a b} : CanonicalResult (execAarm a b s) :=
  h.guarded (h.yWord.onMyTile fun hm => Tile.wf_writeBytes hm _ _)

theorem canonical_execBar (h : Canonical s) {ss scope} : CanonicalResult (execBar ss scope s) :=
  h.guarded (.ite h.yWord.onMe.spend.fault h.yWord.onMe)

theorem canonical_execFen (h : Canonical s) {mask} : CanonicalResult (execFen mask s) := h.guarded h.yWord
theorem canonical_execDgsOn (h : Canonical s) : CanonicalResult (execDgsOn s) := .next h.yWord.onMe
theorem canonical_execDgsOff (h : Canonical s) : CanonicalResult (execDgsOff s) := .next h.yWord.onMe
theorem canonical_execDgsRd (h : Canonical s) {g} : CanonicalResult (execDgsRd g s) := .next h.yWord.write.write
theorem canonical_execDgsFold (h : Canonical s) {a b} : CanonicalResult (execDgsFold a b s) := .next h.yWord.onMe

theorem canonical_execReleaseComplete (h : Canonical s) {t k rel} : CanonicalResult (execReleaseComplete t k rel s) :=
  .next (h.each fun _ h => h.performRelease)

theorem canonical_execPendingWriteComplete (h : Canonical s) {t k w} : CanonicalResult (execPendingWriteComplete t k w s) :=
  .next (h.onTile fun hm => Tile.wf_commit hm _ _)

theorem canonical_execWaitSatisfied (h : Canonical s) {t k} : CanonicalResult (execWaitSatisfied t k s) := .next (.ite h.wake h.stir)

theorem canonical_execCounterAdd (h : Canonical s) {d id inc adder} : CanonicalResult (execCounterAdd d id inc adder s) := by
  have ha : Canonical ((s.ctrAdd d id inc).getD s) := h.getD h.ctrAdd
  unfold execCounterAdd
  refine .next ?_
  dsimp only
  split
  · exact ha
  · exact .ite ha ha.hostErr
  · exact Canonical.finish (.ite ha.onTile.wakeWhere ha.onTile.wakeWhere.fault)
  · exact Canonical.entryDone (.ite ha ha.fault)
  · exact .ite ha ha.onTile

theorem Canonical.formPanel (h : Canonical s) {b} : Canonical (s.formPanel b) :=
  Canonical.onCluster (Canonical.each h fun _ h => by exact h.onTile)

theorem Canonical.passBarrier (h : Canonical s) {b} : Canonical (s.passBarrier b) := by
  unfold State.passBarrier
  extract_lets ss mixed
  split
  · exact h
  · rename_i n counted _ l _
    extract_lets covers bad passed
    have hp : Canonical passed := by
      refine Canonical.each (s := counted) h fun j hs => ?_
      extract_lets gone woken
      have hw : Canonical woken := .ite hs.onStrand.wake hs.onStrand
      exact (hw.each fun _ h => h.addFault).onStrand
    exact .ite hp.sched hp

theorem canonical_execBarrierComplete (h : Canonical s) {bar} : CanonicalResult (execBarrierComplete bar s) := by
  refine .next ?_
  split
  · exact h
  · rename_i b _
    refine .ite h ?_
    extract_lets onBar
    have hb {u : State} (hu : Canonical u) {f} : Canonical (onBar u f) := hu
    split
    · exact .ite h (((hb h).each fun _ h => h.releaseFor).sched)
    · split
      · exact .ite (hb h).soon h
      · refine .ite h ?_
        rename_i left _ _ _ _
        have hl : Canonical left := h
        exact .ite (.ite hl.formPanel (hb h)) hl.passBarrier

theorem canonical_execPageWalkComplete (h : Canonical s) {c page} : CanonicalResult (execPageWalkComplete c page s) := by
  refine .next ?_
  split
  · exact h
  · extract_lets left filled
    have hl : Canonical left := h.onCluster
    have hf : Canonical filled := by
      unfold filled
      split
      · exact hl
      · exact .ite hl hl.onCluster
    exact hf.each fun _ h => h.wakeWhere.releasePoke

end Sys2Proof.Machine
end

section
/-! SUPPORT. `Canonical` is kept by scalar memory and control, the fabric and collectives. One rule per operation and one per
command word or event. -/
namespace Sys2Proof.Machine

-- One theorem at a time, as above: side by side they ask for more threads than the limit on memory admits.
set_option Elab.async false

variable {s : State}

/-! ### Scalar memory -/

theorem Canonical.lateXlate (h : Canonical s) {ea cause level miss} : Canonical (s.lateXlate ea cause level miss) := h.addFault

theorem Canonical.loadGlobal (h : Canonical s) {g ea size signed} : Canonical (s.loadGlobal g ea size signed) := by
  unfold State.loadGlobal
  extract_lets r near touched
  have ht : Canonical touched := h.coreTouch
  clear_value touched r
  split
  · exact ht
  · exact ht.watch.lateXlate
  · rename_i _ late _ e miss
    extract_lets off d far copied b read seen f
    have hl : Canonical late := .ite ht.moveItems ht
    have hc : Canonical copied := .ite ht.copyFrame ht
    clear_value late
    split
    · exact ht.watch.addFault
    · split
      · exact Canonical.remoteLoad (Canonical.onMe hl.watch)
      · split
        · have hr : Canonical read := hc.ownEntries.noteRead
          have hs : Canonical seen := .ite hr.spend.addFault hr
          exact hs.write
        · exact (Canonical.foreign hc).write

theorem Canonical.storeGlobal (h : Canonical s) {ea bs} : Canonical (s.storeGlobal ea bs) := by
  unfold State.storeGlobal
  extract_lets t
  split
  · exact h
  · exact h.coreTouch.lateXlate
  · split
    · exact h.coreTouch.lateXlate
    · split
      · split
        · exact h.coreTouch.lateXlate
        · exact Canonical.toStation (Canonical.onMe h.onMe)
      · exact h.coreTouch.onMe

theorem canonical_load (h : Canonical s) {size signed g b sp i ext} : CanonicalResult (load size signed g b sp i ext s) := by
  refine h.guarded ?_
  cases sp with
  | scratch => exact h.write
  | store => exact h.write
  | global => exact h.loadGlobal

theorem canonical_store (h : Canonical s) {size g b sp i ext} : CanonicalResult (store size g b sp i ext s) := by
  refine h.guarded ?_
  cases sp with
  | scratch => exact h.write
  | store => exact h.onMe
  | global => exact h.storeGlobal

theorem canonical_execDisc (h : Canonical s) {b i ext} : CanonicalResult (execDisc b i ext s) := .next (.ite h.onMe h)

/-! ### Control -/

theorem Canonical.transferTo (h : Canonical s) {w} : Canonical (s.transferTo w) := h
theorem canonical_execBr (h : Canonical s) {p n d} : CanonicalResult (execBr p n d s) := .next (.ite h.transferTo h)
theorem canonical_execJmp (h : Canonical s) {d} : CanonicalResult (execJmp d s) := .next h.transferTo
theorem canonical_execCall (h : Canonical s) {d} : CanonicalResult (execCall d s) := .next h.write.transferTo
theorem canonical_execJr (h : Canonical s) {a} : CanonicalResult (execJr a s) := h.guarded h.transferTo

theorem canonical_loopSet (h : Canonical s) {l n e} : Canonical (loopSet l n e s) := .ite h.onMe.onBun h.onMe.onMe

theorem canonical_execLset (h : Canonical s) {l g e} : CanonicalResult (execLset l g e s) := h.guarded (canonical_loopSet h)
theorem canonical_execLseti (h : Canonical s) {l n e} : CanonicalResult (execLseti l n e s) := h.guarded (canonical_loopSet h)
theorem canonical_execLexit (h : Canonical s) {l} : CanonicalResult (execLexit l s) := .next (.ite h.onMe h)
theorem canonical_execDly (h : Canonical s) {n} : CanonicalResult (execDly n s) := .next h.onBun

theorem canonical_execNode (h : Canonical s) {n} : CanonicalResult (execNode n s) := by
  refine h.guarded ?_
  dsimp only
  split
  · exact h
  · exact h.onMe.sched

theorem canonical_execSels (h : Canonical s) {g t} : CanonicalResult (execSels g t s) := by
  refine h.guarded ?_
  dsimp only
  split
  · exact h
  · split
    · exact h.transferTo
    · exact h.onMe.sched.transferTo

theorem canonical_execYield (h : Canonical s) : CanonicalResult (execYield s) := .next (.ite h h.onBun)
theorem canonical_execHalt (h : Canonical s) : CanonicalResult (execHalt s) := h.guarded h.onBun
theorem canonical_execTrap (h : Canonical s) {k} : CanonicalResult (execTrap k s) := .next h.onBun

theorem canonical_execGangEnter (h : Canonical s) : CanonicalResult (execGangEnter s) := h.guarded h.onMe

theorem Canonical.exitGang (h : Canonical s) : Canonical s.exitGang := by
  unfold State.exitGang
  extract_lets t c left told opened closed
  have hl : Canonical left := h.onMe
  have ht : Canonical told := .ite (hl.each fun _ h => h.scatterFault) hl
  have ho : Canonical opened := ht.onTile
  have hc : Canonical closed := ho.onCluster fun hm => by
    split
    · exact hm
    · split <;> exact hm
  exact hc.stir

theorem canonical_execGangExit (h : Canonical s) : CanonicalResult (execGangExit s) := h.guarded h.exitGang

/-! ### Collectives -/

theorem Canonical.stationGroup (h : Canonical s) {slot addr o} : Canonical (s.stationGroup slot addr o) := by
  unfold State.stationGroup
  extract_lets d q m bound r spent c noted
  have hn : Canonical noted := by
    unfold noted
    clear_value r
    split
    · exact Canonical.onDie h.spendOn
    · exact h.spendOn.addFault.fabCause
  exact hn.soon

theorem Canonical.onMember (h : Canonical s) {id f} : Canonical (s.onMember id f) := h

theorem Canonical.mlrResolve (h : Canonical s) {m} : Canonical (s.mlrResolve m) :=
  .ite h (h.each fun _ h => .ite (Canonical.onMember h) (.ite (Canonical.onMember h).soon (Canonical.onMember h).sched))

theorem Canonical.mlrJoin (h : Canonical s) {m} : Canonical (s.mlrJoin m) := by
  unfold State.mlrJoin
  extract_lets joined added told
  have ha : Canonical added := h
  have ht : Canonical told := .ite (ha.emit.each fun _ h => h.carry) ha
  exact ht.sched.mlrResolve

theorem canonical_execMlrJoin (h : Canonical s) {member} : CanonicalResult (execMlrJoin member s) := .next h.mlrJoin
theorem Canonical.mlrForget (h : Canonical s) {m} : Canonical (s.mlrForget m) := .ite h h

theorem canonical_execMlrJoinDeadline (h : Canonical s) {member} : CanonicalResult (execMlrJoinDeadline member s) := by
  refine .next ?_
  split
  · exact h
  · refine .ite h ?_
    extract_lets failed
    have hf : Canonical failed := h
    exact .ite hf.onMember.sched hf.onMember.mlrForget

/-- A member that cannot join: its completion reports the cause. -/
theorem Canonical.addMember (h : Canonical s) {m : List MlrMember} {n : Nat} : Canonical { s with mlrs := m, mlrNext := n } := h

theorem Canonical.stationReduce (h : Canonical s) {m} : Canonical (s.stationReduce m) := by
  -- The definition is unfolded as a function: the kernel compares its equation at arguments by evaluating the body.
  generalize hf : @State.stationReduce = f
  delta State.stationReduce at hf
  subst hf
  beta_reduce
  extract_lets +onlyGivenNames o d c fail
  have hfail {u : State} (hu : Canonical u) {cause x a} : Canonical (fail u cause x a) := hu.addMember.sched
  clear_value fail
  generalize SMap.find _ _ = group
  cases group with
  | none => exact hfail h
  | some g =>
    dsimp -zeta only
    extract_lets +onlyGivenNames round counted joined fexp
    have hc : Canonical counted := h.onDie
    clear_value counted joined fexp
    refine .ite (hfail hc) ?_
    extract_lets +onlyGivenNames out
    generalize lowestRange _ = range
    cases range with
    | some e => exact hfail hc.spend
    | none =>
      dsimp -zeta only
      extract_lets +onlyGivenNames flushed read
      have hread {u : State} (hu : Canonical u) {a n} : CanonicalFst (read u a n) := by
        unfold read
        split
        · rename_i hr
          exact hu.engReadGlobal hr
        · exact hu
      have hu := hread (u := flushed) hc.ownFirst (a := joined.src.toNat) (n := joined.n * elemSize joined.type)
      generalize read flushed _ _ = p at hu ⊢
      have hv : CanonicalFst (if fexp = true then read p.1 joined.exp.toNat (4 * mlrBlocks joined) else (p.1, [])) := by
        split
        · exact hread hu
        · exact hu
      exact Canonical.mlrJoin hv

theorem Canonical.mlrWrite (h : Canonical s) {m results} : Canonical (s.mlrWrite m results).1 := by
  unfold State.mlrWrite
  extract_lets folds r
  have hr : CanonicalFst r := CanonicalFst.foldl h fun p a hp => by
    dsimp only
    split
    · rename_i hu
      exact Canonical.engWriteGlobal hp hu
    · exact hp
  exact Canonical.onStrand hr

theorem Canonical.stagger (h : Canonical s) {m} : Canonical (s.stagger m) := .ite h h

theorem canonical_execMlrComplete (h : Canonical s) {member} : CanonicalResult (execMlrComplete member s) := by
  refine .next ?_
  split
  · exact h
  · refine .ite h (.ite h.sched ?_)
    extract_lets r add added f told done left
    have hr : Canonical r.1 := by
      unfold r
      split
      · exact h
      · exact h.mlrWrite
    have ha : Canonical added := hr.getD fun t ht => by
      unfold add at ht
      split at ht
      · exact hr.ctrAdd t ht
      · exact Option.some.inj ht ▸ hr
    have ht : Canonical told := by
      unfold told
      clear_value f
      split
      · exact ha
      · exact ha.fault.fabCause
    have hd : Canonical done := ht.finish.stagger
    clear_value done
    exact .ite hd (Canonical.onMember hd).mlrForget

/-! ### The fabric -/

theorem Canonical.sendEntry (h : Canonical s) {kind a b w} : Canonical (s.sendEntry kind a b w) :=
  Canonical.toStation (Canonical.onMe h.onMe)

theorem canonical_execRsw (h : Canonical s) {a b w} : CanonicalResult (execRsw a b w s) := h.guarded h.sendEntry
theorem canonical_execRam (h : Canonical s) {a b op w} : CanonicalResult (execRam a b op w s) := h.guarded h.sendEntry
theorem canonical_execRld (h : Canonical s) {d a w signed} : CanonicalResult (execRld d a w signed s) := h.guarded h.onMe.watch.toStation
theorem canonical_execRfl (h : Canonical s) {a all} : CanonicalResult (execRfl a all s) := h.guarded h.toStation
theorem canonical_execMgrp (h : Canonical s) {slot} : CanonicalResult (execMgrp slot s) := h.guarded (Canonical.toStation h.onMe)
theorem canonical_execMlr (h : Canonical s) {op type tp cpl} : CanonicalResult (execMlr op type tp cpl s) :=
  h.guarded (Canonical.toStation h.onMe)
theorem canonical_execRfq (h : Canonical s) {d} : CanonicalResult (execRfq d s) := .next h.onMyTile.write.write
theorem canonical_execRsta (h : Canonical s) {d clr} : CanonicalResult (execRsta d clr s) := .next (.ite h.write.onMyTile h.write)

theorem Canonical.passItem (h : Canonical s) {i} : Canonical (s.passItem i) := by
  cases i with
  | entry => exact h.stationEntry
  | remoteAdd => exact h.stationAdd
  | load => exact h.stationLoad
  | flush => exact h.stationFlush
  | group => exact h.stationGroup
  | reduce => exact h.stationReduce
  | drain => exact h.departWhere

theorem Canonical.passDrains (h : Canonical s) {t l} : Canonical (s.passDrains t l) := by
  induction l generalizing s with
  | nil => exact h
  | cons i l ih =>
    cases i with
    | drain => exact ih h.passItem.onTile
    | _ => exact h

theorem canonical_execFabricQueueArrival (h : Canonical s) {t} : CanonicalResult (execFabricQueueArrival t s) := by
  refine .next (.ite h ?_)
  extract_lets drained
  have hd : Canonical drained := h.passDrains
  clear_value drained
  split
  · exact hd
  · split
    · exact hd
    · exact .ite hd.onTile hd.onTile.touch
    · extract_lets passed woken
      have hp : Canonical passed := hd.onTile.passItem
      have hw : Canonical woken := hp.passDrains.wakeWhere
      exact .ite hw hw.sched

theorem canonical_execRickAgeDeparture (h : Canonical s) {d rick} : CanonicalResult (execRickAgeDeparture d rick s) := .next h.depart

theorem canonical_execRingSlotArrival (h : Canonical s) {p lap refused} : CanonicalResult (execRingSlotArrival p lap refused s) := by
  refine .next (.ite h.soon ?_)
  split
  · exact h.sched
  · exact h.sched

theorem canonical_execCordPerform (h : Canonical s) {c} : CanonicalResult (execCordPerform c s) := .next (.ite h.sched h.cordHere)

theorem canonical_execRemoteLoadRequest (h : Canonical s) {r} : CanonicalResult (execRemoteLoadRequest r s) := by
  refine .next ?_
  split
  · exact h.send
  · exact .ite h.sched h.loadHere

theorem canonical_execFlitCrcFailure (h : Canonical s) {port tries} : CanonicalResult (execFlitCrcFailure port tries s) :=
  .next (.ite h (Canonical.startTest (s := { s with ports := SMap.put s.ports port ((SMap.get [] s.ports port ++ s.heldBy port).eraseDups) }) h))

end Sys2Proof.Machine
end

section
/-! SUPPORT. `Canonical` is kept by the system registers, stops and saves, and the clock. One rule per operation and one per
command word or event. -/
namespace Sys2Proof.Machine

-- One theorem at a time, as above: side by side they ask for more threads than the limit on memory admits.
set_option Elab.async false

variable {s : State}

/-! ### System registers -/

theorem Die.Canonical.of_mem {x : Die} (h : x.Canonical) {m : Memory} (hm : m.wf = true) : Die.Canonical { x with mem := m } :=
  ⟨hm, h.2⟩

theorem Die.Canonical.writeReg {x : Die} (h : x.Canonical) (w : DWord) (r : SysReg) : (x.writeReg w r).Canonical := by
  unfold Die.writeReg
  split
  case h_2 => split <;> exact h
  case h_5 => split <;> exact h
  all_goals exact h

theorem Canonical.setQueue (h : Canonical s) {q w} : Canonical (s.setQueue q w) := by
  unfold State.setQueue
  extract_lets c n set
  have hs : Canonical set := h
  exact .ite hs.sched hs

theorem Canonical.pkgWrite (h : Canonical s) {w r} : Canonical (s.pkgWrite w r) := by
  unfold State.pkgWrite
  split
  · exact .ite h h
  · exact .ite h h
  · exact h.setQueue
  · exact h

theorem Canonical.onCtxSet (h : Canonical s) {t f} : Canonical (s.onCtxSet t f) := h.onDie

theorem Canonical.requestStop (h : Canonical s) {t k deep} : Canonical (s.requestStop t k deep) :=
  Canonical.wakeSleepers (.ite h.onStrand.sched (.ite h.onStrand.sched h.onStrand))

theorem Canonical.cancelStop (h : Canonical s) {t k deep} : Canonical (s.cancelStop t k deep) := h.onStrand

theorem Canonical.sysWrite (h : Canonical s) {t k w} (r : SysReg) : Canonical (s.sysWrite t k r w) := by
  cases r with
  | efra | savearea => exact h.onTile
  | stopflag => exact .ite h.requestStop h.cancelStop
  | waypart => exact h
  | ptroot => exact h.each fun _ h => h.onCluster
  | agelimit => exact .ite h.onCtxSet h
  | rfctr => exact h.onCtxSet
  | migthr | mlrjoin | ctrarea | memgov | savepool => exact h.onDie fun hd => hd.writeReg _ _
  | bundlelimit | stopwin | qcfg | readymap => exact h.pkgWrite
  | _ => exact h.onStrand

theorem canonical_execSrd (h : Canonical s) {g r} : CanonicalResult (execSrd g r s) := h.guarded h.write

theorem Canonical.writeFmt (h : Canonical s) {r w} : Canonical (s.writeFmt r w) := by
  unfold State.writeFmt
  split
  · exact h.onMe
  · exact h.onMyTile
  · exact h

theorem canonical_execSwr (h : Canonical s) {g r} : CanonicalResult (execSwr g r s) := h.guarded h.writeFmt.sched

theorem canonical_execSystemRegisterPropagate (h : Canonical s) {t k r w} : CanonicalResult (execSystemRegisterPropagate t k r w s) :=
  .next (h.sysWrite r)

theorem canonical_execTret (h : Canonical s) {loops} : CanonicalResult (execTret loops s) := h.guarded h.onMe.transferTo.onBun
theorem canonical_execSlp (h : Canonical s) {g mask} : CanonicalResult (execSlp g mask s) := h.guarded h

theorem Canonical.popQueue (h : Canonical s) {t} (q : RecQueue) : Canonical (s.popQueue t q).2.2 := by
  cases q with
  | remote => exact h.onTile
  | _ => exact h.onDie

theorem canonical_execSflt (h : Canonical s) {g b q} : CanonicalResult (execSflt g b q s) := h.guarded (h.popQueue q).write.write

/-! ### Save areas -/

/-- Bytes that the host chooses. -/
theorem Memory.wf_freeBytes (u n : Nat) : Memory.wf ((List.range n).filterMap fun i =>
    let b := Config.freeByte (u + i)
    if b = 0 then none else some (i, b)) = true :=
  Memory.wf_filterMap (a := fun i => i) List.pairwise_lt_range

theorem Tile.wf_freeBody (x : Tile) (u : Nat) : (x.freeBody u).scratch.wf = true := by
  unfold Tile.freeBody
  dsimp only
  exact Memory.wf_freeBytes _ _

theorem Canonical.writeArea (h : Canonical s) {d base lo hi l} : Canonical (s.writeArea d base lo hi l) :=
  h.onDie fun ⟨hm, hl⟩ => ⟨Memory.wf_foldl (fun _ hm _ _ => Memory.splice_wf _ _ _ _ hm (cellsOf_wf _ _) (Nat.le_add_right _ _) fun c hc =>
    have ⟨h1, h2, _⟩ := cellsOf_mem _ _ c hc
    ⟨h1, h2⟩) (Memory.clear_wf _ _ _ hm), hl.renew _⟩

theorem Canonical.fillArea (h : Canonical s) {d base n m} (hm : m.wf = true) : Canonical (s.fillArea d base n m) :=
  h.onDie fun ⟨hd, hl⟩ => ⟨Memory.splice_wf _ _ _ _ hd (Memory.part_wf _ _ _ _ hm) (Nat.le_add_right _ _) fun c hc =>
    Memory.part_mem _ _ _ _ c hc, hl.renew _⟩

theorem Canonical.areaPart (h : Canonical s) (d base n : Nat) : (s.areaPart d base n).wf = true :=
  Memory.part_wf _ _ _ _ (Memory.wf_clears (h.die d).1 _)

theorem Canonical.saveTile (h : Canonical s) {t deep} : Canonical (s.saveTile t deep) := by
  unfold State.saveTile
  extract_lets x stopCc head body
  split
  · extract_lets saved
    have hs : Canonical saved := .ite (Canonical.fillArea h.writeArea (h.tile t)) (h.foldl fun _ h => h.writeArea)
    exact hs.writeArea
  · exact h

/-- Clearing VALID of an area. -/
theorem Canonical.invalidate (h : Canonical s) {d b v} : Canonical (s.onDie d fun x => { x with mem := x.mem.write b v }) :=
  h.onDie fun hd => hd.of_mem (Memory.write_wf _ _ _ hd.1)

theorem Canonical.loadTile (h : Canonical s) {t} : Canonical (s.loadTile t) := by
  unfold State.loadTile
  split
  · exact h
  · rename_i d b _
    extract_lets deep u spent reg loaded read run
    have hs : Canonical spent := h.spendOn
    have hl : Canonical loaded := hs.onTile fun hm => by
      extract_lets loaded x settled
      have hx : x.scratch.wf = true := by
        unfold x
        split
        · exact hs.areaPart _ _ _
        · exact Tile.wf_freeBody _ _
      exact hx
    have hr : Canonical read := hl.noteRead
    exact hr.onTile.invalidate

theorem Canonical.saveCluster (h : Canonical s) {c} : Canonical (s.saveCluster c) :=
  (h.writeArea.fillArea (h.cluster c)).writeArea

theorem Canonical.loadCluster (h : Canonical s) {c} : Canonical (s.loadCluster c) := by
  unfold State.loadCluster
  extract_lets home b w cw store read loaded
  have hs : store.wf = true := h.areaPart _ _ _
  have hl : Canonical loaded := h.noteRead.onCluster fun _ => hs
  exact hl.invalidate

theorem Canonical.regionFault (h : Canonical s) {va e} : Canonical (s.regionFault va e) := h.addFault

theorem Canonical.csavFrom (h : Canonical s) {va r} (hr : ∀ u, r = .ok u → Canonical u) : Canonical (s.csavFrom va r) := by
  cases r with
  | error e => exact h.regionFault
  | ok u => exact (hr u rfl).onBun

theorem canonical_execCsav (h : Canonical s) {g} : CanonicalResult (execCsav g s) := h.guarded (h.csavFrom fun _ hu => h.engWriteGlobal hu)

theorem Canonical.crstFrom (h : Canonical s) {va r} (hr : ∀ u, r = .ok u → Canonical u.1) : Canonical (s.crstFrom va r) := by
  cases r with
  | error e => exact h.regionFault
  | ok u =>
    have hu := hr u rfl
    unfold State.crstFrom
    dsimp only
    split
    · exact hu.spend.addFault
    · exact hu.onBun

theorem canonical_execCrst (h : Canonical s) {g} : CanonicalResult (execCrst g s) := h.guarded (h.crstFrom fun _ hu => h.engReadGlobal hu)

/-! ### Stops -/

theorem canonical_execStop (h : Canonical s) {a deep kind} : CanonicalResult (execStop a deep kind s) :=
  h.guarded (h.foldl fun _ h => h.sched)

theorem Canonical.checkStop (h : Canonical s) {t} : Canonical (s.checkStop t) := .ite (.ite h.onTile.soon h.onTile.sched) h

theorem Canonical.stopStrand (h : Canonical s) {t k how} : Canonical (s.stopStrand t k how) := by
  unfold State.stopStrand
  extract_lets flushed stopped
  have hf : Canonical flushed := h.flush
  clear_value flushed
  have hs : Canonical stopped := hf.onStrand
  exact hs.leave.checkStop

theorem Canonical.deepStop (h : Canonical s) {t} : Canonical (s.deepStop t) := by
  have ht : Canonical (s.onTile t fun x => if x.saving == .deep then x else { x with saving := .deep, deepRun := x.running }) :=
    h.onTile fun hm => by split <;> exact hm
  exact (ht.each fun _ h => h.stopStrand).checkStop

theorem canonical_execStopFlagSet (h : Canonical s) {t k deep} : CanonicalResult (execStopFlagSet t k deep s) := .next (.ite h h.requestStop)

theorem canonical_execStopWindowExpiry (h : Canonical s) {t k} : CanonicalResult (execStopWindowExpiry t k s) :=
  .next (.ite h (.ite h h.onStrand.deepStop))

theorem Canonical.beginRegion (h : Canonical s) {c} : Canonical (s.beginRegion c) := .ite h.onCluster.sched h

theorem Canonical.afterSave (h : Canonical s) {t} : Canonical (s.afterSave t) := by
  unfold State.afterSave
  dsimp only
  split
  · exact h.beginRegion
  · exact h.beginRegion.sched

theorem canonical_execTileSaveComplete (h : Canonical s) {t} : CanonicalResult (execTileSaveComplete t s) := by
  refine .next (.ite h ?_)
  split
  · exact .ite h (Canonical.onTile h.saveTile).afterSave
  · exact .ite h.onTile.soon h.sched

theorem canonical_execClusterRegionSave (h : Canonical s) {c} : CanonicalResult (execClusterRegionSave c s) :=
  .next (.ite h (.ite h.soon h.sched))

theorem Canonical.keep (h : Canonical s) {c q} : Canonical (s.keep c q) :=
  h.onLaunch fun _ hl =>
    ⟨List.foldlRecOn (motive := fun m : SMap Tile => ∀ e ∈ m, e.2.scratch.wf = true) _ _ hl.1 fun _ hm t _ =>
        SMap.all_put (P := fun x : Tile => x.scratch.wf = true) hm t (h.tile t),
      SMap.all_put (P := fun x : Cluster => x.store.wf = true) hl.2 c (h.cluster c)⟩

theorem canonical_execClusterStopComplete (h : Canonical s) {c} : CanonicalResult (execClusterStopComplete c s) := by
  refine .next (.ite h ?_)
  dsimp only
  split
  · exact h.saveCluster.onCluster
  · exact h.saveCluster.onCluster.keep.sched

theorem Canonical.isolate (h : Canonical s) {t} : Canonical (s.isolate t) := h.onTile.startTest
theorem canonical_execHangWatchdog (h : Canonical s) {t} : CanonicalResult (execHangWatchdog t s) := .next (.ite h.isolate h)

theorem canonical_execSequencerOverrun (h : Canonical s) {t} : CanonicalResult (execSequencerOverrun t s) := by
  refine .next ?_
  split
  · refine Canonical.isolate ?_
    split
    · exact h.unsched.onCluster
    · exact h.unsched.onCluster.keep.sched
  · exact .ite h h.onTile.isolate

theorem Canonical.testRecord (h : Canonical s) {u verdict} : Canonical (s.testRecord u verdict) :=
  Canonical.health (s := { s with fresh := s.fresh + 8 }) h

theorem canonical_execSelfTestStart (h : Canonical s) {u} : CanonicalResult (execSelfTestStart u s) := .next h.testRecord.spend.soon
theorem Canonical.retire (h : Canonical s) {t} : Canonical (s.retire t) := h.onTile

theorem Canonical.isolateDie (h : Canonical s) {d} : Canonical (s.isolateDie d) :=
  Canonical.onDie (s := { s with ready := s.ready &&& ~~~((1 : DWord) <<< (8 + d)) }) h

theorem Canonical.lasting (h : Canonical s) {u spared} : Canonical (s.lasting u spared) := by
  unfold State.lasting
  split
  case h_1 => exact .ite h h.retire
  case h_2 => exact .ite h h.onCluster
  case h_3 => exact (h.onDie fun ⟨hm, hl⟩ => ⟨Memory.clear_wf _ _ _ hm, hl.renew _⟩).memRecord
  case h_4 | h_5 | h_6 | h_7 | h_8 => exact h.retire
  case h_9 => exact h
  case h_10 => exact h.isolateDie
  case h_11 => exact .ite h h.isolateDie
  case h_12 => exact h

/-! ### The loader's part of a stop, and the clock -/

theorem canonical_execSelfTestVerdict (h : Canonical s) {u lasting spared} : CanonicalResult (execSelfTestVerdict u lasting spared s) := by
  unfold execSelfTestVerdict
  extract_lets told held freed
  have ht : Canonical told := h.testRecord
  have hf : Canonical freed := .ite ht ht
  clear_value freed
  exact .next (.ite (.ite hf.onTile (.ite hf (hf.each fun _ h => h.onLaunch).emit)) (hf.lasting.emit.each fun _ h => h.endLaunch))

theorem Canonical.lstat (h : Canonical s) {q k idle code} : Canonical (s.lstat q k idle code) := h.memWrite
theorem Canonical.onStrandsOf (h : Canonical s) {l f} : Canonical (s.onStrandsOf l f) := h.each fun _ h => .ite h.onTile h
theorem Canonical.pauseNodes (h : Canonical s) {l} : Canonical (s.pauseNodes l) := h.onStrandsOf

theorem Canonical.resumeNodes (h : Canonical s) {l} : Canonical (s.resumeNodes l) :=
  h.onStrandsOf.each fun _ h => by
    split
    · exact h
    · exact .ite h h.sched

theorem Canonical.stirLaunch (h : Canonical s) {l} : Canonical (s.stirLaunch l) := h.each fun _ h => .ite h.onTile h

theorem Canonical.pokeClock (h : Canonical s) : Canonical s.pokeClock := by
  unfold State.pokeClock
  split
  · exact h
  · exact .ite h.sched h

theorem Canonical.atEdge (h : Canonical s) {q} : Canonical (s.atEdge q) := by
  unfold State.atEdge
  split
  · exact h
  · exact .ite h.sched h.pokeClock

theorem Canonical.boundary (h : Canonical s) {q} : Canonical (s.boundary q) := by
  unfold State.boundary
  split
  · exact h
  · exact (h.onLaunch.each fun _ h => h.onTile).atEdge

theorem canonical_execSuperstepBoundary (h : Canonical s) {q} : CanonicalResult (execSuperstepBoundary q s) := by
  refine .next ?_
  split
  · exact h
  · exact h.onLaunch.onStrandsOf.boundary.stirLaunch

theorem canonical_execIdleSuperstep (h : Canonical s) {q blocks} : CanonicalResult (execIdleSuperstep q blocks s) := by
  refine .next ?_
  split
  · exact h
  · refine .ite h ?_
    extract_lets stop tests counted told freed
    have ht : Canonical told := h.onLaunch.lstat.pauseNodes
    have hf : Canonical freed := ht
    exact (hf.each fun _ h => h.sched).sched

theorem canonical_execIdleSuperstepEnd (h : Canonical s) {q} : CanonicalResult (execIdleSuperstepEnd q s) := by
  refine .next ?_
  split
  · exact h
  · exact .ite h (.ite h.onLaunch.sched (Canonical.onLaunch h.onLaunch.pokeClock).resumeNodes.stirLaunch)

theorem Canonical.setMhz (h : Canonical s) {f : Nat} (hf : f ∈ specSteps7) : Canonical (s.setMhz f) := h.of_mhz hf

theorem mem_specSteps7 {f : Nat} (h : clockSteps.contains f = true) : f ∈ specSteps7 := List.contains_iff_mem.1 h

theorem canonical_execClockChange (h : Canonical s) {mhz} : CanonicalResult (execClockChange mhz s) := by
  refine .next ?_
  split
  · exact h
  · rename_i hc
    obtain ⟨-, hm⟩ := not_or.1 (mt Bool.or_eq_true_iff.2 hc)
    have hm : mhz ∈ specSteps7 := mem_specSteps7 (by simpa only [Bool.not_eq_true', Bool.not_eq_false] using hm)
    have hw : ∀ f, some mhz = some f → f ∈ specSteps7 := fun f hf => Option.some.inj hf ▸ hm
    exact .ite ((h.setMhz hm).of_wantMhz fun f hf => nomatch hf) (h.of_wantMhz hw)

theorem canonical_execPowerLimit (h : Canonical s) {mhz blocks} : CanonicalResult (execPowerLimit mhz blocks s) := by
  have hw : ∀ f, (if mhz < s.mhz && clockSteps.contains mhz then some mhz else s.wantMhz) = some f → f ∈ specSteps7 := by
    intro f hf
    split at hf
    · rename_i hc
      exact Option.some.inj hf ▸ mem_specSteps7 (Bool.and_eq_true_iff.1 hc).2
    · exact h.2.2.2.2.2.1 f hf
  exact .next (Canonical.pokeClock (h.of_wantMhz hw))

theorem Canonical.powerMs (h : Canonical s) : Canonical s.powerMs := h

theorem canonical_execThermalEmergency (h : Canonical s) : CanonicalResult (execThermalEmergency s) :=
  .next (Canonical.emit (Canonical.each (s := { s with power := { s.power with limited := true, fallFree := true } }) h fun _ h => by
    exact h.onLaunch.each fun _ h => (h.each fun _ h => h.onStrand).stir))

end Sys2Proof.Machine
end

section
/-! SUPPORT. `Canonical` is kept by shootdowns, the loader, the management window, and the refresh of the stacks. One rule per
operation and one per command word or event. -/
namespace Sys2Proof.Machine

-- One theorem at a time, as above: side by side they ask for more threads than the limit on memory admits.
set_option Elab.async false

variable {s : State}

/-! ### Translation commands and shootdowns -/

theorem Canonical.noteImage (h : Canonical s) {l g} : Canonical (s.noteImage l g) := by
  unfold State.noteImage
  split
  · exact h
  · exact h.each fun _ h => .ite h.noteRead h

theorem Canonical.transCommand (h : Canonical s) {a b shot size cnt all scope} :
    Canonical (s.transCommand a b shot size cnt all scope).2 :=
  Canonical.onMyTile (s := { (s.command 8 false).2 with shotNext := s.shotNext + 1 }) h.command

theorem canonical_execTlbi (h : Canonical s) {a b cnt all scope} : CanonicalResult (execTlbi a b cnt all scope s) := by
  refine h.guarded ?_
  have ht := h.transCommand (a := a) (b := b) (shot := false) (size := 0) (cnt := cnt) (all := all) (scope := scope)
  dsimp only
  generalize s.transCommand a b false 0 cnt all scope = r at ht ⊢
  exact ht.soon

theorem canonical_execShot (h : Canonical s) {a b size cnt all scope} : CanonicalResult (execShot a b size cnt all scope s) := by
  refine h.guarded ?_
  extract_lets d
  split
  rename_i c u hu
  have ht : Canonical (c, u).2 := hu ▸ h.transCommand
  extract_lets marked told sent
  have hm : Canonical marked := Canonical.onDie (s := u) ht
  have ht : Canonical told := hm.each fun _ h => h.soon
  have hs : Canonical sent := .ite ht.emit ht
  exact hs.soon

theorem Canonical.rewalk (h : Canonical s) {c w} : Canonical (s.rewalk c w) := h.readTables.onCluster.soon

theorem Canonical.dropEntries (h : Canonical s) {c cmd} : Canonical (s.dropEntries c cmd) :=
  (h.onCluster.each fun _ h => h.onTile).unsched.each fun _ h => h.rewalk

theorem Canonical.transDone (h : Canonical s) {c} : Canonical (s.transDone c) := by
  have hw : Canonical ((s.onTile c.org.tile fun x => { x with tq := x.tq - 1 }).wakeWhere c.org.tile (· == .transQueue)) := h.onTile.wakeWhere
  exact Canonical.finish (.ite (hw.getD hw.ctrAdd) hw)

theorem canonical_execTlbiComplete (h : Canonical s) {c} : CanonicalResult (execTlbiComplete c s) := by
  unfold execTlbiComplete
  extract_lets dropped
  have hd : Canonical dropped := .ite h (h.each fun _ h => h.dropEntries)
  exact .next (.ite hd.sched hd.transDone)

theorem Canonical.reaim (h : Canonical s) {t k w} : Canonical (s.reaim t k w) := by
  unfold State.reaim
  extract_lets c va x o without faults
  have hw {u : State} (hu : Canonical u) : Canonical (without u) := hu.onStrand
  have hf {cause level} : Canonical (faults cause level) := (hw h).addFault
  split
  · exact hf
  · exact .ite hf (.ite h.onStrand (hw h.publish))

theorem Canonical.revokeWords (h : Canonical s) {d c} : Canonical (s.revokeWords d c) := h.each fun _ h => h.each fun _ h => h.reaim

theorem Canonical.shootHere (h : Canonical s) {d c} : Canonical (s.shootHere d c) :=
  (Canonical.each h.onDie fun _ h => h.dropEntries).dropCopies.revokeWords.departWhere

theorem canonical_execShootdownArrival (h : Canonical s) {d c} : CanonicalResult (execShootdownArrival d c s) := .next h.shootHere
theorem Canonical.countHolder (h : Canonical s) {home frame reader add} : Canonical (s.countHolder home frame reader add) := h.onDie

theorem canonical_execHolderCountUpdate (h : Canonical s) {home frame reader add} :
    CanonicalResult (execHolderCountUpdate home frame reader add s) := .next h.countHolder

theorem Canonical.sweep (h : Canonical s) {f : Event → Option (State → State)}
    (hf : ∀ e g, f e = some g → ∀ u, Canonical u → Canonical (g u)) : Canonical (s.sweep f) :=
  List.foldlRecOn (motive := Canonical) _ _ h.unsched fun u hu g hg => by
    obtain ⟨e, -, he⟩ := List.mem_filterMap.1 hg
    exact hf _ g he u hu

theorem Canonical.shotDrain (h : Canonical s) {c} : Canonical (s.shotDrain c) := by
  unfold State.shotDrain
  extract_lets arrived departed owned landed loaded
  have ha : Canonical arrived := h.sweep fun e g hg u hu => by
    split at hg
    · obtain ⟨-, hg⟩ := Option.ite_none_right_eq_some.1 hg
      obtain rfl := Option.some.inj hg
      exact hu.shootHere
    · cases hg
  have hd : Canonical departed := ha.sweep fun e g hg u hu => by
    split at hg
    · obtain ⟨-, hg⟩ := Option.ite_none_right_eq_some.1 hg
      obtain rfl := Option.some.inj hg
      exact hu.depart
    · cases hg
  have ho : Canonical owned := hd.each fun _ h => h.ownFirst
  have hl : Canonical landed := ho.landPackets
  have hr : Canonical loaded := hl.sweep fun e g hg u hu => by
    split at hg
    · cases hg
      exact hu.loadHere
    · cases hg
  exact hr.sweep fun e g hg u hu => by
    split at hg
    · cases hg
      exact hu.countHolder
    · cases hg

theorem canonical_execShotComplete (h : Canonical s) {c} : CanonicalResult (execShotComplete c s) := .next (.ite h.sched h.shotDrain.transDone)

/-! ### The loader -/

theorem Canonical.retry (h : Canonical s) : Canonical s.retry :=
  ((h.each fun _ h => h.sched).each fun _ h => h.sched).each fun _ h => h.sched

theorem Canonical.loaderAdd (h : Canonical s) {d id} : Canonical (s.loaderAdd d id) := .ite h.sched h
theorem Canonical.report (h : Canonical s) {q l code} : Canonical (s.report q l code) :=
  Canonical.loaderAdd (.ite h.lstat h.lstat.loaderAdd)

theorem Canonical.setTests (h : Canonical s) {l : List TestUnit} : Canonical { s with tests := l } := h
theorem Canonical.testFree (h : Canonical s) : Canonical s.testFree := h.setTests.each fun _ h => h.sched

theorem Canonical.closeLaunch (h : Canonical s) {q l code} : Canonical (s.closeLaunch q l code) := by
  unfold State.closeLaunch
  extract_lets told gone freed
  have ht : Canonical told := h.unsched.report
  have hg : Canonical gone := ht.of_launches (SMap.all_del (P := Launch.Canonical) ht.launches q)
  have hf : Canonical freed := hg.each fun _ h => h.onDie
  exact hf.testFree.sched.retry.pokeClock

theorem Launch.canonical_taken (k : Nat) (r : LaunchRec) (slot : Nat) : (Launch.taken k r slot).Canonical :=
  ⟨List.forall_mem_nil _, List.forall_mem_nil _⟩

theorem canonical_execLaunchTake (h : Canonical s) {q} : CanonicalResult (execLaunchTake q s) := by
  refine .next (.ite h ?_)
  extract_lets base at_ slot r l read counted taken
  have hr : Canonical read := h.noteRead.noteRead
  have hc : Canonical counted := hr
  have ht : Canonical taken := hc.of_launches (SMap.all_put (P := Launch.Canonical) hc.launches q (Launch.canonical_taken _ _ _))
  exact .ite hc.report.sched (.ite hc.report.sched ht.lstat.sched)

theorem Canonical.preempt (h : Canonical s) {q l} : Canonical (s.preempt q l) :=
  .ite h (Canonical.sched (h.spend.onLaunch.each fun _ h => h.each fun _ h => h.requestStop))

theorem canonical_execAdmission (h : Canonical s) {q} : CanonicalResult (execAdmission q s) := by
  refine .next ?_
  split
  · exact h
  · rename_i l hl
    refine .ite h (.ite h.sched ?_)
    split
    · exact h.closeLaunch
    · extract_lets noted l' put hs
      have hn : Canonical noted := .ite h.noteImage h
      have hc : l.Canonical := h.launch hl
      have hp : Canonical put := hn.onLaunch fun _ _ => by exact hc
      exact .ite hp.closeLaunch (.ite hp (.ite hp (.ite (hp.each fun _ h => .ite h h.preempt) hp.onLaunch.sched)))

theorem Canonical.zeroCounters (h : Canonical s) {d lo n} : Canonical (s.zeroCounters d lo n) :=
  h.onDie fun ⟨hm, hl⟩ => ⟨Memory.clear_wf _ _ _ hm, hl.renew _⟩

theorem Canonical.startCluster (h : Canonical s) {q l pins c} : Canonical (s.startCluster q l pins c) := by
  unfold State.startCluster
  extract_lets u
  exact h.onLaunch.onCluster fun _ => rfl

theorem wf_scratchOf (l : List Byte) : (scratchOf l).wf = true := by
  have h : (l.zipIdx).Pairwise fun x y => x.2 < y.2 := by
    rw [← List.pairwise_map, List.zipIdx_map_snd]
    exact List.pairwise_lt_range'
  exact Memory.wf_filterMap h

theorem Canonical.startTile (h : Canonical s) {q m t} (hm : m.wf = true) : Canonical (s.startTile q m t) := h.onTile fun _ => hm

theorem canonical_execLaunchStart (h : Canonical s) {q} : CanonicalResult (execLaunchStart q s) := by
  refine .next ?_
  split
  · exact h
  · refine .ite h ?_
    extract_lets timed pins set cleared opened scratch started running
    have ht : Canonical timed := .ite (h.setMhz (by decide)) h
    have hc : Canonical cleared := ht.each fun _ h => h.onDie.zeroCounters
    have ho : Canonical opened := hc.each fun _ h => h.startCluster
    have hs : Canonical started := ho.each fun _ h => h.startTile (wf_scratchOf _)
    have hr : Canonical running := hs.onLaunch
    exact hr.lstat.sched

theorem canonical_execWorkUnitStart (h : Canonical s) {q} : CanonicalResult (execWorkUnitStart q s) := by
  refine .next ?_
  split
  · exact h
  · exact .ite h (h.onLaunch.each fun _ h => h.onTile).boundary

theorem Canonical.nextUnit (h : Canonical s) {q l} : Canonical (s.nextUnit q l) := .ite h.onLaunch.soon h.endLaunch

theorem canonical_execWorkUnitComplete (h : Canonical s) {t} : CanonicalResult (execWorkUnitComplete t s) := by
  refine .next (.ite h ?_)
  extract_lets sum landed ended
  have hl : Canonical landed := (h.each fun _ h => h.landWrites).unsched
  have he : Canonical ended := hl.onTile
  split
  · exact he
  · extract_lets summed
    have hs : Canonical summed := he.onLaunch
    split
    · exact hs
    · exact .ite hs (.ite hs.onLaunch.nextUnit hs.onLaunch)

theorem Canonical.dropSteps (h : Canonical s) {ts} : Canonical (s.dropSteps ts) := h

theorem Canonical.closeShots (h : Canonical s) {ts} : Canonical (s.closeShots ts) := by
  refine List.foldlRecOn (motive := Canonical) _ _ h.unsched fun u hu f hf => ?_
  obtain ⟨e, -, he⟩ := List.mem_filterMap.1 hf
  have hr : CanonicalResult (f u) := by
    split at he
    · obtain ⟨-, ⟨⟩⟩ := Option.ite_none_right_eq_some.1 he
      exact canonical_execTlbiComplete hu
    · obtain ⟨-, ⟨⟩⟩ := Option.ite_none_right_eq_some.1 he
      exact canonical_execShotComplete hu
    · cases he
  split
  · rename_i v hv
    exact hr.of_next hv
  · exact hu

theorem Canonical.leaveBars (h : Canonical s) {b : List Barrier} {m : List MlrMember} : Canonical { s with bars := b, mlrs := m } := h

theorem Canonical.abandon (h : Canonical s) {q l} : Canonical (s.abandon q l) :=
  Canonical.leaveBars (Canonical.dropSteps (Canonical.closeShots (h.each fun _ h => h.each fun _ h => .ite h.flush h)))

theorem Canonical.freeClusters (h : Canonical s) {q l} : Canonical (s.freeClusters q l) :=
  Canonical.each (h.each fun _ h => by exact h.onCluster fun _ => rfl) fun _ h => by exact h.onTile

theorem Canonical.setFresh (h : Canonical s) {f : Nat} : Canonical { s with fresh := f } := h
theorem Canonical.digestRecord (h : Canonical s) {l} : Canonical (s.digestRecord l) := .ite h.setFresh.health h
theorem Canonical.digestSlot (h : Canonical s) {q l} : Canonical (s.digestSlot q l) := h.memWrite.memWrite

theorem canonical_execLaunchEnd (h : Canonical s) {q} : CanonicalResult (execLaunchEnd q s) := by
  refine .next ?_
  split
  · exact h
  · rename_i l hl
    split
    · exact h
    · extract_lets left l' differs told
      have he : Canonical left := .ite h.dropSteps h.abandon
      have ht : Canonical told := .ite he.digestRecord he
      have hc : l.Canonical := h.launch hl
      clear_value told
      exact .ite (ht.unsched.onLaunch fun _ _ => by exact hc).testFree.retry ht.freeClusters.digestSlot.closeLaunch

theorem Canonical.stopDone (h : Canonical s) {q l} : Canonical (s.stopDone q l) := h.dropSteps.freeClusters.onLaunch.testFree.retry

theorem Canonical.reseat (h : Canonical s) {q l} (hl : l.Canonical) : Canonical (s.reseat q l) := by
  refine (h.each fun c h => ?_).each fun t h => ?_
  · split
    · exact h
    · rename_i y hy
      have hm : y.store.wf = true := SMap.all_find (P := fun x : Cluster => x.store.wf = true) hl.2 hy
      exact h.onCluster fun _ => hm
  · split
    · exact h
    · rename_i y hy
      have hm : y.scratch.wf = true := SMap.all_find (P := fun x : Tile => x.scratch.wf = true) hl.1 hy
      exact h.onTile fun _ => hm

theorem Canonical.goOn (h : Canonical s) {q} : Canonical (s.goOn q) := by
  unfold State.goOn
  split
  · exact h
  · exact Canonical.each (.ite h.pauseNodes h.resumeNodes) fun _ h => h.sched

/-- What the loader keeps of a launch, dropped. -/
theorem Canonical.forget (h : Canonical s) {q} {f : Launch → Launch} (ht : ∀ l, (f l).keptT = []) (hc : ∀ l, (f l).keptC = []) :
    Canonical (s.onLaunch q f) :=
  h.onLaunch fun l _ => ⟨ht l ▸ List.forall_mem_nil _, hc l ▸ List.forall_mem_nil _⟩

theorem Canonical.resumeLaunch (h : Canonical s) {q l} (hl : l.Canonical) : Canonical (s.resumeLaunch q l) := by
  unfold State.resumeLaunch
  extract_lets seated loaded going
  have hs : Canonical seated := (h.reseat hl).forget (fun _ => rfl) fun _ => rfl
  have hg : Canonical going := ((hs.each fun _ h => h.loadCluster).each fun _ h => h.loadTile).goOn
  exact .ite hs.endLaunch (.ite hg hg.nextUnit)

theorem Canonical.resumeTiles (h : Canonical s) {q l ts} : Canonical (s.resumeTiles q l ts) := by
  unfold State.resumeTiles
  extract_lets cs loaded
  refine .ite h.endLaunch ?_
  have hl : Canonical loaded := h.each fun _ h => h.loadCluster.onCluster
  exact ((hl.each fun _ h => h.loadTile).forget (fun _ => rfl) fun _ => rfl).goOn

theorem canonical_execLaunchResume (h : Canonical s) {q} : CanonicalResult (execLaunchResume q s) := by
  unfold execLaunchResume
  extract_lets again
  have ha {u : State} (hu : Canonical u) : Canonical (again u) := .ite hu hu.sched
  clear_value again
  refine .next ?_
  split
  · exact h
  · rename_i l hl
    split
    · extract_lets checked begun
      have hb : Canonical begun := Canonical.each (h.each fun _ h => h.checkStop) fun _ h => h.beginRegion
      exact .ite hb.stopDone (ha hb)
    · refine .ite (.ite h (h.resumeLaunch (h.launch hl))) (.ite ?_ h)
      extract_lets ts begun
      have hb : Canonical begun := h.each fun _ h => h.beginRegion
      exact .ite hb (.ite (ha hb) hb.resumeTiles)

/-! ### The host -/

theorem canonical_execPackageReset : CanonicalResult (execPackageReset s) := .next canonical_reset
theorem Canonical.setReady (h : Canonical s) {r : DWord} : Canonical { s with ready := r } := h

theorem canonical_execFunctionReady (h : Canonical s) {fn} : CanonicalResult (execFunctionReady fn s) := by
  refine .next (.ite h ?_)
  split
  · exact h
  · exact h.setReady.each fun _ h => h.sched
  · exact h

theorem canonical_execBootStage (h : Canonical s) {stage edOk mlOk} : CanonicalResult (execBootStage stage edOk mlOk s) := .next (.ite h h)
theorem Canonical.answer (h : Canonical s) {kind bytes} : CanonicalResult (s.answer kind bytes) := .next (.ite h.spend.emit h.hostErr)

theorem canonical_execHdmRead (h : Canonical s) {a n} : CanonicalResult (execHdmRead a n s) := by
  refine .next ?_
  split
  · exact h.emit.hostErr
  · exact h.emit.noteRead

theorem canonical_execHdmWrite (h : Canonical s) {a bytes} : CanonicalResult (execHdmWrite a bytes s) := by
  refine .next ?_
  split
  · exact h.hostErr
  · exact .ite h.hostErr.memRecord h.memWrite

theorem canonical_execCounterAddPort (h : Canonical s) {bytes d id inc} : CanonicalResult (execCounterAddPort bytes d id inc s) :=
  .next (.ite h.hostErr h.sched)

theorem canonical_execCounterReadSlot (h : Canonical s) {slot} : CanonicalResult (execCounterReadSlot slot s) :=
  .next (.ite h.emit h.emit.hostErr)

theorem Canonical.setWatches (h : Canonical s) {w : SMap (Nat × Nat × DWord)} : Canonical { s with watches := w } := h

theorem canonical_execWatchEntryWrite (h : Canonical s) {k d id v} : CanonicalResult (execWatchEntryWrite k d id v s) :=
  .next (.ite h.setWatches.hostErr (.ite h.setWatches.emit h.setWatches))

theorem canonical_execPopPortRead (h : Canonical s) {d queue bytes} : CanonicalResult (execPopPortRead d queue bytes s) := by
  refine .next (.ite h.hostErr (.ite h.emit.hostErr (.ite h.sched ?_)))
  exact h.emit.onDie fun hd => by
    split <;> exact hd

theorem Canonical.staggered (h : Canonical s) {en width} : Canonical (s.staggered en width) := h
theorem canonical_execStaggerWrite (h : Canonical s) {v} : CanonicalResult (execStaggerWrite v s) := .next h.staggered.emit
theorem canonical_execStaggerMessage (h : Canonical s) {en width} : CanonicalResult (execStaggerMessage en width s) := .next h.staggered

theorem Canonical.mgmtWrite (h : Canonical s) {o v} : Canonical (s.mgmtWrite o v) := by
  unfold State.mgmtWrite
  extract_lets run
  have hr {r : Result} (hr : CanonicalResult r) : Canonical (run r) := by
    unfold run
    split
    · exact hr
    · exact h
  clear_value run
  split
  case h_1 => exact h
  case h_2 => exact hr (canonical_execStaggerWrite h)
  case h_3 => exact h.pkgWrite
  case h_4 => exact .ite (h.onDie fun hd => hd.writeReg _ _) h.hostErr
  case h_5 | h_6 => exact h.hostErr
  case h_7 => exact h
  case h_8 => exact .ite (hr (canonical_execWatchEntryWrite h)) (hr (canonical_execWatchEntryWrite h))
  all_goals exact h

theorem CanonicalResult.ite {p : Prop} [Decidable p] {a b : Result} (ha : CanonicalResult a) (hb : CanonicalResult b) :
    CanonicalResult (if p then a else b) := by
  split
  · exact ha
  · exact hb

theorem canonical_execMgmtRegisterWrite (h : Canonical s) {o bytes v} : CanonicalResult (execMgmtRegisterWrite o bytes v s) := by
  refine .ite (.next h.hostErr) (.ite (.next h.mgmtWrite) ?_)
  split
  · exact canonical_execCounterAddPort h
  · exact canonical_execWatchEntryWrite h
  · exact .next h.hostErr
  · exact .next h.mgmtWrite.mgmtWrite

theorem canonical_execMgmtWindowRead (h : Canonical s) {o bytes} : CanonicalResult (execMgmtWindowRead o bytes s) := by
  refine .ite ?_ (.ite (.next h.emit.hostErr) (.next h.emit))
  split
  · exact canonical_execPopPortRead h
  · exact .next h.emit.hostErr

/-! ### Refresh -/

theorem Canonical.wrongLine (h : Canonical s) {d line n} (hl : line % 128 = 0) : Canonical (s.wrongLine d line n) := by
  refine .ite (h.onDie fun hd => ?_) h.spend.memWrite
  obtain ⟨hm, hscrub, hbad, hwrong⟩ := hd
  refine ⟨hm, hscrub, ?_, ?_⟩
  · dsimp only
    split
    · exact List.forall_mem_cons.2 ⟨hl, hbad⟩
    · exact hbad
  · dsimp only
    split
    · exact fun e he => hwrong e (List.mem_filter.1 he).1
    · intro e he
      obtain rfl | he := SMap.mem_put he
      · exact hl
      · exact hwrong e he

theorem Canonical.decayLine (h : Canonical s) {d e} : Canonical (s.decayLine d e) := .ite h (h.wrongLine (Nat.mul_mod_left _ _))

theorem canonical_execGovernorEpoch (h : Canonical s) {d} : CanonicalResult (execGovernorEpoch d s) := by
  unfold execGovernorEpoch
  extract_lets x counted line halved
  have hc : Canonical counted := h.onDie
  have hh : Canonical halved := .ite hc.spend.memRecord.startTest hc
  exact .next (hh.spend.each fun _ h => h.decayLine)

theorem canonical_execPatrolScrub (h : Canonical s) {d symbols} : CanonicalResult (execPatrolScrub d symbols s) := by
  have hline : (s.die d).scrub % 128 = 0 := (h.die d).2.1
  unfold execPatrolScrub
  extract_lets line n moved
  have hm : Canonical moved := h.onDie fun hd => ⟨hd.1, by dsimp only; omega, hd.2.2⟩
  exact .next (.ite hm.uncorrectable (.ite (hm.onDie fun hd => ⟨hd.1, hd.2.1, hd.2.2.1, fun e he => hd.2.2.2 e (List.mem_filter.1 he).1⟩)
    (.ite (hm.wrongLine hline).uncorrectable (hm.wrongLine hline))))

theorem canonical_execCoreDieTemperature (h : Canonical s) {d hot} : CanonicalResult (execCoreDieTemperature d hot s) := .next h.onDie

end Sys2Proof.Machine
end

section
/-! SUPPORT. `Canonical` is kept by the scalar and vector words, by the bundles of a core, by the panels of a gang, and by the
steps between two events. -/
namespace Sys2Proof.Machine

-- One theorem at a time, as above: side by side they ask for more threads than the limit on memory admits.
set_option Elab.async false

variable {s : State}

/-! ### Strands and their selection -/

theorem Canonical.give (h : Canonical s) {t k} : Canonical (s.give t k) := Canonical.onTile h.onStrand

theorem canonical_execStrandSelect (h : Canonical s) {t} : CanonicalResult (execStrandSelect t s) := by
  refine .next (.ite h (.ite h.onTile ?_))
  split
  · extract_lets stopped
    have hs : Canonical stopped := h.each fun _ h => h.stopStrand
    split
    · exact hs.give
    · exact hs.onTile
  · split
    · exact h.give
    · exact h.onTile

theorem canonical_execTakeTrap (h : Canonical s) {t k i} : CanonicalResult (execTakeTrap t k i s) := .next h.takeTrap

theorem canonical_execOverrun (h : Canonical s) {t k} : CanonicalResult (execOverrun t k s) := by
  refine .next (.ite h ?_)
  extract_lets x marked stood
  have hm : Canonical marked := h.onStrand
  have hs : Canonical stood := hm.onStrand
  clear_value marked stood
  exact .ite (.ite hs.onTile hm) (.ite (Canonical.onStrand hm).stir hm.spend.spend.takeTrap)

theorem canonical_execExtentPlacement (h : Canonical s) {t k} : CanonicalResult (execExtentPlacement t k s) :=
  .next (h.onStrand.onTile fun hm => by split <;> exact hm)

/-! ### Scalar and vector words -/

theorem canonical_aluR (h : Canonical s) {f b d x y p} : CanonicalResult (aluR f b d x y p s) := .next (.ite h.write h)
theorem canonical_aluI (h : Canonical s) {f b d x i ext} : CanonicalResult (aluI f b d x i ext s) := .next h.write
theorem canonical_vecOp (h : Canonical s) {t b d x y m f} : CanonicalResult (vecOp t b d x y m f s) := .next h.write
theorem canonical_vecFp (h : Canonical s) {t b d x y m f} : CanonicalResult (vecFp t b d x y m f s) := .next h.write.raise

theorem canonical_vecWiden (h : Canonical s) {t g acc d x y m f} : CanonicalResult (vecWiden t g acc d x y m f s) :=
  .next (h.foldl fun _ h => h.write)

theorem canonical_reduce (h : Canonical s) {t d x m fi fp ui uf} : CanonicalResult (reduce t d x m fi fp ui uf s) := .next h.write.raise
theorem canonical_vecLoad (h : Canonical s) {t b v m f} : Canonical (vecLoad t b v m f s) := h.write
theorem canonical_vecStore (h : Canonical s) {t v m f} : Canonical (vecStore t v m f s) := h.each fun _ h => h.write
theorem canonical_execVld (h : Canonical s) {t v b g m ext} : CanonicalResult (execVld t v b g m ext s) := h.guarded (canonical_vecLoad h)
theorem canonical_execVst (h : Canonical s) {t v b g m ext} : CanonicalResult (execVst t v b g m ext s) := h.guarded (canonical_vecStore h)
theorem canonical_execVgth (h : Canonical s) {t v b x m} : CanonicalResult (execVgth t v b x m s) := h.guarded (canonical_vecLoad h)
theorem canonical_execVsct (h : Canonical s) {t v b x m} : CanonicalResult (execVsct t v b x m s) := h.guarded (canonical_vecStore h)
theorem canonical_execVcmp (h : Canonical s) {t d k a b} : CanonicalResult (execVcmp t d k a b s) := .next h.write.raise
theorem canonical_execVtrp (h : Canonical s) {t g} : CanonicalResult (execVtrp t g s) := .next (h.foldl fun _ h => h.write)
theorem canonical_execVcvt (h : Canonical s) {c d a t r m} : CanonicalResult (execVcvt c d a t r m s) := .next h.write.raise
theorem canonical_execVqnt (h : Canonical s) {t d a c bf} : CanonicalResult (execVqnt t d a c bf s) := .next h.write.write.raise
theorem canonical_execVdqnt (h : Canonical s) {t d a c bf} : CanonicalResult (execVdqnt t d a c bf s) := .next h.write.raise

/-- A word that only writes one place. -/
theorem canonical_oneWrite (h : Canonical s) {b w} : CanonicalResult (.next (s.write b w)) := .next h.write

end Sys2Proof.Machine
end

section
/-! PROOFS. Every instruction and event keeps `Canonical`. -/
namespace Sys2Proof.Machine

-- One theorem at a time, as above: side by side they ask for more threads than the limit on memory admits.
set_option Elab.async false

variable {s : State}

/-- The words of programs: the instructions that are no events. -/
theorem canonical_execWord (h : Canonical s) {i : Instr} (hi : i.event? = none) : CanonicalResult (exec i s) := by
  cases i with
  | nop | pref | luse => exact h
  | add | sub | mul | mulh | mulhn | div | divn | rem | remn | addw | subw | mulw | and | or | xor | andn | shl | shr |
    shra | shlw | shrw | shraw | min | max | minn | maxn | clz | popc | bfx | bfi =>
    unfold exec
    exact canonical_aluR h
  | addImm | subImm | mulImm | mulhImm | mulhnImm | divImm | divnImm | remImm | remnImm | addwImm | subwImm | mulwImm |
    andImm | orImm | xorImm | andnImm | shlImm | shrImm | shraImm | shlwImm | shrwImm | shrawImm | minImm | maxImm |
    minnImm | maxnImm | bfxImm | bfiImm =>
    unfold exec
    exact canonical_aluI h
  | sel | cmp | cmpImm | plog | stg | rstg | geti | vsel | vbc | vget | vput | vprm | vrnd | viota | vext | vcmpr |
    vmovm => exact canonical_oneWrite h
  | ldb | ldbn | ldh | ldhn | ldw | ldwn | ldd => exact canonical_load h
  | stb | sth | stw | std => exact canonical_store h
  | disc => exact canonical_execDisc h
  | br => exact canonical_execBr h
  | jmp => exact canonical_execJmp h
  | call => exact canonical_execCall h
  | jr => exact canonical_execJr h
  | lset => exact canonical_execLset h
  | lseti => exact canonical_execLseti h
  | lexit => exact canonical_execLexit h
  | dly => exact canonical_execDly h
  | node => exact canonical_execNode h
  | sels => exact canonical_execSels h
  | yield => exact canonical_execYield h
  | halt => exact canonical_execHalt h
  | trap => exact canonical_execTrap h
  | gangEnter => exact canonical_execGangEnter h
  | gangExit => exact canonical_execGangExit h
  | vadd | vsub | vadds | vsubs | vmul | vmulh | vmad | vmin | vmax | vminn | vmaxn | vabs | vand | vor | vxor | vshl |
    vshr | vshra =>
    unfold exec
    exact canonical_vecOp h
  | vaddw | vmulw | vmulq | vmadq =>
    unfold exec
    exact canonical_vecWiden h
  | vfadd | vfsub | vfmul | vfma | vfmin | vfmax | vfabs | vfneg | vfrcp | vfrsq | vfexp2 | vflog2 | vlmul | vlrcp =>
    unfold exec
    exact canonical_vecFp h
  | vcmp => exact canonical_execVcmp h
  | vreds | vredx | vredn =>
    unfold exec
    exact canonical_reduce h
  | vld => exact canonical_execVld h
  | vst => exact canonical_execVst h
  | vgth => exact canonical_execVgth h
  | vsct => exact canonical_execVsct h
  | vtrp => exact canonical_execVtrp h
  | vcvt => exact canonical_execVcvt h
  | vqnt => exact canonical_execVqnt h
  | vdqnt => exact canonical_execVdqnt h
  | afmt => exact canonical_execAfmt h
  | wld => exact canonical_execWld h
  | aswp => exact canonical_execAswp h
  | strm => exact canonical_execStrm h
  | drn => exact canonical_execDrn h
  | aclr => exact canonical_execAclr h
  | agng => exact canonical_execAgng h
  | asta => exact canonical_execAsta h
  | ksa => exact canonical_execKsa h
  | ksw => exact canonical_execKsw h
  | kso => exact canonical_execKso h
  | kclr => exact canonical_execKclr h
  | dcpy => exact canonical_execDcpy h
  | dunf => exact canonical_execDunf h
  | dpubInit => exact canonical_execDpubInit h
  | dpub => exact canonical_execDpub h
  | dfil => exact canonical_execDfil h
  | dgth => exact canonical_execDgth h
  | dsta => exact canonical_execDsta h
  | qpat => exact canonical_execQpat h
  | qldy => exact canonical_execQldy h
  | qdom => exact canonical_execQdom h
  | qstp => exact canonical_execQstp h
  | qsav => exact canonical_execQsav h
  | qrst => exact canonical_execQrst h
  | qrdv => exact canonical_execQrdv h
  | qsta => exact canonical_execQsta h
  | rsw => exact canonical_execRsw h
  | ram => exact canonical_execRam h
  | rld => exact canonical_execRld h
  | rfl => exact canonical_execRfl h
  | mgrp => exact canonical_execMgrp h
  | mlr => exact canonical_execMlr h
  | rfq => exact canonical_execRfq h
  | rsta => exact canonical_execRsta h
  | cadd => exact canonical_execCadd h
  | caddRemote => exact canonical_execCaddRemote h
  | cwt => exact h.guarded h.yWord
  | crd => exact canonical_execCrd h
  | aarm => exact canonical_execAarm h
  | awt => exact h.guarded h.yWord
  | phs => exact .next h.releaseIf.yWord
  | bar => exact canonical_execBar h
  | fen => exact canonical_execFen h
  | splt => exact canonical_execSplt h
  | dgsOn => exact canonical_execDgsOn h
  | dgsOff => exact canonical_execDgsOff h
  | dgsRd => exact canonical_execDgsRd h
  | dgsFold => exact canonical_execDgsFold h
  | upcf => exact canonical_execUpcf h
  | updm => exact canonical_execUpdm h
  | upmo => exact canonical_execUpmo h
  | upst => exact canonical_execUpst h
  | srd => exact canonical_execSrd h
  | swr => exact canonical_execSwr h
  | tret => exact canonical_execTret h
  | tlbi => exact canonical_execTlbi h
  | shot => exact canonical_execShot h
  | csav => exact canonical_execCsav h
  | crst => exact canonical_execCrst h
  | stop => exact canonical_execStop h
  | slp => exact canonical_execSlp h
  | sflt => exact canonical_execSflt h
  | _ => cases hi

theorem canonical_runEvent (h : Canonical s) (e : Event) : CanonicalResult (runEvent e s) := by
  cases e with
  | pendingWriteComplete => exact canonical_execPendingWriteComplete h
  | strandSelect => exact canonical_execStrandSelect h
  | waitSatisfied => exact canonical_execWaitSatisfied h
  | takeTrap => exact canonical_execTakeTrap h
  | overrun => exact canonical_execOverrun h
  | extentPlacement => exact canonical_execExtentPlacement h
  | pageWalkComplete => exact canonical_execPageWalkComplete h
  | releaseComplete => exact canonical_execReleaseComplete h
  | counterAdd => exact canonical_execCounterAdd h
  | barrierComplete => exact canonical_execBarrierComplete h
  | streamCommandStart => exact canonical_execStreamCommandStart h
  | streamCommandComplete => exact canonical_execStreamCommandComplete h
  | arrival => exact canonical_execArrival h
  | dunfRow => exact canonical_execDunfRow h
  | publishSwap => exact canonical_execPublishSwap h
  | kilnCommandStart => exact canonical_execKilnCommandStart h
  | kilnCommandComplete => exact canonical_execKilnCommandComplete h
  | spltDrain => exact canonical_execSpltDrain h
  | spltComplete => exact canonical_execSpltComplete h
  | wldBeat => exact canonical_execWldBeat h
  | strmBeat => exact canonical_execStrmBeat h
  | strmRowsFinal => exact canonical_execStrmRowsFinal h
  | drnBeat => exact canonical_execDrnBeat h
  | drnOutputFinal => exact canonical_execDrnOutputFinal h
  | aclrBeat => exact canonical_execAclrBeat h
  | quiltBeat => exact canonical_execQuiltBeat h
  | quiltStepCycle => exact canonical_execQuiltStepCycle h
  | quiltCommandComplete => exact canonical_execQuiltCommandComplete h
  | fabricQueueArrival => exact canonical_execFabricQueueArrival h
  | rickAgeDeparture => exact canonical_execRickAgeDeparture h
  | ringSlotArrival => exact canonical_execRingSlotArrival h
  | cordPerform => exact canonical_execCordPerform h
  | remoteLoadRequest => exact canonical_execRemoteLoadRequest h
  | flitCrcFailure => exact canonical_execFlitCrcFailure h
  | mgrpComplete => exact .next h.finish
  | mlrJoin => exact canonical_execMlrJoin h
  | mlrJoinDeadline => exact canonical_execMlrJoinDeadline h
  | mlrComplete => exact canonical_execMlrComplete h
  | tlbiComplete => exact canonical_execTlbiComplete h
  | shootdownArrival => exact canonical_execShootdownArrival h
  | holderCountUpdate => exact canonical_execHolderCountUpdate h
  | shotComplete => exact canonical_execShotComplete h
  | governorEpoch => exact canonical_execGovernorEpoch h
  | patrolScrub => exact canonical_execPatrolScrub h
  | launchTake => exact canonical_execLaunchTake h
  | admission => exact canonical_execAdmission h
  | launchStart => exact canonical_execLaunchStart h
  | workUnitStart => exact canonical_execWorkUnitStart h
  | workUnitComplete => exact canonical_execWorkUnitComplete h
  | launchEnd => exact canonical_execLaunchEnd h
  | launchResume => exact canonical_execLaunchResume h
  | superstepBoundary => exact canonical_execSuperstepBoundary h
  | idleSuperstep => exact canonical_execIdleSuperstep h
  | idleSuperstepEnd => exact canonical_execIdleSuperstepEnd h
  | clockChange => exact canonical_execClockChange h
  | powerLimit => exact canonical_execPowerLimit h
  | thermalEmergency => exact canonical_execThermalEmergency h
  | stopFlagSet => exact canonical_execStopFlagSet h
  | stopWindowExpiry => exact canonical_execStopWindowExpiry h
  | tileSaveComplete => exact canonical_execTileSaveComplete h
  | clusterRegionSave => exact canonical_execClusterRegionSave h
  | clusterStopComplete => exact canonical_execClusterStopComplete h
  | hangWatchdog => exact canonical_execHangWatchdog h
  | sequencerOverrun => exact canonical_execSequencerOverrun h
  | selfTestStart => exact canonical_execSelfTestStart h
  | selfTestVerdict => exact canonical_execSelfTestVerdict h
  | systemRegisterPropagate => exact canonical_execSystemRegisterPropagate h
  | packageReset => exact canonical_execPackageReset
  | functionReady => exact canonical_execFunctionReady h
  | bootStage => exact canonical_execBootStage h
  | getVersion | getCapabilities | negotiateAlgorithms | getDigests | getCertificate | challenge | getMeasurements => exact h.answer
  | hdmRead => exact canonical_execHdmRead h
  | hdmWrite => exact canonical_execHdmWrite h
  | counterAddPort => exact canonical_execCounterAddPort h
  | counterReadSlot => exact canonical_execCounterReadSlot h
  | watchEntryWrite => exact canonical_execWatchEntryWrite h
  | popPortRead => exact canonical_execPopPortRead h
  | staggerWrite => exact canonical_execStaggerWrite h
  | staggerMessage => exact canonical_execStaggerMessage h
  | mgmtRegisterWrite => exact canonical_execMgmtRegisterWrite h
  | coreDieTemperature => exact canonical_execCoreDieTemperature h
  | mgmtWindowRead => exact canonical_execMgmtWindowRead h

theorem canonical_exec (h : Canonical s) (i : Instr) : CanonicalResult (exec i s) := by
  cases hi : i.event? with
  | some e =>
    rw [Event.eq_instr_of_event? hi, ← runEvent_eq_exec]
    exact canonical_runEvent h e
  | none => exact canonical_execWord h hi

end Sys2Proof.Machine
end

section
/-! PROOFS. `Canonical` through the bundles of a core, the panels of a gang and a step of the model (O59; R75, R76, R301). -/
namespace Sys2Proof.Machine

-- One theorem at a time, as above: side by side they ask for more threads than the limit on memory admits.
set_option Elab.async false

variable {s : State}

/-! ### Bundles -/

theorem Canonical.setAgenda (h : Canonical s) {l : List (Nat × Event)} : Canonical { s with agenda := l } := h
theorem Canonical.supersede (h : Canonical s) {i} : Canonical (s.supersede i) := .ite h h.setAgenda

theorem canonical_runWords (h : Canonical s) (l : List Instr) : CanonicalResult (runWords l s) := by
  induction l generalizing s with
  | nil => exact .next h
  | cons i l ih =>
    have hi := canonical_exec h i
    unfold runWords
    split
    · rename_i t ht
      have hc : Canonical t := hi.of_next ht
      split
      · exact .next hc
      · exact ih hc.supersede
    · exact hi

theorem Canonical.advance (h : Canonical s) {ends l stop} : Canonical (s.advance ends l stop) := Canonical.onMyTile h.onMe
theorem Canonical.leaveMe (h : Canonical s) : Canonical s.leaveMe := .ite h h.leave

theorem Canonical.endCsav (h : Canonical s) {va} : Canonical (s.endCsav va) := by
  refine .ite h ?_
  split
  · rename_i hu
    exact h.engWriteGlobal hu
  · exact h

theorem Canonical.endCrst (h : Canonical s) {l} : Canonical (s.endCrst l) := by
  unfold State.endCrst
  extract_lets g restored timed
  have hr : Canonical restored := h.onMe.onMyTile
  have ht : Canonical timed := by
    unfold timed
    split
    · exact hr
    · exact hr.sched
  clear_value timed
  exact .ite ht.onMe (.ite ht.exitGang ht)

theorem Canonical.endHalt (h : Canonical s) : Canonical s.endHalt := h.onMe.leave.release
theorem Canonical.endSoft (h : Canonical s) {bundle node code} : Canonical (s.endSoft bundle node code) := h.spend.takeTrap

theorem Canonical.wrapUp (h : Canonical s) : Canonical s.wrapUp := by
  unfold State.wrapUp
  extract_lets b bundle saved restored
  have hs : Canonical saved := by
    unfold saved
    split
    · exact h.endCsav
    · exact h
  have hr : Canonical restored := by
    unfold restored
    split
    · exact hs.endCrst
    · exact hs
  clear_value restored
  split
  · exact hr.endSoft
  · exact .ite hr.endHalt (.ite hr.leaveMe (.ite hr.onMe.onMyTile hr))

theorem Canonical.issue (h : Canonical s) {l t k len follow stg deep} : CanonicalResult (s.issue l t k len follow stg deep) := by
  unfold State.issue
  extract_lets code ready ends
  have hr : Canonical ready := h.onStrand
  have hb : Canonical ((ready.begin t k len follow stg).onBun fun b => { b with checked := true }) := hr.begin.onBun
  exact (canonical_runWords hb _).bind fun _ hu => .next hu.advance

theorem Canonical.trapNow (h : Canonical s) {t k i} : Canonical (s.trapNow t k i) := h.onStrand.takeTrap
theorem Canonical.startPlacement (h : Canonical s) {t k} : Canonical (s.startPlacement t k) := h.onStrand.onTile.soon

theorem Canonical.tryBundle (h : Canonical s) {t k} : CanonicalResult (s.tryBundle t k) := by
  unfold State.tryBundle
  extract_lets x
  split
  · exact .next h.spend.trapNow
  · split
    · exact .next h.stopStrand
    · split
      · exact .next h
      · exact .next h.startPlacement
      · exact .next h.onStrand.onTile
      · exact .next h.begin.blockOn
      · split
        · exact .next h.stopStrand
        · exact h.issue.bind fun _ hu => .next hu.wrapUp

theorem canonical_strandTurn (h : Canonical s) {t k} : CanonicalResult (strandTurn t k s) := by
  unfold strandTurn
  extract_lets x ready
  have hr : Canonical ready := h.onStrand
  clear_value ready
  refine .ite (.next h.leave) (.ite (.next h.onTile) (.ite (.next h.onStrand.spend.spend.trapNow)
    (.ite (.next h.onStrand.spend.spend.trapNow) ?_)))
  split
  · exact .next h.onStrand.give
  · refine .ite (.next hr.onTile) ?_
    split
    · exact .next hr.onStrand.trapNow
    · exact hr.tryBundle

/-! ### Panels -/

theorem Canonical.pass (h : Canonical s) {c it} : Canonical (s.pass c it) := h.onCluster.each fun _ h => h.onTile
theorem Canonical.panelTrap (h : Canonical s) {c t k lead follow} : Canonical (s.panelTrap c t k lead follow) :=
  h.pass.onStrand.spend.trapNow

theorem Canonical.gatherFaults (h : Canonical s) {c} : Canonical (s.gatherFaults c) :=
  h.each fun _ h => by
    dsimp only
    split
    · exact h
    · exact h.onStrand.onCluster

theorem Canonical.memberStop (h : Canonical s) {t k how} : Canonical (s.memberStop t k how) := .ite h.stopStrand.deepStop h.stopStrand
theorem Canonical.memberFault (h : Canonical s) {c t k i} : Canonical (s.memberFault c t k i) := h.spend.onStrand.onCluster

theorem Canonical.memberIssue (h : Canonical s) {c t k it} : CanonicalResult (s.memberIssue c t k it) := by
  refine .ite (.next h) ?_
  extract_lets placed
  have hp : Canonical placed := h.onStrand
  clear_value placed
  split
  · exact .next hp
  · refine .ite (.next hp.memberFault) ?_
    split
    · exact .next hp.memberFault
    · exact hp.issue.bind fun _ hu => .next hu.onMe.wrapUp

theorem Canonical.memberTry (h : Canonical s) {t k it} : Canonical (s.memberTry t k it) := by
  refine .ite h ?_
  extract_lets placed
  have hp : Canonical placed := h.onStrand
  clear_value placed
  split
  · exact hp
  · split
    · exact hp.startWait _
    · exact hp

theorem Canonical.memberTrap (h : Canonical s) {t k it i} : Canonical (s.memberTrap t k it i) := h.onStrand.trapNow

theorem Canonical.runItem (h : Canonical s) {c t k it} : CanonicalResult (s.runItem c t k it) := by
  unfold State.runItem
  extract_lets taken
  have ht : Canonical taken := h.onStrand
  split
  · exact ht.memberIssue
  · exact .next ht.memberTry
  · exact .next ht.memberTrap
  · exact .next ht.onStrand.memberStop

theorem Canonical.bareTrap (h : Canonical s) {c t k cause} : Canonical (s.bareTrap c t k cause) := h.spend.panelTrap
theorem Canonical.stopPanel (h : Canonical s) {c t k how} : Canonical (s.stopPanel c t k how) := h.pass.memberStop

theorem Canonical.leadWait (h : Canonical s) {c t k len w} : Canonical (s.leadWait c t k len w) :=
  Canonical.onTile (.ite h ((Canonical.onMe h.begin).startWait w).pass)

theorem Canonical.leadIssue (h : Canonical s) {c t k l len} : CanonicalResult (s.leadIssue c t k l len) := by
  unfold State.leadIssue
  exact h.issue.bind fun _ hu => .next hu.pass.wrapUp

theorem Canonical.leadBundle (h : Canonical s) {c t k} : CanonicalResult (s.leadBundle c t k) := by
  unfold State.leadBundle
  extract_lets x
  split
  · exact .next h.panelTrap
  · exact .next h.startPlacement
  · exact .next h.onTile
  · exact .next (.ite h.stopPanel h.leadWait)
  · refine .ite (.next h.panelTrap) (.ite (.next h.stopPanel) ?_)
    split
    · exact .next h.leadWait
    · split
      · exact .next h.stopPanel
      · exact h.leadIssue

theorem canonical_leadTurn (h : Canonical s) {t k} : CanonicalResult (leadTurn t k s) := by
  unfold leadTurn
  extract_lets c x gathered
  have hg : Canonical gathered := h.gatherFaults
  refine .ite (.next h.leave) (.ite (.next (h.each fun _ h => h.onStrand).bareTrap) (.ite (.next h.onStrand.bareTrap)
    (.ite (.next h.onTile) (.ite (.next h.onTile) ?_))))
  clear_value gathered
  split
  · exact .next (Canonical.panelTrap hg.onCluster)
  · exact hg.leadBundle

theorem Canonical.nextItem (h : Canonical s) {c t k it} : Canonical (s.nextItem c t k it) := by
  unfold State.nextItem
  extract_lets passed
  have hp : Canonical passed := .ite h.onCluster h
  clear_value passed
  exact .ite hp.onTile (.ite hp.onTile hp)

theorem canonical_followTurn (h : Canonical s) {t k} : CanonicalResult (followTurn t k s) := by
  unfold followTurn
  extract_lets c x
  refine .ite (.next h.leave) ?_
  split
  · exact .next h.onTile
  · refine .ite (.next h.onTile) ?_
    exact h.runItem.bind fun _ hu => .next hu.nextItem

theorem canonical_coreTurn (h : Canonical s) {t} : CanonicalResult (coreTurn t s) := by
  unfold coreTurn
  split
  · exact canonical_execStrandSelect h
  · exact .ite (.ite (canonical_leadTurn h) (canonical_followTurn h)) (canonical_strandTurn h)

/-! ### Steps -/

theorem Canonical.nextCc (h : Canonical s) {m : SMap Tile} (hm : ∀ e ∈ m, e.2.scratch.wf = true) :
    Canonical { s with tiles := m, cc := s.cc + 1, late := false } := h.of_tiles hm

theorem Canonical.tick (h : Canonical s) : Canonical s.tick := by
  unfold State.tick
  extract_lets tiles counted timed
  have hm : ∀ e ∈ tiles, e.2.scratch.wf = true := SMap.all_map (P := fun x : Tile => x.scratch.wf = true) fun e he => by
    split
    · exact h.1 e he
    · exact h.1 e he
  have hc : Canonical counted := h.nextCc hm
  have ht : Canonical timed := .ite hc hc.powerMs
  exact ht.settleQueues.each fun _ h => h.sched

theorem Canonical.idle (h : Canonical s) : CanonicalResult s.idle := by
  refine .ite (.next h.tick) ?_
  split
  · exact canonical_coreTurn h
  · exact .next h

theorem canonical_step (h : Canonical s) : CanonicalResult (step s) := by
  unfold step
  split
  · exact h.idle
  · exact .ite (canonical_runEvent h.setAgenda _) h.idle

end Sys2Proof.Machine
end

section
open Sys2Proof Sys2Proof.Machine
/-- Settles O59: a step is an event or a core's turn, and each operation that either is made of keeps the form (`canonical_step`). -/
theorem memoriesStayCanonical : Obligations.MemoriesStayCanonical := by
  unfold Obligations.MemoriesStayCanonical
  intro s t h hs
  exact (canonical_step h).of_next hs
end

section
/-! SUPPORT. What the small changes behind a command leave (`Stirs`): steps set on the agenda, a core that looks again, a
watch that is answered; and the first part of a memory. -/
namespace Sys2Proof

-- One theorem at a time, as above: side by side they ask for more threads than the limit on memory admits.
set_option Elab.async false

/-- The part of a memory below a bound reads as the memory there, and as zero above. -/
theorem Memory.read_filter_lt (m : Memory) (b a : Nat) : Memory.read (m.filter fun c => c.1 < b) a = if a < b then m.read a else 0 := by
  induction m with
  | nil => exact (ite_self _).symm
  | cons e m ih =>
    obtain ⟨j, x⟩ := e
    by_cases hj : j < b
    · rw [List.filter_cons_of_pos (by simpa using hj), Memory.read, Memory.read, ih]
      by_cases ha : j = a
      · rw [if_pos ha, if_pos ha, if_pos (ha ▸ hj)]
      · rw [if_neg ha, if_neg ha]
    · rw [List.filter_cons_of_neg (by simpa using hj), Memory.read, ih]
      by_cases ha : j = a
      · rw [if_neg (ha ▸ hj), if_neg (ha ▸ hj)]
      · rw [if_neg ha]

namespace Machine

/-- t differs from s in no cluster, die, strand or byte, and keeps what is on the agenda: cores may look again, steps may be
set, and something may have left the package. -/
structure Stirs (s t : State) : Prop where
  cc : t.cc = s.cc
  clusters : t.clusters = s.clusters
  dies : t.dies = s.dies
  strand : ∀ n j, t.strand n j = s.strand n j
  scratch : ∀ n, (t.tile n).scratch = (s.tile n).scratch
  agenda : ∀ e ∈ s.agenda, e ∈ t.agenda

variable {s t u : State}

theorem Stirs.refl (s : State) : Stirs s s := ⟨rfl, rfl, rfl, fun _ _ => rfl, fun _ => rfl, fun _ h => h⟩

theorem Stirs.trans (h : Stirs s t) (g : Stirs t u) : Stirs s u where
  cc := g.cc.trans h.cc
  clusters := g.clusters.trans h.clusters
  dies := g.dies.trans h.dies
  strand n j := (g.strand n j).trans (h.strand n j)
  scratch n := (g.scratch n).trans (h.scratch n)
  agenda e he := g.agenda e (h.agenda e he)

theorem Stirs.cluster (h : Stirs s t) (c : Nat) : t.cluster c = s.cluster c := congrArg (SMap.get _ · c) h.clusters

theorem Stirs.die (h : Stirs s t) (d : Nat) : t.die d = s.die d := congrArg (SMap.get _ · d) h.dies

theorem Stirs.sameBytes (h : Stirs s t) : SameBytes s t :=
  ⟨fun n a => by rw [h.scratch], fun c a => by rw [h.cluster], fun d a => by rw [h.die]⟩

theorem stirs_sched (s : State) (cc slot : Nat) (e : Event) : Stirs s (s.sched cc slot e) :=
  { Stirs.refl s with agenda := fun _ h => mem_insertKey.2 (.inr h) }

theorem stirs_soon (s : State) (b slot : Nat) (e : Event) : Stirs s (s.soon b slot e) :=
  { Stirs.refl s with agenda := fun _ h => mem_insertKey.2 (.inr h) }

theorem stirs_each {α : Type} {f : State → α → State} (hf : ∀ s x, Stirs s (f s x)) (l : List α) (s : State) : Stirs s (s.each l f) :=
  each_keeps Stirs Stirs.refl (fun _ _ _ => Stirs.trans) l f hf s

theorem stirs_onTile {f : Tile → Tile} (s : State) (n : Nat) (hk : ∀ x, (f x).strands = x.strands)
    (hm : ∀ x, (f x).scratch = x.scratch) : Stirs s (s.onTile n f) where
  cc := rfl
  clusters := rfl
  dies := rfl
  strand m j := by
    rw [State.strand_onTile]
    split
    · next h => subst h; exact congrArg (SMap.get _ · j) (hk _)
    · rfl
  scratch m := by
    rw [State.tile_onTile]
    split
    · next h => subst h; exact hm _
    · rfl
  agenda _ h := h

theorem stirs_stir (s : State) (n : Nat) : Stirs s (s.stir n) := by
  have hact (a : Nat) : Stirs s (s.onTile n fun x => { x with act := some a }) := stirs_onTile s n (fun _ => rfl) fun _ => rfl
  unfold State.stir
  extract_lets now
  split
  · exact hact now
  · split
    · exact .refl s
    · exact hact now
  · exact .refl s

theorem stirs_holderUpdate (s : State) (d : Nat) (p : BitVec 16) (n : Nat) (add : Bool) : Stirs s (s.holderUpdate d p n add) := by
  unfold State.holderUpdate
  split
  · exact stirs_soon ..
  · exact { Stirs.refl s with }

/-! ### A way split (R87, R89) -/

theorem stirs_dropCopies (s : State) (d : Nat) (f : Copy → Bool) :
    Stirs (s.onDie d fun x => { x with copies := x.copies.filter fun y => !f y }) (s.dropCopies d f) :=
  stirs_each (fun _ _ => stirs_holderUpdate ..) _ _

theorem cacheless_iff (s : State) (d : Nat) : s.cacheless d = true ↔ ∀ i, i < 32 → (s.cluster (32 * d + i)).cw = 0 := by
  simp [State.cacheless]

/-- But for the copies of a die that keeps no cache way, the state stands. -/
theorem stirs_dropUncached (s : State) (d : Nat) :
    Stirs (if s.cacheless d then s.onDie d fun x => { x with copies := [] } else s) (s.dropUncached d) := by
  unfold State.dropUncached
  split
  · simpa using stirs_dropCopies s d fun _ => true
  · exact .refl s

end Machine
end Sys2Proof
end

section
/-! PROOFS. The way split (O30): its drain, its completion, and the bytes that change hands. -/
namespace Sys2Proof.Machine

-- One theorem at a time, as above: side by side they ask for more threads than the limit on memory admits.
set_option Elab.async false

variable {s : State} {c : Nat} {p : Split}

/-- A cluster whose ways have moved. -/
def Cluster.moved (x : Cluster) (p : Split) : Cluster :=
  { x with
    cw := p.wn, tw := p.wn, busy := false, seq := x.seq + 1, split := none
    store := x.store.filter fun b => b.1 < min x.storeSize ((16 - p.wn) * 0x400000) }

/-- The state in which the ways of cluster c have moved and a die without a cache way has no copy. -/
def State.moved (s : State) (c : Nat) (p : Split) : State := (s.onCluster c (·.moved p)).dropUncached (c / 32)

/-- The strand of a split is held no more. -/
def State.unheld (s : State) (p : Split) : State := (s.onStrand p.org.tile p.org.strand fun x => { x with hold := none }).stir p.org.tile

/-- The commands that the split of cluster c held are looked at. -/
def State.unsplit (s : State) (c : Nat) : State :=
  (s.sched s.cc slotBegin (.kilnCommandStart c)).each (tilesOf c) fun s t => s.sched s.cc slotBegin (.streamCommandStart t)

theorem exec_spltDrain_none (h : (s.cluster c).split = none) : exec (.spltDrain c) s = .next s := by
  unfold exec execSpltDrain
  simp only [h]

theorem exec_spltComplete_none (h : (s.cluster c).split = none) : exec (.spltComplete c) s = .next s := by
  unfold exec execSpltComplete
  simp only [h]

theorem exec_spltDrain_waits (h : (s.cluster c).split = some p) (hw : s.splitWaits c p.wn = true) :
    exec (.spltDrain c) s = .next (s.sched (s.cc + 1) slotSplit (.spltDrain c)) := by
  unfold exec execSpltDrain
  simp only [h, if_pos hw]

theorem exec_spltDrain_moves (h : (s.cluster c).split = some p) (hw : s.splitWaits c p.wn = false) :
    exec (.spltDrain c) s = .next (s.soon (4096 * (max (s.cluster c).cw p.wn - min (s.cluster c).cw p.wn) + 64) (slotKiln c)
      (.spltComplete c)) := by
  have hways : (if (s.cluster c).cw ≤ p.wn then p.wn - (s.cluster c).cw else (s.cluster c).cw - p.wn) =
      max (s.cluster c).cw p.wn - min (s.cluster c).cw p.wn := by split <;> omega
  unfold exec execSpltDrain
  simp only [h, hw, hways, Bool.false_eq_true, if_false]

theorem exec_spltComplete_some (h : (s.cluster c).split = some p) :
    exec (.spltComplete c) s = .next (((s.moved c p).unheld p).unsplit c) := by
  unfold exec execSpltComplete
  simp only [h]
  rfl

/-! ### What the completion leaves -/

/-- Steps of one slot of this cc, set one after another: each is on the agenda. -/
theorem mem_agenda_each_sched {slot : Nat} (e : Nat → Event) (l : List Nat) (s : State) {n : Nat} (h : n ∈ l) :
    (keyOf s.cc slot, e n) ∈ (s.each l fun s n => s.sched s.cc slot (e n)).agenda := by
  have hall : ∀ l s, Stirs s (State.each s l fun s n => s.sched s.cc slot (e n)) := stirs_each fun s _ => stirs_sched s ..
  induction l generalizing s with
  | nil => exact absurd h List.not_mem_nil
  | cons m l ih =>
    rcases List.mem_cons.1 h with rfl | h
    · exact (hall l _).agenda _ (insertKey_mem ..)
    · exact ih (s.sched s.cc slot (e m)) h

theorem stirs_unsplit (s : State) (c : Nat) : Stirs s (s.unsplit c) :=
  (stirs_sched ..).trans (stirs_each (fun s _ => stirs_sched s ..) _ _)

theorem mem_agenda_unsplit (s : State) (c : Nat) : (keyOf s.cc slotBegin, Event.kilnCommandStart c) ∈ (s.unsplit c).agenda ∧
    ∀ i, i < 8 → (keyOf s.cc slotBegin, Event.streamCommandStart (8 * c + i)) ∈ (s.unsplit c).agenda :=
  ⟨(stirs_each (fun s _ => stirs_sched s ..) _ _).agenda _ (insertKey_mem ..), fun _ hi =>
    mem_agenda_each_sched Event.streamCommandStart _ (s.sched s.cc slotBegin (.kilnCommandStart c)) (by simp [tilesOf, hi])⟩

theorem store_moved (x : Cluster) (p : Split) (a : Nat) : (x.moved p).store.read a =
    if a < (16 - x.cw) * 0x400000 ∧ a < (16 - p.wn) * 0x400000 then x.store.read a else 0 := by
  simp only [← lt_inf_iff]
  exact Memory.read_filter_lt ..

theorem cluster_moved (s : State) (c : Nat) (p : Split) (d : Nat) : (s.moved c p).cluster d = (s.onCluster c (·.moved p)).cluster d := by
  rw [State.moved, (stirs_dropUncached _ _).cluster]
  split <;> rfl

theorem die_moved (s : State) (c : Nat) (p : Split) (d : Nat) : (s.moved c p).die d =
    if d = c / 32 ∧ (s.moved c p).cacheless d then { s.die d with copies := [] } else s.die d := by
  have hcl (d : Nat) : (s.moved c p).cacheless d = (s.onCluster c (·.moved p)).cacheless d := by
    simp only [State.cacheless, cluster_moved]
  rw [hcl, State.moved, (stirs_dropUncached _ _).die]
  by_cases h : (s.onCluster c (·.moved p)).cacheless (c / 32)
  · rw [if_pos h, State.die_onDie]
    by_cases hd : d = c / 32
    · rw [if_pos hd, if_pos ⟨hd, hd ▸ h⟩, hd]; rfl
    · rw [if_neg hd, if_neg fun g => hd g.1]; rfl
  · rw [if_neg h, if_neg fun (g : d = c / 32 ∧ _) => h (g.1 ▸ g.2)]; rfl

theorem tile_moved (s : State) (c : Nat) (p : Split) (n : Nat) :
    (∀ k, (s.moved c p).strand n k = s.strand n k) ∧ ((s.moved c p).tile n).scratch = (s.tile n).scratch := by
  have hd := stirs_dropUncached (s.onCluster c (·.moved p)) (c / 32)
  refine ⟨fun k => (hd.strand n k).trans ?_, (hd.scratch n).trans ?_⟩ <;> split <;> rfl

/-- What SPLT_COMPLETE leaves. -/
theorem spltComplete_leaves (s : State) (c : Nat) (p : Split) : let t := ((s.moved c p).unheld p).unsplit c
    (∀ d, t.cluster d = if d = c then (s.cluster c).moved p else s.cluster d) ∧
    (∀ n, (t.tile n).scratch = (s.tile n).scratch) ∧ (∀ d, t.die d = (s.moved c p).die d) ∧
    t.strand p.org.tile p.org.strand = { s.strand p.org.tile p.org.strand with hold := none } ∧
    (keyOf s.cc slotBegin, Event.kilnCommandStart c) ∈ t.agenda ∧
    ∀ i, i < 8 → (keyOf s.cc slotBegin, Event.streamCommandStart (8 * c + i)) ∈ t.agenda := by
  have hr := (stirs_stir ((s.moved c p).onStrand p.org.tile p.org.strand fun x => { x with hold := none }) p.org.tile).trans
    (stirs_unsplit _ c)
  refine ⟨fun d => ?_, fun n => ?_, fun d => hr.die d, ?_, ?_⟩
  · exact (hr.cluster d).trans ((cluster_moved s c p d).trans (State.cluster_onCluster ..))
  · rw [← (tile_moved s c p n).2]
    refine (hr.scratch n).trans ?_
    rw [State.tile_onStrand]
    split
    · next h => subst h; rfl
    · rfl
  · rw [← (tile_moved s c p _).1]
    exact (hr.strand _ _).trans (State.strand_onStrand_same ..)
  · have hcc : ((s.moved c p).unheld p).cc = s.cc := by
      refine (stirs_stir ..).cc.trans ((stirs_dropUncached (s.onCluster c (·.moved p)) (c / 32)).cc.trans ?_)
      split <;> rfl
    rw [← hcc]
    exact mem_agenda_unsplit ..

/-- Settles O30: the move itself (`Cluster.moved`, `die_moved`, `store_moved`); what follows it sets steps only (`Stirs`). -/
theorem splitRuns : Obligations.SplitRuns := by
  unfold Obligations.SplitRuns
  refine ⟨fun c s h => ⟨exec_spltDrain_none h, exec_spltComplete_none h⟩, fun c p s h => ?_⟩
  dsimp only
  refine ⟨fun hw => ⟨_, exec_spltDrain_waits h hw, rfl, insertKey_mem ..⟩, fun hw hs => ⟨_, exec_spltDrain_moves h hw, ?_, ?_⟩,
    _, exec_spltComplete_some h, ?_⟩
  · change ({ s with slack := s.slack.tail } : State) = s
    rw [hs, List.tail_nil, ← hs]
  · have hdue := dueCc_of_slack_nil hs (4096 * (max (s.cluster c).cw p.wn - min (s.cluster c).cw p.wn) + 64)
    rw [← Nat.add_assoc] at hdue
    rw [← hdue]
    exact insertKey_mem ..
  obtain ⟨hcl, hscratch, hdie, hstrand, hkiln, hstream⟩ := spltComplete_leaves s c p
  have hcw : ∀ d, (∀ i, i < 32 → ((((s.moved c p).unheld p).unsplit c).cluster (32 * d + i)).cw = 0) ↔
      (s.moved c p).cacheless d = true := fun d => by
    simp only [cacheless_iff, hcl, cluster_moved, State.cluster_onCluster]
  generalize ((s.moved c p).unheld p).unsplit c = t at *
  have hc : t.cluster c = (s.cluster c).moved p := (hcl c).trans (if_pos rfl)
  rw [hc, hstrand]
  refine ⟨rfl, rfl, rfl, rfl, rfl, fun d hd => (hcl d).trans (if_neg hd), hscratch, store_moved _ p, ?_, ?_, ?_, hkiln, hstream, rfl, rfl⟩
  · intro d
    rw [hdie, die_moved]
    split <;> rfl
  · rintro d hd
    rw [hdie, die_moved, if_neg]
    rintro ⟨rfl, hn⟩
    obtain ⟨i, hi, hne⟩ := hd.resolve_left (· rfl)
    exact hne ((hcw _).2 hn i hi)
  · intro hd
    rw [hdie, die_moved, if_pos ⟨rfl, (hcw _).1 hd⟩]

end Sys2Proof.Machine
end

section
/-! PROOFS. Class N and SPLT (O28): a command enters the cluster's queue, the status, and a split starts. -/
namespace Sys2Proof.Machine

-- One theorem at a time, as above: side by side they ask for more threads than the limit on memory admits.
set_option Elab.async false

variable {s : State}

/-! ### Commands of the kiln -/

theorem number_bump_kiln (x : Strand) {e : Nat} (he : e ≠ 7) : ({ x with seqs := x.seqs.bump 7 } : Strand).number e = x.number e := by
  unfold Strand.number
  split
  case h_6 => exact absurd rfl he
  all_goals rfl

/-- A word that sends a command to the kiln uses the strand's number, and the command is outstanding. -/
theorem numbers_command_kiln (s : State) : Numbers s (s.command 7 false).2 7 false := by
  have hme : (s.command 7 false).2.me = { s.me.issued 7 s.me.seqs.kiln false with seqs := s.me.seqs.bump 7 } := State.command_me ..
  refine ⟨by rw [hme]; rfl, by rw [hme]; rfl, fun e he => ?_, by rw [hme]; rfl, fun k hk => ?_⟩
  · rw [hme]
    exact number_bump_kiln (s.me.issued 7 s.me.seqs.kiln false) he
  · rw [State.command_snd, State.onMe_def, State.strand_onStrand, if_neg fun h => hk h.2]

theorem tile_command (s : State) (e : Nat) (b : Bool) {n : Nat} (hn : n ≠ s.bun.tile) : (s.command e b).2.tile n = s.tile n := by
  rw [State.command_snd, State.onMe_def, State.tile_onStrand, if_neg hn]

theorem myTile_command (s : State) (e : Nat) (b : Bool) :
    { (s.command e b).2.myTile with strands := s.myTile.strands } = s.myTile := by
  rw [State.command_snd, State.myTile_onMe]
  rfl

theorem sameBytes_command (s : State) (e : Nat) (b : Bool) : SameBytes s (s.command e b).2 := sameBytes_onMe ..

theorem onCluster_congr {c : Nat} {f g : Cluster → Cluster} (s : State) (h : f (s.cluster c) = g (s.cluster c)) :
    s.onCluster c f = s.onCluster c g := congrArg (fun x => { s with clusters := SMap.put s.clusters c x }) h

theorem cluster_write (s : State) (b : Nat) (w : Write) (c : Nat) : (s.write b w).cluster c = s.cluster c := by
  obtain ⟨⟨⟨hrest, -⟩, -⟩, -⟩ := posts_write s b w
  have hcl := congrArg (State.cluster · c) hrest
  exact hcl

/-! ### Entering the queue (R91) -/

/-- The command that an N word sends. -/
def State.kilnCmd (s : State) (op : KOp) (cnt bf : Bool) : KCmd :=
  ⟨op, cnt, bf, s.me.n, s.origin s.me.seqs.kiln, s.me.relNext, (s.cluster s.myCluster).splits, .zero, none, 0⟩

theorem toKiln_eq (s : State) (op : KOp) (cnt bf : Bool) : s.toKiln op cnt bf =
    ((s.command 7 false).2.onCluster s.myCluster fun y => { y with kq := y.kq ++ [s.kilnCmd op cnt bf] }).sched s.cc slotKilnStart
      (.kilnCommandStart s.myCluster) := by
  have hme : (s.command 7 false).2.me = { s.me.issued 7 s.me.seqs.kiln false with seqs := s.me.seqs.bump 7 } := State.command_me ..
  unfold State.toKiln
  dsimp only
  rw [hme]
  rfl

/-- An N word with room in the queue. -/
theorem toKiln_enters (s : State) (op : KOp) (cnt bf : Bool) : let t := s.toKiln op cnt bf
    Numbers s t 7 false ∧ SameBytes s t ∧ (∀ m, m ≠ s.bun.tile → t.tile m = s.tile m) ∧
    { t.myTile with strands := s.myTile.strands } = s.myTile ∧ t.dies = s.dies ∧
    (∀ c, c ≠ s.myCluster → t.cluster c = s.cluster c) ∧
    t.cluster s.myCluster = { s.cluster s.myCluster with kq := (s.cluster s.myCluster).kq ++ [s.kilnCmd op cnt bf] } ∧
    (keyOf s.cc slotKilnStart, Event.kilnCommandStart s.myCluster) ∈ t.agenda := by
  dsimp only
  rw [toKiln_eq]
  refine ⟨numbers_command_kiln s, sameBytes_sched (sameBytes_trans (sameBytes_command s 7 false) ?_) .., fun m hm => tile_command s 7 false hm,
    myTile_command s 7 false, rfl, fun c hc => ?_, ?_, insertKey_mem ..⟩
  · exact sameBytes_onCluster _ _ _ fun _ => rfl
  · rw [State.sched_cluster, State.cluster_onCluster, if_neg hc]
    rfl
  · rw [State.sched_cluster, State.cluster_onCluster_same]
    rfl

theorem kilnRoom_ok (h : (s.cluster s.myCluster).kq.length < 8) : kilnRoom s = .ok := need_eq_ok (decide_eq_true h) _

theorem kilnRoom_block (h : 8 ≤ (s.cluster s.myCluster).kq.length) : kilnRoom s = .block .kilnQueue :=
  need_eq_else (decide_eq_false (Nat.not_lt.2 h)) _

/-- The class N words by what they send. -/
theorem exec_kiln {r : Instr × KOp × Bool × Bool} {mom cnt bf : Bool}
    (hr : r ∈ [(Instr.upcf, KOp.upcf, false, false), (.updm mom cnt bf, .updm mom, cnt, bf), (.upmo cnt bf, .upmo, cnt, bf)]) (s : State) :
    exec r.1 s = guarded kilnRoom (fun s => s.toKiln r.2.1 r.2.2.1 r.2.2.2) s := by
  simp only [List.mem_cons, List.not_mem_nil, or_false] at hr
  rcases hr with rfl | rfl | rfl
  · rfl
  · rfl
  · rfl

/-! ### The status (Table MEM-10, R96) -/

theorem kilnStatus_fields (x : Cluster) : let v := kilnStatus x
    v.extractLsb' 32 32 = x.kDone ∧ v.extractLsb' 16 16 = BitVec.ofNat 16 x.kSkip ∧
    v.extractLsb' 8 4 = BitVec.ofNat 4 x.kq.length ∧ v.getLsbD 3 = x.krun.isSome ∧
    v.getLsbD 2 = x.kFlags.cl ∧ v.getLsbD 1 = x.kFlags.ov ∧ v.getLsbD 0 = x.kFlags.nv := by
  have hdone : BitVec.ofNat 32 x.kDone.toNat = x.kDone := by rw [BitVec.ofNat_toNat, BitVec.setWidth_eq]
  unfold kilnStatus
  exact ⟨(extract_packLow (lo := 32) 8 rfl rfl (by decide)).trans hdone, extract_packLow 7 rfl rfl (by decide),
    extract_packLow 5 rfl rfl (by decide), getLsbD_packLow 3 rfl rfl (by decide), getLsbD_packLow 2 rfl rfl (by decide),
    getLsbD_packLow 1 rfl rfl (by decide), getLsbD_packLow 0 rfl rfl (by decide)⟩

/-- UPST posts the status; what it clears are the flags but for those of this cc. -/
theorem exec_upst (clr : Bool) (s : State) : let w := s.write 2 (.stg .kiln 0 (kilnStatus (s.cluster s.myCluster)))
    exec (.upst clr) s = .next (if clr then w.onCluster s.myCluster fun x =>
      { x with kFlags := if x.kNew.1 = s.cc then x.kNew.2 else .zero } else w) := rfl

/-! ### SPLT (R87, R88) -/

/-- A strand stands at a split point, as the statement says it. -/
theorem atSplitPoint_iff (s : State) : atSplitPoint s = true ↔
    ∃ g, s.me.splitGen = some g ∧ ∀ h, (s.cluster s.myCluster).lastSplitGen = some h → h < g := by
  unfold atSplitPoint
  cases s.me.splitGen with
  | none => simp
  | some g => cases (s.cluster s.myCluster).lastSplitGen <;> simp

theorem spltCheck_ok {a : Reg} (hle : (s.me.readG a).toNat ≤ 16) (hp : atSplitPoint s = true) : spltCheck a s = .ok := by
  unfold spltCheck
  dsimp only
  rw [need_eq_ok (decide_eq_true hle), Check.ok_and, need_eq_ok hp]

theorem spltCheck_range {a : Reg} (h : 16 < (s.me.readG a).toNat) : spltCheck a s = .trap .splitRange (some (s.me.readG a)) none := by
  unfold spltCheck
  dsimp only
  rw [need_eq_else (decide_eq_false (Nat.not_le.2 h))]
  rfl

theorem spltCheck_order {a : Reg} (hle : (s.me.readG a).toNat ≤ 16) (hp : atSplitPoint s = false) :
    spltCheck a s = .trap .splitOrder (some (s.me.readG a)) none := by
  unfold spltCheck
  dsimp only
  rw [need_eq_ok (decide_eq_true hle), Check.ok_and, need_eq_else hp]
  rfl

/-- What SPLT does to its strand: a number of the synchronisation engine is used, and it is held. -/
def Strand.splits (x : Strand) : Strand := { x with seqs := x.seqs.bump 6, splitGen := none, hold := some .split }

/-- What SPLT does to its cluster. -/
def Cluster.splitting (x : Cluster) (o : Origin) (wn g : Nat) : Cluster :=
  { x with tw := wn, busy := true, split := some ⟨o, wn⟩, splits := x.splits + 1, lastSplitGen := some g }

/-- The part of SPLT at the strand. -/
def State.held (s : State) : State := s.yWord.onMe fun x => { x with hold := some .split }

theorem onlyMe_held (s : State) : OnlyMe s s.held := (onlyMe_onMe2 ..).trans (onlyMe_onMe ..)

theorem me_held (s : State) : s.held.me = s.me.splits := by
  simp only [State.held, State.yWord, State.numbered, State.me_onMe]
  rfl

theorem exec_splt_ok {a : Reg} (hc : spltCheck a s = .ok) : exec (.splt a) s = .next ((s.held.onCluster s.myCluster fun x =>
    x.splitting (s.origin s.me.seqs.sync) (s.me.readG a).toNat s.barCount).sched s.cc slotSplit (.spltDrain s.myCluster)) := by
  change execSplt a s = _
  exact guarded_ok hc

/-- SPLT at a split point. -/
theorem splt_starts (s : State) (o : Origin) (wn g : Nat) :
    let t := (s.held.onCluster s.myCluster fun x => x.splitting o wn g).sched s.cc slotSplit (.spltDrain s.myCluster)
    SameBytes s t ∧ (∀ m, m ≠ s.bun.tile → t.tile m = s.tile m) ∧ { t.myTile with strands := s.myTile.strands } = s.myTile ∧
      (∀ k, k ≠ s.bun.strand → t.strand s.bun.tile k = s.strand s.bun.tile k) ∧ t.me = s.me.splits ∧
      (∀ c, c ≠ s.myCluster → t.cluster c = s.cluster c) ∧ t.cluster s.myCluster = (s.cluster s.myCluster).splitting o wn g := by
  obtain ⟨-, htile, hmine, hstrand⟩ := onlyMe_held s
  have hbytes : SameBytes s s.held := sameBytes_trans (sameBytes_trans (sameBytes_onMe ..) (sameBytes_onMe ..)) (sameBytes_onMe ..)
  refine ⟨sameBytes_sched (sameBytes_trans hbytes ?_) .., htile, hmine, hstrand, me_held s, fun c hc => ?_, ?_⟩
  · exact sameBytes_onCluster _ _ _ fun _ => rfl
  · rw [State.sched_cluster, State.cluster_onCluster, if_neg hc]
    rfl
  · rw [State.sched_cluster, State.cluster_onCluster_same]
    rfl

/-- Settles O28: the checks decide the outcome, and `toKiln_enters`, `kilnStatus_fields` and `splt_starts` say what it leaves. -/
theorem kilnWords : Obligations.KilnWords := by
  unfold Obligations.KilnWords
  intro mom cnt bf clr a s
  dsimp only
  refine ⟨fun r hr => ⟨fun hlt => ?enter, fun hc hfull => ?full⟩, ?status, fun hle hp => ?split, fun hc h => ?range, fun hc hle hp => ?order⟩
  case enter =>
    obtain ⟨hnum, hbytes, htile, hmine, hdies, hothers, hcl, hev⟩ := toKiln_enters s r.2.1 r.2.2.1 r.2.2.2
    exact ⟨_, s.kilnCmd r.2.1 r.2.2.1 r.2.2.2, (exec_kiln hr s).trans (guarded_ok (kilnRoom_ok hlt)), hnum, hbytes, htile, hmine,
      hdies, hothers, hcl, hev, rfl, rfl, rfl, rfl, rfl⟩
  case full => exact (exec_kiln hr s).trans (guarded_block hc (kilnRoom_block hfull))
  case status =>
    refine ⟨_, kilnStatus (s.cluster s.myCluster), exec_upst clr s, ⟨_, posts_write s 2 _, ?_, ?_⟩, kilnStatus_fields _⟩
    · rintro rfl
      rfl
    · rintro rfl hnew
      refine (if_pos rfl).trans (onCluster_congr _ ?_)
      rw [cluster_write, if_neg hnew]
  case split =>
    obtain ⟨hbytes, htile, hmine, hstrand, hme, hothers, hcl⟩ := splt_starts s (s.origin s.me.seqs.sync) (s.me.readG a).toNat s.barCount
    refine ⟨_, exec_splt_ok (spltCheck_ok hle ((atSplitPoint_iff s).2 hp)), hbytes, htile, hmine, hstrand, ?_, ?_, hothers, hcl,
      insertKey_mem ..⟩
    · rw [hme]; rfl
    · rw [hme]; rfl
  case range =>
    change execSplt a s = _
    exact guarded_trap hc (spltCheck_range h)
  case order =>
    change execSplt a s = _
    exact guarded_trap hc (spltCheck_order hle (by rw [← Bool.not_eq_true, atSplitPoint_iff]; exact hp))

end Sys2Proof.Machine
end

section
/-! SUPPORT. Division and square root in FP32 (R50, R93): exact, then rounded once. -/
namespace Sys2Proof.Machine

-- One theorem at a time, as above: side by side they ask for more threads than the limit on memory admits.
set_option Elab.async false

/-! ### Reading a code -/

/-- A finite code is read as its sign, significand and exponent. -/
theorem fpRead_finite {p a : Nat} (h : codeFinite p a) : ∃ m e, fpRead p a = .fin (codeNeg p a) m e ∧
    (codeVal p a : ℝ) = withSign (codeNeg p a) (m * 2 ^ (e : ℤ)) := by
  have hread : fpRead p a = if a / 2 ^ (p - 1) % 256 = 0 then .fin (codeNeg p a) (a % 2 ^ (p - 1)) (-125 - (p : ℤ))
      else .fin (codeNeg p a) (a % 2 ^ (p - 1) + 2 ^ (p - 1)) (((a / 2 ^ (p - 1) % 256 : Nat) : ℤ) - 126 - p) := if_neg h
  by_cases hx : a / 2 ^ (p - 1) % 256 = 0
  · refine ⟨_, _, hread.trans (if_pos hx), ?_⟩
    cases hn : codeNeg p a <;> simp [codeVal, hn, hx]
  · refine ⟨_, _, hread.trans (if_neg hx), ?_⟩
    cases hn : codeNeg p a <;> simp [codeVal, hn, hx, add_comm]

theorem withSign_eq_zero {neg : Bool} {z : ℝ} : withSign neg z = 0 ↔ z = 0 := by cases neg <;> simp

/-- The significand of a code that is not zero. -/
theorem mantissa_pos_iff {neg : Bool} {m : Nat} {e : ℤ} : withSign neg ((m : ℝ) * 2 ^ e) ≠ 0 ↔ 0 < m := by
  rw [ne_eq, withSign_eq_zero, mul_eq_zero, or_iff_left (zpow_ne_zero e two_ne_zero), Nat.cast_eq_zero, Nat.pos_iff_ne_zero]

/-! ### Quotients and roots of naturals -/

theorem isMag_div (a : Nat) {n : Nat} (hn : 0 < n) (e : ℤ) : IsMag ((a : ℝ) / n * 2 ^ e) (a / n) e (a % n != 0) := by
  have he : (0 : ℝ) < 2 ^ e := by positivity
  have hn' : (0 : ℝ) < n := Nat.cast_pos.2 hn
  have hdiv : (a : ℝ) / n = (a / n : Nat) + (a % n : Nat) / (n : ℝ) := by
    rw [div_eq_iff hn'.ne', add_mul, div_mul_cancel₀ _ hn'.ne']
    exact_mod_cast (Nat.div_add_mod' a n).symm
  have hrem : ((a % n : Nat) : ℝ) / n < 1 := (div_lt_one hn').2 (Nat.cast_lt.2 (Nat.mod_lt _ hn))
  refine ⟨?_, ?_, ?_⟩
  · rw [hdiv]
    exact mul_le_mul_of_nonneg_right (le_add_of_nonneg_right (by positivity)) he.le
  · rw [hdiv]
    exact mul_lt_mul_of_pos_right (add_lt_add_right hrem _) he
  · rw [bne_iff_ne, ne_eq, ne_eq, mul_left_inj' he.ne', hdiv, add_eq_left, div_eq_zero_iff, or_iff_left hn'.ne', Nat.cast_eq_zero]

/-- `isqrtFrom` finds the root between r and r + 2^(n+1). -/
theorem isqrtFrom_spec {x n r : Nat} (hlo : r * r ≤ x) (hhi : x < (r + 2 ^ (n + 1)) * (r + 2 ^ (n + 1))) :
    let q := isqrtFrom x n r
    q * q ≤ x ∧ x < (q + 1) * (q + 1) := by
  induction n generalizing r with
  | zero =>
    simp only [isqrtFrom]
    split
    · next h => exact ⟨h, hhi⟩
    · next h => exact ⟨hlo, Nat.lt_of_not_le h⟩
  | succ n ih =>
    simp only [isqrtFrom]
    split
    · next h => exact ih h (by rwa [Nat.add_assoc, ← Nat.two_mul, ← pow_succ'])
    · next h => exact ih hlo (Nat.lt_of_not_le h)

theorem isqrt_spec (x : Nat) : isqrt x * isqrt x ≤ x ∧ x < (isqrt x + 1) * (isqrt x + 1) := by
  refine isqrtFrom_spec (Nat.zero_le x) ?_
  have hx : x < 2 ^ bitLen x := by
    rcases Nat.eq_zero_or_pos x with rfl | hx
    · exact Nat.two_pow_pos _
    · exact (bitLen_spec hx).2.2
  rw [Nat.zero_add, ← pow_add]
  exact hx.trans_le (Nat.pow_le_pow_right two_pos (by omega))

theorem isMag_sqrt (x : Nat) (e : ℤ) : IsMag (√x * 2 ^ e) (isqrt x) e (isqrt x * isqrt x != x) := by
  have he : (0 : ℝ) < 2 ^ e := by positivity
  obtain ⟨hlo, hhi⟩ := isqrt_spec x
  refine ⟨mul_le_mul_of_nonneg_right (Real.le_sqrt_of_sq_le ?_) he.le, mul_lt_mul_of_pos_right ?_ he, ?_⟩
  · exact_mod_cast (sq (isqrt x)).trans_le hlo
  · refine (Real.sqrt_lt' (by positivity)).2 ?_
    exact_mod_cast hhi.trans_eq (sq _).symm
  · rw [bne_iff_ne, ne_eq, ne_eq, mul_left_inj' he.ne', Real.sqrt_eq_iff_mul_self_eq (by positivity) (by positivity)]
    exact_mod_cast not_congr eq_comm

/-! ### Division -/

theorem lt_bitLen {n m : Nat} (h : 2 ^ n ≤ m) : n < bitLen m :=
  (Nat.pow_lt_pow_iff_right one_lt_two).1 (h.trans_lt (bitLen_spec ((Nat.two_pow_pos n).trans_le h)).2.2)

/-- A quotient keeps more bits than the format has. -/
theorem quotient_bits {p m n : Nat} (hm : 0 < m) (hn : 0 < n) : p < bitLen (m * 2 ^ (2 * p + 8 + bitLen n) / n) := by
  refine lt_bitLen ((Nat.le_div_iff_mul_le hn).2 ?_)
  have hle : 2 ^ p * n ≤ 2 ^ p * 2 ^ bitLen n := Nat.mul_le_mul_left _ (bitLen_spec hn).2.2.le
  calc 2 ^ p * n ≤ 2 ^ (p + bitLen n) := by rwa [pow_add]
    _ ≤ 2 ^ (2 * p + 8 + bitLen n) := Nat.pow_le_pow_right two_pos (by omega)
    _ ≤ m * 2 ^ (2 * p + 8 + bitLen n) := Nat.le_mul_of_pos_left _ hm

/-- Two finite codes divide by their signs, significands and exponents. -/
theorem fpDiv_finite {p a b : Nat} {rm : Rnd} {x y : Bool} {m n : Nat} {e f : ℤ} (ha : fpRead p a = .fin x m e)
    (hb : fpRead p b = .fin y n f) : fpDiv p rm a b =
    if n = 0 then (if m = 0 then fpInvalid p else (fpInf p (x != y), .divZero))
    else if m = 0 then (fpZero p (x != y), .zero)
    else fpRound p rm (x != y) (m * 2 ^ (2 * p + 8 + bitLen n) / n) (e - f - (2 * p + 8 + bitLen n : Nat))
      (m * 2 ^ (2 * p + 8 + bitLen n) % n != 0) := by
  unfold fpDiv
  rw [ha, hb]

theorem withSign_div_withSign (x y : Bool) (z w : ℝ) : withSign x z / withSign y w = withSign (x != y) (z / w) := by
  cases x <;> cases y <;> simp [neg_div, div_neg]

/-- A quotient is the exact one, rounded once. -/
theorem rounded_quotient {p : Nat} (hp : 0 < p) (rm : Rnd) (neg : Bool) {m n : Nat} (e f : ℤ) (hm : 0 < m) (hn : 0 < n) :
    Rounded p rm (withSign neg (m * 2 ^ e / (n * 2 ^ f))) (fpRound p rm neg (m * 2 ^ (2 * p + 8 + bitLen n) / n)
      (e - f - (2 * p + 8 + bitLen n : Nat)) (m * 2 ^ (2 * p + 8 + bitLen n) % n != 0)) := by
  have hbits := quotient_bits (p := p) hm hn
  generalize 2 * p + 8 + bitLen n = k at *
  have hval : (m : ℝ) * 2 ^ e / (n * 2 ^ f) = (m * 2 ^ k : Nat) / n * 2 ^ (e - f - (k : ℤ)) := by
    rw [zpow_sub₀ two_ne_zero, zpow_sub₀ two_ne_zero, zpow_natCast]
    push_cast
    field_simp
  rw [hval]
  refine rounded_fpRound hp rm neg ?_ (isMag_div _ hn _) fun _ => hbits
  by_contra h0
  rw [Nat.eq_zero_of_not_pos h0] at hbits
  exact absurd hbits (by simp [bitLen])

theorem fpDiv_spec {p : Nat} (hp : 0 < p) {a b : Nat} (ha : codeFinite p a) (hb : codeFinite p b) :
    (codeVal p a ≠ 0 → codeVal p b ≠ 0 → Rounded p .rne (codeVal p a / codeVal p b : ℚ) (fpDiv p .rne a b)) ∧
    (codeVal p a = 0 → codeVal p b ≠ 0 → fpDiv p .rne a b = (fpZero p (codeNeg p a != codeNeg p b), .zero)) ∧
    (codeVal p a ≠ 0 → codeVal p b = 0 → fpDiv p .rne a b = (fpInf p (codeNeg p a != codeNeg p b), .divZero)) := by
  obtain ⟨m, e, hra, hva⟩ := fpRead_finite ha
  obtain ⟨n, f, hrb, hvb⟩ := fpRead_finite hb
  have hm : codeVal p a ≠ 0 ↔ 0 < m := by rw [← mantissa_pos_iff, ← hva, Rat.cast_ne_zero]
  have hn : codeVal p b ≠ 0 ↔ 0 < n := by rw [← mantissa_pos_iff, ← hvb, Rat.cast_ne_zero]
  have hm0 : codeVal p a = 0 ↔ m = 0 := by rw [← not_iff_not, ← ne_eq, hm, Nat.pos_iff_ne_zero]
  have hn0 : codeVal p b = 0 ↔ n = 0 := by rw [← not_iff_not, ← ne_eq, hn, Nat.pos_iff_ne_zero]
  rw [hm, hn, hm0, hn0, fpDiv_finite hra hrb]
  refine ⟨fun hm hn => ?_, fun hm hn => ?_, fun hm hn => ?_⟩
  · rw [if_neg hn.ne', if_neg hm.ne', Rat.cast_div, hva, hvb, withSign_div_withSign]
    exact rounded_quotient hp .rne _ e f hm hn
  · rw [if_neg hn.ne', if_pos hm]
  · rw [if_pos hn, if_neg hm.ne']

/-! ### Square root -/

/-- The scaling of fpSqrt: it leaves an even exponent. -/
def rootScale (p : Nat) (e : ℤ) : Nat := 2 * p + 8 + if (e - (2 * p + 8 : Nat)) % 2 = 0 then 0 else 1

theorem rootScale_even (p : Nat) (e : ℤ) : e - rootScale p e = 2 * ((e - rootScale p e) / 2) := by
  unfold rootScale
  split <;> push_cast at * <;> omega

theorem fpSqrt_finite {p a : Nat} {rm : Rnd} {neg : Bool} {m : Nat} {e : ℤ} (ha : fpRead p a = .fin neg m e) : fpSqrt p rm a =
    if m = 0 then (fpZero p neg, .zero) else if neg then fpInvalid p
    else fpRound p rm false (isqrt (m * 2 ^ rootScale p e)) ((e - rootScale p e) / 2)
      (isqrt (m * 2 ^ rootScale p e) * isqrt (m * 2 ^ rootScale p e) != m * 2 ^ rootScale p e) := by
  unfold fpSqrt
  rw [ha]
  rfl

/-- A root keeps more bits than the format has. -/
theorem root_bits {p m : Nat} (hm : 0 < m) (e : ℤ) : p < bitLen (isqrt (m * 2 ^ rootScale p e)) := by
  refine lt_bitLen (le_of_not_gt fun hlt => ?_)
  have hsq : m * 2 ^ rootScale p e < 2 ^ p * 2 ^ p := (isqrt_spec _).2.trans_le (Nat.mul_self_le_mul_self hlt)
  have hle : 2 ^ p * 2 ^ p ≤ 2 ^ rootScale p e := by
    rw [← pow_add]
    exact Nat.pow_le_pow_right two_pos (by unfold rootScale; omega)
  exact absurd hsq (hle.trans (Nat.le_mul_of_pos_left _ hm)).not_gt

theorem rounded_root {p : Nat} (hp : 0 < p) (rm : Rnd) {m : Nat} (hm : 0 < m) (e : ℤ) :
    Rounded p rm √(m * 2 ^ e) (fpRound p rm false (isqrt (m * 2 ^ rootScale p e)) ((e - rootScale p e) / 2)
      (isqrt (m * 2 ^ rootScale p e) * isqrt (m * 2 ^ rootScale p e) != m * 2 ^ rootScale p e)) := by
  have hbits := root_bits (p := p) hm e
  have heven := rootScale_even p e
  generalize rootScale p e = k at *
  have hval : √((m : ℝ) * 2 ^ e) = √(m * 2 ^ k : Nat) * 2 ^ ((e - (k : ℤ)) / 2) := by
    have hsplit : (m : ℝ) * 2 ^ e = (m * 2 ^ k : Nat) * ((2 : ℝ) ^ ((e - (k : ℤ)) / 2)) ^ 2 := by
      rw [← zpow_natCast (_ ^ _) 2, ← zpow_mul, mul_comm _ ((2 : Nat) : ℤ), Nat.cast_two, ← heven, zpow_sub₀ two_ne_zero, zpow_natCast]
      push_cast
      field_simp
    rw [hsplit, Real.sqrt_mul (by positivity), Real.sqrt_sq (by positivity)]
  rw [hval]
  refine rounded_fpRound hp rm false ?_ (isMag_sqrt _ _) fun _ => hbits
  by_contra h0
  rw [Nat.eq_zero_of_not_pos h0] at hbits
  exact absurd hbits (by simp [bitLen])

theorem fpSqrt_spec {p : Nat} (hp : 0 < p) {a : Nat} (ha : codeFinite p a) :
    (0 < codeVal p a → Rounded p .rne √(codeVal p a) (fpSqrt p .rne a)) ∧
    (codeVal p a < 0 → fpSqrt p .rne a = (fpNaN p, .invalid)) := by
  obtain ⟨m, e, hra, hva⟩ := fpRead_finite ha
  rw [← Rat.cast_pos (K := ℝ), ← Rat.cast_lt_zero (K := ℝ), hva, fpSqrt_finite hra]
  have hpos (h : withSign (codeNeg p a) ((m : ℝ) * 2 ^ e) ≠ 0) : 0 < m := mantissa_pos_iff.1 h
  refine ⟨fun h => ?_, fun h => ?_⟩
  · have hm := hpos h.ne'
    have hneg := (withSign_pos_iff (by positivity)).1 h
    rw [hneg, if_neg hm.ne', if_neg Bool.false_ne_true]
    exact rounded_root hp .rne hm e
  · have hm := hpos h.ne
    rw [if_neg hm.ne', if_pos ((withSign_neg_iff (by positivity)).1 h)]
    rfl

end Sys2Proof.Machine
end

section
/-! SUPPORT. Words written one after another into a memory (`Patched`), and the range of the FP32 operations. -/
namespace Sys2Proof

-- One theorem at a time, as above: side by side they ask for more threads than the limit on memory admits.
set_option Elab.async false

/-! ### Reading a range -/

theorem Memory.reads_eq_map {m : Memory} (h : m.wf = true) (a n : Nat) : m.reads a n = (List.range n).map fun i => m.read (a + i) := by
  refine List.ext_getElem? fun i => ?_
  rcases Nat.lt_or_ge i n with hi | hi
  · rw [Memory.reads_get m a n h i hi]
    simp [hi]
  · simp [Memory.reads_length, hi]

theorem Memory.reads_congr {m m' : Memory} (h : m.wf = true) (h' : m'.wf = true) {a n : Nat}
    (heq : ∀ i, i < n → m'.read (a + i) = m.read (a + i)) : m'.reads a n = m.reads a n := by
  rw [Memory.reads_eq_map h, Memory.reads_eq_map h']
  exact List.map_congr_left fun i hi => heq i (List.mem_range.1 hi)

theorem Memory.reads_writes_same {m : Memory} (h : m.wf = true) (a : Nat) (bs : List Byte) : (m.writes a bs).reads a bs.length = bs := by
  rw [Memory.reads_eq_map (Memory.writes_wf m a bs h)]
  refine List.ext_getElem (by simp) fun i hi hi' => ?_
  rw [List.getElem_map, List.getElem_range, Memory.writes_read m a bs _ h, dif_pos ⟨Nat.le_add_right .., by omega⟩]
  congr 1
  omega

theorem Memory.read_writes_outside {m : Memory} (h : m.wf = true) {a x : Nat} {bs : List Byte} (hx : x < a ∨ a + bs.length ≤ x) :
    (m.writes a bs).read x = m.read x := by
  rw [Memory.writes_read m a bs x h, dif_neg (by omega)]

/-! ### Words written one after another -/

/-- m' holds these values, n bytes each, at these addresses, and reads as m everywhere else. -/
structure Patched (n : Nat) (m m' : Memory) (l : List (Nat × Nat)) : Prop where
  wf : m'.wf = true
  value : ∀ e ∈ l, leNat (m'.reads e.1 n) = e.2
  rest : ∀ x, (∀ e ∈ l, x < e.1 ∨ e.1 + n ≤ x) → m'.read x = m.read x

variable {n : Nat} {m m' : Memory} {l : List (Nat × Nat)}

theorem Patched.nil (h : m.wf = true) : Patched n m m [] := ⟨h, fun _ he => absurd he List.not_mem_nil, fun _ _ => rfl⟩

/-- One more word, apart from those that stand. -/
theorem Patched.write (h : Patched n m m' l) {a v : Nat} (hv : v < 256 ^ n) (hapart : ∀ e ∈ l, a + n ≤ e.1 ∨ e.1 + n ≤ a) :
    Patched n m (m'.writes a (leBytes n v)) (l ++ [(a, v)]) := by
  have hlen := leBytes_length n v
  have hout {x : Nat} (hx : x < a ∨ a + n ≤ x) : (m'.writes a (leBytes n v)).read x = m'.read x :=
    Memory.read_writes_outside h.wf (hlen.symm ▸ hx)
  refine ⟨Memory.writes_wf _ _ _ h.wf, fun e he => ?_, fun x hx => ?_⟩
  · rcases List.mem_append.1 he with he | he
    · rw [Memory.reads_congr h.wf (Memory.writes_wf _ _ _ h.wf) fun i hi => hout (by have := hapart e he; omega)]
      exact h.value e he
    · obtain rfl := List.mem_singleton.1 he
      have hsame := Memory.reads_writes_same h.wf a (leBytes n v)
      rw [hlen] at hsame
      rw [hsame, leNat_leBytes, Nat.mod_eq_of_lt hv]
  · rw [hout (hx (a, v) (by simp)), h.rest x fun e he => hx e (List.mem_append_left _ he)]

/-- One more word that stands already. -/
theorem Patched.keep (h : Patched n m m' l) (hm : m.wf = true) {a : Nat} (hapart : ∀ e ∈ l, a + n ≤ e.1 ∨ e.1 + n ≤ a) :
    Patched n m m' (l ++ [(a, leNat (m.reads a n))]) := by
  refine ⟨h.wf, fun e he => ?_, fun x hx => h.rest x fun e he => hx e (List.mem_append_left _ he)⟩
  rcases List.mem_append.1 he with he | he
  · exact h.value e he
  · obtain rfl := List.mem_singleton.1 he
    rw [Memory.reads_congr hm h.wf fun i hi => h.rest _ fun e he => by have := hapart e he; omega]

namespace Machine

/-! ### The range of FP32 results -/

theorem fpRound_lt {p : Nat} (hp : 0 < p) (rm : Rnd) (neg : Bool) {m : Nat} (hm : 0 < m) (e : ℤ) :
    (fpRound p rm neg m e false).1 < 2 ^ (p + 8) := by
  obtain ⟨k, n, u, -, -, -, -, hlt, -⟩ := rounded_fpRound hp rm neg hm (isMag_self m e) fun h => absurd h Bool.false_ne_true
  exact hlt

theorem fpExact_lt (rm : Rnd) (zn : Bool) (x e : ℤ) : (fpExact 24 rm zn x e).1 < 2 ^ 32 := by
  unfold fpExact
  split
  · cases zn <;> decide
  · next h => exact fpRound_lt (by decide) rm _ (Int.natAbs_pos.2 h) e

theorem fpInf_lt (neg : Bool) : fpInf 24 neg < 2 ^ 32 := by cases neg <;> decide

theorem fpNaN_lt : fpNaN 24 < 2 ^ 32 := by decide

theorem fpSum_lt (rm : Rnd) (x y : Fp) : (fpSum 24 rm x y).1 < 2 ^ 32 := by
  unfold fpSum
  split
  · exact fpNaN_lt
  · exact fpNaN_lt
  · split
    · exact fpInf_lt _
    · exact fpNaN_lt
  · exact fpInf_lt _
  · exact fpInf_lt _
  · exact fpExact_lt ..

theorem fpFma_lt (rm : Rnd) (a b d : Nat) : (fpFma 24 rm a b d).1 < 2 ^ 32 := by
  unfold fpFma
  extract_lets x y z
  split
  · exact fpNaN_lt
  · split
    · exact fpNaN_lt
    · exact fpSum_lt ..

end Machine
end Sys2Proof
end

section
/-! SUPPORT. One element of a kiln command (R93, R94, R95): what it leaves of the master, or of the pair of moments. -/
namespace Sys2Proof.Machine

-- One theorem at a time, as above: side by side they ask for more threads than the limit on memory admits.
set_option Elab.async false

variable {s0 : State} {c i : Nat} {r : KRun}

/-! ### The command as it runs -/

/-- What a command keeps as it goes on: all but its flags, its first fault and its skips. -/
structure SameCmd (k k' : KCmd) : Prop where
  n : k'.n = k.n
  op : k'.op = k.op
  bf : k'.bf = k.bf
  org : k'.org = k.org

theorem SameCmd.refl (k : KCmd) : SameCmd k k := ⟨rfl, rfl, rfl, rfl⟩

theorem SameCmd.trans {k k' k'' : KCmd} (h : SameCmd k k') (g : SameCmd k' k'') : SameCmd k k'' :=
  ⟨g.n.trans h.n, g.op.trans h.op, g.bf.trans h.bf, g.org.trans h.org⟩

theorem sameCmd_flag (r : KRun) (f : Flags) : SameCmd r.2 (r.flag f).2 := ⟨rfl, rfl, rfl, rfl⟩
theorem sameCmd_clamped (r : KRun) : SameCmd r.2 r.clamped.2 := ⟨rfl, rfl, rfl, rfl⟩

/-! ### UPDM (R94) -/

theorem clampTo_fst {lo hi : Int} (h : lo ≤ hi) (x : Int) : (clampTo lo hi x).1 = max lo (min hi x) := by
  unfold clampTo
  split
  · show lo = _; omega
  · split
    · show hi = _; omega
    · show x = _; omega

theorem masterStep_none {decay w t : Nat} (h : fpWild t = true) : masterStep decay w t = none := if_pos h

/-- The value that UPDM leaves where neither the master, the update nor the product stops it. -/
def steppedMaster (decay w t : Nat) : Nat :=
  let d : Int := max (-32767) (min 32767 (scaled t))
  let m : Int := max 1 (min 32767 ((w % 0x8000 : Nat) - (if w < 0x8000 then d else -d) - decay))
  w / 0x8000 * 0x8000 + m.toNat

theorem masterStep_some {decay w t : Nat} (h : fpWild t = false) : ∃ b, masterStep decay w t = some (steppedMaster decay w t, b) := by
  unfold masterStep
  rw [h]
  simp only [Bool.false_eq_true, if_false, clampTo_fst (show (-32767 : Int) ≤ 32767 by decide), clampTo_fst (show (1 : Int) ≤ 32767 by decide)]
  exact ⟨_, rfl⟩

theorem steppedMaster_lt {decay w t : Nat} (hw : w < 65536) : steppedMaster decay w t < 65536 := by
  unfold steppedMaster
  extract_lets d m
  have hm : m.toNat ≤ 32767 := by omega
  omega

theorem specMaster_eq (lr decay w u : Nat) : specMaster lr decay w u =
    if w = 0 ∨ w = 0x8000 ∨ fpWild u = true ∨ fpWild (fpMul 24 .rne lr u).1 = true then w
    else steppedMaster decay w (fpMul 24 .rne lr u).1 := rfl

/-- One step of a run at one master: it stands and is to stand, or it is written. -/
def StepsMaster (c a w v : Nat) (r r' : KRun) : Prop :=
  SameCmd r.2 r'.2 ∧ (r'.1 = r.1 ∧ v = w ∨
    r'.1 = r.1.onCluster c fun x => { x with store := x.store.writes a (leBytes 2 v) })

theorem StepsMaster.keep {a w v : Nat} {r' : KRun} (hc : SameCmd r.2 r'.2) (hs : r'.1 = r.1) (hv : v = w) :
    StepsMaster c a w v r r' := ⟨hc, .inl ⟨hs, hv⟩⟩

theorem masterElem_steps (u : Nat) (fl : Flags) : let x := s0.cluster c
    let a := r.2.n[0].toNat + 2 * i
    let w := leNat (x.store.reads a 2)
    StepsMaster c a w (specMaster x.kcfg.lr.toNat x.kcfg.decay.toNat w u) r (masterElem s0 c i u fl r) := by
  intro x a w
  rw [specMaster_eq]
  unfold masterElem
  dsimp only
  by_cases h0 : w = 0
  · rw [if_pos h0, if_pos (.inl h0)]
    exact .keep (.refl _) rfl rfl
  by_cases h8 : w = 0x8000
  · rw [if_neg h0, if_pos h8, if_pos (.inr (.inl h8))]
    exact .keep (sameCmd_flag r _) rfl rfl
  by_cases hu : fpWild u = true
  · rw [if_neg h0, if_neg h8, if_pos hu, if_pos (.inr (.inr (.inl hu)))]
    exact .keep ((sameCmd_flag r _).trans (sameCmd_flag _ _)) rfl rfl
  rw [if_neg h0, if_neg h8, if_neg hu]
  have hcmd := sameCmd_flag r (fl.or (fpMul 24 .rne x.kcfg.lr.toNat u).2)
  have hstate : (r.flag (fl.or (fpMul 24 .rne x.kcfg.lr.toNat u).2)).1 = r.1 := rfl
  generalize r.flag (fl.or (fpMul 24 .rne x.kcfg.lr.toNat u).2) = r1 at hcmd hstate ⊢
  cases ht : fpWild (fpMul 24 .rne x.kcfg.lr.toNat u).1 with
  | true =>
    rw [masterStep_none ht, if_pos (.inr (.inr (.inr rfl)))]
    exact .keep (hcmd.trans (sameCmd_flag _ _)) hstate rfl
  | false =>
    obtain ⟨b, hb⟩ := masterStep_some (decay := x.kcfg.decay.toNat) (w := w) ht
    rw [hb, if_neg (by tauto)]
    cases b with
    | false => exact ⟨hcmd, .inr (hstate ▸ rfl)⟩
    | true => exact ⟨hcmd.trans (sameCmd_clamped _), .inr (hstate ▸ rfl)⟩

/-! ### One element -/

theorem KCmd.gradient_eq_spec (k : KCmd) (x : Cluster) (i : Nat) : k.gradient x i = specGradient x k i := by
  unfold KCmd.gradient specGradient KCmd.gsize
  cases k.bf
  · rfl
  · exact Nat.mul_comm ..

/-- A moment of a stack without wrong symbols is read as it stands. -/
theorem readMoment_eq {d off va : Nat} (hbad : (s0.die d).bad = []) (hbad' : (r.1.die d).bad = []) (hwrong : (r.1.die d).wrong = []) :
    readMoment s0 d off va r = (r, leNat ((s0.die d).mem.reads off 4)) := by
  have hnote : r.1.noteRead d off 4 = r.1 := by simp [State.noteRead, hbad', hwrong]
  have hnot : s0.isBad d off 4 = false := by simp [State.isBad, hbad]
  have hread : s0.memRead d off 4 = (s0.die d).mem.reads off 4 := by simp [State.memRead, hbad]
  simp only [readMoment, hnote, hnot, hread, Bool.false_eq_true, if_false]

/-- A master without moments. -/
theorem kilnElem_of_not_moments (h : r.2.op = .updm false) :
    kilnElem s0 c r i = masterElem s0 c i (specGradient (s0.cluster c) r.2 i) .zero r := by
  have hmo : r.2.moments = false := by rw [KCmd.moments, h]
  rw [← KCmd.gradient_eq_spec]
  unfold kilnElem
  exact if_pos (by rw [hmo]; rfl)

/-- One step of a run at one pair of moments: both stand and are to stand, or both are written and their strand folds them. -/
def StepsMoments (d o1 o2 : Nat) (m v : Nat × Nat) (r r' : KRun) : Prop :=
  SameCmd r.2 r'.2 ∧ (r'.1 = r.1 ∧ v = m ∨
    v.1 < 2 ^ 32 ∧ v.2 < 2 ^ 32 ∧ ∃ f, r'.1 =
      ((r.1.memWrite d o1 (leBytes 4 v.1)).memWrite d o2 (leBytes 4 v.2)).onStrand r.2.org.tile r.2.org.strand f)

theorem StepsMoments.write {d o1 o2 v1 v2 : Nat} {m : Nat × Nat} {k' : KCmd} (hc : SameCmd r.2 k') (h1 : v1 < 2 ^ 32) (h2 : v2 < 2 ^ 32)
    (f : Strand → Strand) : StepsMoments d o1 o2 m (v1, v2) r
      (((r.1.memWrite d o1 (leBytes 4 v1)).memWrite d o2 (leBytes 4 v2)).onStrand r.2.org.tile r.2.org.strand f, k') :=
  ⟨hc, Or.inr ⟨h1, h2, f, rfl⟩⟩

theorem momentStep_some {cfg : KilnCfg} {g m1 m2 : Nat} (h : fpWild g = false) : ∃ f, momentStep cfg g m1 m2 =
    some ((specMoments cfg.c1.toNat cfg.c2.toNat g m1 m2).1, (specMoments cfg.c1.toNat cfg.c2.toNat g m1 m2).2, f) := by
  unfold momentStep specMoments
  rw [h]
  exact ⟨_, rfl⟩

theorem specMoments_lt {c1 c2 g m1 m2 : Nat} (h : fpWild g = false) :
    (specMoments c1 c2 g m1 m2).1 < 2 ^ 32 ∧ (specMoments c1 c2 g m1 m2).2 < 2 ^ 32 := by
  unfold specMoments
  rw [h]
  exact ⟨fpFma_lt .., fpFma_lt ..⟩

section
variable {o1 o2 : Nat} (hbad : (s0.die (c / 32)).bad = []) (hbad' : (r.1.die (c / 32)).bad = []) (hwrong : (r.1.die (c / 32)).wrong = [])
include hbad hbad' hwrong

/-- A master with its moments at o1 and o2. -/
theorem kilnElem_updm (h : r.2.op = .updm true) (h1 : s0.moment c (r.2.n[4].toNat + 4 * i) false = .at_ o1)
    (h2 : s0.moment c (r.2.n[5].toNat + 4 * i) false = .at_ o2) : let x := s0.cluster c
    let a := r.2.n[0].toNat + 2 * i
    let w := leNat (x.store.reads a 2)
    let at_ (o : Nat) : Nat := leNat ((s0.die (c / 32)).mem.reads o 4)
    StepsMaster c a w (specMaster x.kcfg.lr.toNat x.kcfg.decay.toNat w (specUpdate x.kcfg.eps.toNat (at_ o1) (at_ o2))) r
      (kilnElem s0 c r i) := by
  intro x a w at_
  have hmo : r.2.moments = true := by rw [KCmd.moments, h]
  have hma : r.2.masters = true := by rw [KCmd.masters, h]
  unfold kilnElem
  simp only [hmo, hma, h1, h2, Bool.not_true, Bool.false_eq_true, if_false, readMoment_eq hbad hbad' hwrong, true_and, if_true]
  by_cases h0 : w = 0
  · rw [if_pos h0]
    exact .keep (.refl _) rfl (if_pos (.inl h0))
  by_cases h8 : w = 0x8000
  · rw [if_neg h0, if_pos h8]
    exact .keep (sameCmd_flag r _) rfl (if_pos (.inr (.inl h8)))
  rw [if_neg h0, if_neg h8]
  exact masterElem_steps ..

/-- A pair of moments at o1 and o2. -/
theorem kilnElem_upmo (h : r.2.op = .upmo) (h1 : s0.moment c (r.2.n[4].toNat + 4 * i) true = .at_ o1)
    (h2 : s0.moment c (r.2.n[5].toNat + 4 * i) true = .at_ o2) : let x := s0.cluster c
    let at_ (o : Nat) : Nat := leNat ((s0.die (c / 32)).mem.reads o 4)
    StepsMoments (c / 32) o1 o2 (at_ o1, at_ o2)
      (specMoments x.kcfg.c1.toNat x.kcfg.c2.toNat (specGradient x r.2 i) (at_ o1) (at_ o2)) r (kilnElem s0 c r i) := by
  intro x at_
  have hmo : r.2.moments = true := by rw [KCmd.moments, h]
  have hma : r.2.masters = false := by rw [KCmd.masters, h]
  unfold kilnElem
  simp only [hmo, hma, h1, h2, Bool.not_true, Bool.not_false, Bool.false_eq_true, if_false, readMoment_eq hbad hbad' hwrong, false_and,
    KCmd.gradient_eq_spec]
  cases hg : fpWild (specGradient x r.2 i) with
  | true =>
    rw [momentStep, if_pos hg]
    exact ⟨sameCmd_flag r _, .inl ⟨rfl, if_pos hg⟩⟩
  | false =>
    obtain ⟨f, hf⟩ := momentStep_some (cfg := x.kcfg) (m1 := at_ o1) (m2 := at_ o2) hg
    obtain ⟨hv1, hv2⟩ := specMoments_lt (c1 := x.kcfg.c1.toNat) (c2 := x.kcfg.c2.toNat) (m1 := at_ o1) (m2 := at_ o2) hg
    rw [hf]
    generalize specMoments _ _ _ _ _ = v at hv1 hv2 ⊢
    obtain ⟨v1, v2⟩ := v
    have hr := sameCmd_flag r f
    have hstate : (r.flag f).1 = r.1 := rfl
    dsimp only at hv1 hv2 ⊢
    rw [hstate]
    exact .write hr hv1 hv2 _

end
end Sys2Proof.Machine
end

section
/-! SUPPORT. What the fault of a kiln command leaves, its end, and its start (R91, R95): beside the strand's faults and its
outstanding commands, steps are set and cores look again (`Stirs`). -/
namespace Sys2Proof.Machine

-- One theorem at a time, as above: side by side they ask for more threads than the limit on memory admits.
set_option Elab.async false

variable {s : State} {c : Nat} {k : KCmd}

/-! ### A fault, and the end of a command -/

/-- The strand of a command with one more fault, due now. -/
def State.withFault (s : State) (o : Origin) (i : TrapInfo) : State :=
  s.onStrand o.tile o.strand fun x => { x with faults := x.faults ++ [(s.cc, i)] }

theorem stirs_fault (s : State) (o : Origin) (a : Cause) (e : Nat) (isw : Word) (addr : DWord) :
    Stirs (s.withFault o (infoOf o a e isw addr)) (s.fault o a e isw addr) := by
  unfold State.fault State.addFault
  exact (if_pos (le_refl s.cc)).symm ▸ stirs_stir ..

/-- The strand of a command that is outstanding no more. -/
def State.without (s : State) (o : Origin) (engine seq : Nat) : State :=
  s.onStrand o.tile o.strand fun x => { x with outst := x.outst.filter fun c => !(c.engine == engine && c.seq == seq) }

theorem stirs_finish (s : State) (o : Origin) (engine seq : Nat) : Stirs (s.without o engine seq) (s.finish o engine seq) := by
  have hhang : Stirs (s.without o engine seq) ((s.without o engine seq).onTile o.tile fun x => { x with hang := 0 }) :=
    stirs_onTile _ _ (fun _ => rfl) fun _ => rfl
  have hunit (u : State) (n : Nat) : Stirs u (u.checkUnit n) := by
    unfold State.checkUnit
    dsimp only
    split
    · exact stirs_sched ..
    · exact .refl u
  unfold State.finish
  extract_lets filtered idle x woken
  have hwoken : Stirs idle woken := by
    unfold woken
    split
    · split
      · exact .refl _
      · exact stirs_soon ..
    · split
      · exact .refl _
      · exact stirs_stir ..
  exact (hhang.trans hwoken).trans (hunit ..)

/-- A cluster whose kiln runs no command. -/
def Cluster.kilnFree (x : Cluster) : Cluster := { x with krun := none }

/-- The cluster and the strand of a command that leaves the engine. -/
def State.ended (s : State) (c : Nat) (k : KCmd) : State := (s.onCluster c Cluster.kilnFree).without k.org 7 k.org.seq

theorem cluster_ended (s : State) (c : Nat) (k : KCmd) (d : Nat) :
    (s.ended c k).cluster d = if d = c then (s.cluster c).kilnFree else s.cluster d := State.cluster_onCluster s c Cluster.kilnFree d

theorem kilnLeave_rest (s : State) (c : Nat) (k : KCmd) : Stirs (s.ended c k) (s.kilnLeave c k) ∧
    (keyOf s.cc slotBegin, Event.kilnCommandStart c) ∈ (s.kilnLeave c k).agenda := by
  have hf := stirs_finish (s.onCluster c Cluster.kilnFree) k.org 7 k.org.seq
  exact ⟨hf.trans (stirs_sched ..), insertKey_mem ..⟩

/-- A command that leaves: what becomes of its cluster, its strand and all else. -/
theorem kilnLeave_spec (s : State) (c : Nat) (k : KCmd) : let t := s.kilnLeave c k
    t.cluster c = (s.cluster c).kilnFree ∧ KilnLeft s t c k ∧ SameBytes s t ∧ t.dies = s.dies ∧
    (∀ d, d ≠ c → t.cluster d = s.cluster d) ∧
    (t.strand k.org.tile k.org.strand).faults = (s.strand k.org.tile k.org.strand).faults := by
  intro t
  obtain ⟨hr, hev⟩ := kilnLeave_rest s c k
  have hcl : t.cluster c = (s.cluster c).kilnFree := (hr.cluster c).trans ((cluster_ended s c k c).trans (if_pos rfl))
  have hstrand : t.strand k.org.tile k.org.strand = { s.strand k.org.tile k.org.strand with
      outst := (s.strand k.org.tile k.org.strand).outst.filter fun o => !(o.engine == 7 && o.seq == k.org.seq) } :=
    (hr.strand _ _).trans (State.strand_onStrand_same ..)
  have hbytes : SameBytes s (s.ended c k) :=
    sameBytes_trans (sameBytes_onCluster s c Cluster.kilnFree fun _ => rfl) (sameBytes_onStrand ..)
  refine ⟨hcl, ⟨by rw [hcl]; rfl, hev, by rw [hstrand]⟩, sameBytes_trans hbytes hr.sameBytes, hr.dies, fun d hd => ?_, by rw [hstrand]⟩
  exact (hr.cluster d).trans ((cluster_ended s c k d).trans (if_neg hd))

/-- The trap information of a kiln command. -/
def KCmd.info (k : KCmd) (cause x skip : Nat) (refused : Bool) (addr : Nat) : TrapInfo :=
  infoOf k.org .kiln 7 (BitVec.ofNat 32 (packLow [(4, cause), (4, x), (1, refused.toNat), (7, 0), (16, min skip 0xFFFF)])) (BitVec.ofNat 64 addr)

/-- A command that leaves with a fault. -/
theorem kilnLeave_fault (s : State) (c : Nat) (k : KCmd) (cause x skip : Nat) (refused : Bool) (addr : Nat) :
    let t := (s.kilnFault k cause x skip refused addr).kilnLeave c k
    t.cluster c = (s.cluster c).kilnFree ∧ KilnLeft s t c k ∧ SameBytes s t ∧ t.dies = s.dies ∧
    (∀ d, d ≠ c → t.cluster d = s.cluster d) ∧ (t.strand k.org.tile k.org.strand).faults =
      (s.strand k.org.tile k.org.strand).faults ++ [(s.cc, k.info cause x skip refused addr)] := by
  intro t
  have hf : Stirs (s.withFault k.org (k.info cause x skip refused addr)) (s.kilnFault k cause x skip refused addr) := stirs_fault ..
  obtain ⟨hcl, ⟨hrun, hev, hout⟩, hbytes, hdies, hothers, hfaults⟩ := kilnLeave_spec (s.kilnFault k cause x skip refused addr) c k
  have hcluster (d : Nat) : (s.kilnFault k cause x skip refused addr).cluster d = s.cluster d := hf.cluster d
  have hstrand : (s.kilnFault k cause x skip refused addr).strand k.org.tile k.org.strand = { s.strand k.org.tile k.org.strand with
      faults := (s.strand k.org.tile k.org.strand).faults ++ [(s.cc, k.info cause x skip refused addr)] } :=
    (hf.strand _ _).trans (State.strand_onStrand_same ..)
  have hcc : (s.kilnFault k cause x skip refused addr).cc = s.cc := hf.cc
  rw [hcluster] at hcl
  rw [hcc] at hev
  rw [hstrand] at hout hfaults
  refine ⟨hcl, ⟨hrun, hev, hout⟩, sameBytes_trans (sameBytes_trans (sameBytes_onStrand ..) hf.sameBytes) hbytes, hdies.trans hf.dies,
    fun d hd => (hothers d hd).trans (hcluster d), hfaults⟩

end Sys2Proof.Machine
end

section
/-! SUPPORT. The start of a kiln command (R91, R92, R95): the state in which it begins, the checks, and the three ways on. -/
namespace Sys2Proof.Machine

-- One theorem at a time, as above: side by side they ask for more threads than the limit on memory admits.
set_option Elab.async false

variable {s : State} {c : Nat} {k : KCmd} {rest : List KCmd}

/-! ### The command at the head begins -/

/-- A cluster whose kiln has taken its command k. -/
def Cluster.kilnBegins (x : Cluster) (k : KCmd) (rest : List KCmd) : Cluster := { x with kq := rest, krun := some k }

/-- The state in which command k begins: it has left the queue, and words that waited for room are looked at. -/
def State.kilnBegun (s : State) (c : Nat) (k : KCmd) (rest : List KCmd) : State :=
  (s.onCluster c (·.kilnBegins k rest)).each (tilesOf c) fun s t => s.wakeWhere t (· == .kilnQueue)

theorem kilnBegun_def (s : State) (c : Nat) (k : KCmd) (rest : List KCmd) :
    (s.onCluster c fun x => { x with kq := rest, krun := some k }).each (tilesOf c) (fun s t => s.wakeWhere t (· == .kilnQueue)) =
      s.kilnBegun c k rest := rfl

theorem onlyAgenda_wakeWhere (s : State) (n : Nat) (f : Wait → Bool) : OnlyAgenda s (s.wakeWhere n f) :=
  each_keeps OnlyAgenda (fun s => ⟨s.agenda, rfl⟩) (fun _ _ _ => OnlyAgenda.trans) _ _ (fun _ _ => ⟨_, rfl⟩) s

theorem kilnBegun_eq (s : State) (c : Nat) (k : KCmd) (rest : List KCmd) :
    ∃ l, s.kilnBegun c k rest = { s.onCluster c (·.kilnBegins k rest) with agenda := l } :=
  each_keeps OnlyAgenda (fun s => ⟨s.agenda, rfl⟩) (fun _ _ _ => OnlyAgenda.trans) _ _ (fun s n => onlyAgenda_wakeWhere s n _) _

theorem cluster_kilnBegun (s : State) (c : Nat) (k : KCmd) (rest : List KCmd) (d : Nat) :
    (s.kilnBegun c k rest).cluster d = if d = c then (s.cluster c).kilnBegins k rest else s.cluster d := by
  obtain ⟨l, hl⟩ := kilnBegun_eq s c k rest
  rw [hl]
  exact State.cluster_onCluster s c (·.kilnBegins k rest) d

theorem cluster_kilnBegun_same (s : State) (c : Nat) (k : KCmd) (rest : List KCmd) :
    (s.kilnBegun c k rest).cluster c = (s.cluster c).kilnBegins k rest := (cluster_kilnBegun ..).trans (if_pos rfl)

theorem kilnBegun_parts (s : State) (c : Nat) (k : KCmd) (rest : List KCmd) : let u := s.kilnBegun c k rest
    u.cc = s.cc ∧ u.slack = s.slack ∧ u.tiles = s.tiles ∧ u.dies = s.dies ∧ u.coord = s.coord := by
  obtain ⟨l, hl⟩ := kilnBegun_eq s c k rest
  rw [hl]
  exact ⟨rfl, rfl, rfl, rfl, rfl⟩

/-! ### What its start does -/

theorem extract_high_eq_zero_iff (w : DWord) : w.extractLsb' 16 48 = 0 ↔ w.toNat < 2 ^ 16 := by
  rw [← BitVec.toNat_inj, BitVec.extractLsb'_toNat, Nat.shiftRight_eq_div_pow]
  have := w.isLt
  rw [show (0 : BitVec 48).toNat = 0 from rfl]
  omega

section
variable (hrun : (s.cluster c).krun = none) (hq : (s.cluster c).kq = k :: rest)
include hrun hq

/-- The configuration that UPCF loads (R92). -/
def KCmd.cfg (k : KCmd) : KilnCfg :=
  ⟨k.n[0].setWidth 32, k.n[0].extractLsb' 32 32, k.n[1].setWidth 32, k.n[1].extractLsb' 32 32, k.n[2].setWidth 16⟩

/-- A cluster with the configuration of a UPCF. -/
def Cluster.withCfg (x : Cluster) (k : KCmd) : Cluster := { x with kcfg := k.cfg }

theorem start_upcf (hop : k.op = .upcf) (hn : k.n[2].toNat < 2 ^ 16) : exec (.kilnCommandStart c) s =
    .next (((s.kilnBegun c k rest).onCluster c (·.withCfg k)).kilnLeave c k) := by
  have hhigh := not_not.2 ((extract_high_eq_zero_iff k.n[2]).2 hn)
  unfold exec execKilnCommandStart
  simp only [hrun, hq]
  rw [if_neg (by tauto), if_pos hop, if_neg hhigh]
  rfl

theorem start_upcf_refused (hop : k.op = .upcf) (hn : 2 ^ 16 ≤ k.n[2].toNat) : exec (.kilnCommandStart c) s =
    .next (((s.kilnBegun c k rest).kilnFault k 1 0 0 false k.n[2].toNat).kilnLeave c k) := by
  have hhigh := (extract_high_eq_zero_iff k.n[2]).not.2 hn.not_gt
  unfold exec execKilnCommandStart
  simp only [hrun, hq]
  rw [if_neg (by tauto), if_pos hop, if_pos hhigh]
  rfl

variable (hbusy : (s.cluster c).busy = false) (hop : k.op ≠ .upcf)
include hbusy hop

theorem start_refused {a : DWord} (herr : (s.kilnBegun c k rest).kilnErr c k = some a) : exec (.kilnCommandStart c) s =
    .next (((s.kilnBegun c k rest).kilnFault k 1 0 0 false a.toNat).kilnLeave c k) := by
  unfold exec execKilnCommandStart
  simp only [hrun, hq, hbusy]
  rw [if_neg (by simp), if_neg hop, kilnBegun_def, herr]

/-- The state in which the elements of a command are processed. -/
def State.kilnReady (s : State) (c : Nat) (k : KCmd) : State :=
  let s := s.ownFirst k.org.tile k.org.strand
  if k.moments then
    s.each (momentPages k.n[4].toNat k.count ++ momentPages k.n[5].toNat k.count) fun s a => s.touch c (BitVec.ofNat 64 a)
  else s

/-- The state that a run leaves: the command is in progress, and completes at its bound. -/
def State.kilnRan (r : KRun) (c : Nat) (k : KCmd) : State :=
  (r.1.onCluster c fun x => { x with krun := some r.2 }).soon k.bound (slotKiln c) (.kilnCommandComplete c)

theorem start_runs {u : State} (herr : (s.kilnBegun c k rest).kilnErr c k = none) (hu : (s.kilnBegun c k rest).kilnReady c k = u) :
    exec (.kilnCommandStart c) s = .next (State.kilnRan ((List.range k.count).foldl (kilnElem u c) (u, k)) c k) := by
  subst hu
  unfold exec execKilnCommandStart
  simp only [hrun, hq, hbusy]
  rw [if_neg (by simp), if_neg hop, kilnBegun_def, herr]
  rfl

end
end Sys2Proof.Machine
end

section
/-! SUPPORT. A kiln command that no check refuses (R95), with its moments in local pages that the TLB holds. -/
namespace Sys2Proof.Machine

-- One theorem at a time, as above: side by side they ask for more threads than the limit on memory admits.
set_option Elab.async false

variable {s u : State} {c : Nat} {k : KCmd}

/-! ### Translation of a moment word -/

theorem xlate_of_lookup {va : Nat} {e : TlbEntry} (hva : va < 2 ^ 52) (he : (s.cluster c).lookup (va / 65536) = some e) :
    s.xlate c (BitVec.ofNat 64 va) = .hit e false := by
  have hnat : (BitVec.ofNat 64 va).toNat = va := by rw [BitVec.toNat_ofNat]; omega
  unfold State.xlate
  simp only [hnat, he]
  exact if_neg hva.not_ge

/-- A moment word of a page that the TLB holds. -/
theorem moment_of_lookup {va : Nat} {e : TlbEntry} (hva : va < 2 ^ 52) (he : (s.cluster c).lookup (va / 65536) = some e) (w : Bool) :
    s.moment c va w = if e.mode ≠ 0 ∨ e.peer ≠ s.peerOf (c / 32) then .away else if w ∧ e.ro then .fault 2
      else if w ∧ s.shared (c / 32) (e.offset va) then .fault 3 else .at_ (e.offset va) := by
  unfold State.moment State.engXlate
  rw [xlate_of_lookup hva he]

section
variable {va o : Nat} {w : Bool} (hva : va < 2 ^ 52) (hl : ((s.cluster c).lookup (va / 65536)).isSome = true) (h : s.moment c va w = .at_ o)
include hva hl h

/-- Its page is local, and so is its entry's mode. -/
theorem entry_of_moment : ∃ e, (s.cluster c).lookup (va / 65536) = some e ∧ e.mode = 0 ∧ e.peer = s.peerOf (c / 32) := by
  obtain ⟨e, he⟩ := Option.isSome_iff_exists.1 hl
  rw [moment_of_lookup hva he] at h
  refine ⟨e, he, ?_⟩
  by_contra hne
  rw [if_pos (by tauto)] at h
  exact absurd h (by simp)

theorem moment_ne_away : (s.moment c va false == .away) = false := by
  obtain ⟨e, he, hmode, hpeer⟩ := entry_of_moment hva hl h
  rw [moment_of_lookup hva he, if_neg (by tauto), if_neg (by simp), if_neg (by simp)]
  rfl

theorem touch_of_moment : s.touch c (BitVec.ofNat 64 va) = s := by
  obtain ⟨e, he, hmode, -⟩ := entry_of_moment hva hl h
  exact touch_hit (xlate_of_lookup hva he) (by rw [hmode]; decide)

/-- It reads alike where the cluster's TLB, the dies and the package's place are the same. -/
theorem moment_congr (htlb : (u.cluster c).tlb = (s.cluster c).tlb) (hctx : (u.cluster c).ptCtx = (s.cluster c).ptCtx)
    (hd : u.dies = s.dies) (hp : u.coord = s.coord) : u.moment c va w = .at_ o := by
  obtain ⟨e, he⟩ := Option.isSome_iff_exists.1 hl
  have he' : (u.cluster c).lookup (va / 65536) = some e := by
    rw [← he]
    unfold Cluster.lookup
    rw [htlb, hctx]
  have hpeer : u.peerOf (c / 32) = s.peerOf (c / 32) := by unfold State.peerOf; rw [hp]
  have hshared (n : Nat) : u.shared (c / 32) n = s.shared (c / 32) n := by unfold State.shared State.die; rw [hd]
  rw [← h, moment_of_lookup hva he, moment_of_lookup hva he', hpeer, hshared]

end

/-! ### The pages of an array of moments -/

theorem mem_momentPages {base n a : Nat} (hb : base % 4 = 0) (hn : 0 < n) (ha : a ∈ momentPages base n) : ∃ j, j < n ∧ a = base + 4 * j := by
  simp only [momentPages, pageCuts, List.map_map, List.mem_map, List.mem_range, Function.comp] at ha
  obtain ⟨i, hi, rfl⟩ := ha
  refine ⟨(max base ((base / 65536 + i) * 65536) - base) / 4, ?_, ?_⟩ <;> omega

theorem momentAway_none {base n : Nat} (hb : base % 4 = 0) (hn : 0 < n) (h : ∀ j, j < n → (s.moment c (base + 4 * j) false == .away) = false) :
    s.momentAway c base n = none := by
  refine List.find?_eq_none.2 fun a ha => ?_
  obtain ⟨j, hj, rfl⟩ := mem_momentPages hb hn ha
  simp [h j hj]

/-! ### The checks -/

theorem kilnErr_none (hp : PlainKiln (s.cluster c) k) (hmo : k.moments = true → k.n[4].toNat % 4 = 0 ∧ k.n[5].toNat % 4 = 0 ∧
    s.momentAway c k.n[4].toNat k.count = none ∧ s.momentAway c k.n[5].toNat k.count = none) : s.kilnErr c k = none := by
  obtain ⟨-, -, hmax, halign, hfit, -, hmaster⟩ := hp
  have hmasters : k.masters = true → k.n[0].toNat % 2 = 0 ∧ k.n[0].toNat + 2 * k.count ≤ (s.cluster c).storeSize := fun h => by
    obtain ⟨hal, hle, -⟩ := hmaster fun hop => by rw [KCmd.masters, hop] at h; exact Bool.false_ne_true h
    exact ⟨hal, hle⟩
  unfold State.kilnErr
  extract_lets n size m mo first bad
  have hmax : n ≤ 16777216 := hmax
  have halign : k.n[3].toNat % k.gsize = 0 := halign
  have hfit : k.n[3].toNat + k.gsize * n ≤ size := hfit
  have hbad : bad.find? (·.1) = none := by
    refine List.find?_eq_none.2 fun b hb => ?_
    simp only [bad, List.mem_cons, List.not_mem_nil, or_false] at hb
    rcases hb with rfl | rfl | rfl | rfl | rfl | rfl | rfl
    · simpa using fun h => (hmasters h).1
    · simpa using halign
    · simpa using fun h => (hmo h).1
    · simpa using fun h => (hmo h).2.1
    · simpa using hmax
    · simpa using fun h _ => (hmasters h).2
    · simpa using fun _ => hfit
  rw [hbad]
  dsimp only
  by_cases hm : k.moments = true
  · obtain ⟨-, -, h4, h5⟩ := hmo hm
    rw [show n = k.count from rfl, h4, h5]
    exact ite_self _
  · exact if_pos (by rw [show mo = k.moments from rfl, Bool.eq_false_of_not_eq_true hm]; rfl)

/-- A count that is too large fails the fifth check. -/
theorem kilnErr_count (hop : k.op = .updm false) (h0 : k.n[0].toNat % 2 = 0) (h3 : k.n[3].toNat % (if k.bf then 2 else 4) = 0)
    (hmax : 16777216 < k.n[6].toNat) : s.kilnErr c k = some k.n[6] := by
  have hmo : k.moments = false := by rw [KCmd.moments, hop]
  have hgsize : k.n[3].toNat % k.gsize = 0 := h3
  have hcount : 16777216 < k.count := hmax
  unfold State.kilnErr
  simp only [hmo, h0, hgsize, hcount, bne_self_eq_false, Bool.and_false, Bool.false_and, decide_true, List.find?_cons]

end Sys2Proof.Machine
end

section
/-! SUPPORT. The elements of a kiln command one after another (R93, R94): the masters that a UPDM leaves, the moments that a
UPMO leaves, and the bytes that neither changes. -/
namespace Sys2Proof.Machine

-- One theorem at a time, as above: side by side they ask for more threads than the limit on memory admits.
set_option Elab.async false

variable {s s0 : State} {c : Nat} {k : KCmd}

theorem foldl_range_succ {α : Type} (f : α → Nat → α) (a : α) (n : Nat) :
    (List.range (n + 1)).foldl f a = f ((List.range n).foldl f a) n := by
  rw [List.range_succ, List.foldl_append]
  rfl

/-! ### Masters -/

theorem specMaster_lt {lr decay w u : Nat} (hw : w < 65536) : specMaster lr decay w u < 65536 := by
  rw [specMaster_eq]
  split
  · exact hw
  · exact steppedMaster_lt hw

theorem leNat_reads_lt (m : Memory) (a n : Nat) : leNat (m.reads a n) < 256 ^ n := by
  have h := leNat_lt (m.reads a n)
  rwa [Memory.reads_length, pow_mul] at h

/-- The masters below j have these values; of the rest of the state only the command's progress differs. -/
structure MastersDone (s0 : State) (c : Nat) (k : KCmd) (v : Nat → Nat) (j : Nat) (r : KRun) : Prop where
  cmd : SameCmd k r.2
  rest : { r.1 with clusters := s0.clusters } = s0
  others : ∀ d, d ≠ c → r.1.cluster d = s0.cluster d
  here : { r.1.cluster c with store := (s0.cluster c).store } = s0.cluster c
  store : Patched 2 (s0.cluster c).store (r.1.cluster c).store ((List.range j).map fun i => (k.n[0].toNat + 2 * i, v i))

theorem MastersDone.step {v : Nat → Nat} {j : Nat} {r r' : KRun} (h : MastersDone s0 c k v j r) (hwf : (s0.cluster c).store.wf = true)
    (hv : v j < 65536) (hr : StepsMaster c (k.n[0].toNat + 2 * j) (leNat ((s0.cluster c).store.reads (k.n[0].toNat + 2 * j) 2)) (v j) r r') :
    MastersDone s0 c k v (j + 1) r' := by
  have hapart : ∀ e ∈ (List.range j).map fun i => (k.n[0].toNat + 2 * i, v i),
      k.n[0].toNat + 2 * j + 2 ≤ e.1 ∨ e.1 + 2 ≤ k.n[0].toNat + 2 * j := fun e he => by
    obtain ⟨i, hi, rfl⟩ := List.mem_map.1 he
    have := List.mem_range.1 hi
    dsimp only
    omega
  obtain ⟨hcmd, ⟨hs, hval⟩ | hs⟩ := hr
  · refine ⟨h.cmd.trans hcmd, hs ▸ h.rest, hs ▸ h.others, hs ▸ h.here, ?_⟩
    rw [List.range_succ, List.map_append, hs, List.map_singleton, hval]
    exact h.store.keep hwf hapart
  · refine ⟨h.cmd.trans hcmd, hs ▸ h.rest, fun d hd => ?_, ?_, ?_⟩
    · rw [hs, State.cluster_onCluster, if_neg hd, h.others d hd]
    · rw [hs, State.cluster_onCluster_same]
      exact h.here
    · rw [List.range_succ, List.map_append, hs, State.cluster_onCluster_same, List.map_singleton]
      exact h.store.write hv hapart

theorem mastersDone_run {v : Nat → Nat} (hwf : (s0.cluster c).store.wf = true) {n : Nat} (hv : ∀ i, i < n → v i < 65536)
    (hstep : ∀ i r, i < n → MastersDone s0 c k v i r → StepsMaster c (k.n[0].toNat + 2 * i)
      (leNat ((s0.cluster c).store.reads (k.n[0].toNat + 2 * i) 2)) (v i) r (kilnElem s0 c r i))
    {j : Nat} (hj : j ≤ n) : MastersDone s0 c k v j ((List.range j).foldl (kilnElem s0 c) (s0, k)) := by
  induction j with
  | zero => exact ⟨.refl k, rfl, fun _ _ => rfl, rfl, .nil hwf⟩
  | succ j ih =>
    have h := ih (by omega)
    rw [foldl_range_succ]
    exact h.step hwf (hv j hj) (hstep j _ hj h)

theorem MastersDone.dies {v : Nat → Nat} {j : Nat} {r : KRun} (h : MastersDone s0 c k v j r) : r.1.dies = s0.dies := by
  have hdies := congrArg State.dies h.rest
  exact hdies

/-! ### Moments -/

/-- A write to a stack without uncorrectable lines or wrong symbols is a write to its bytes. -/
theorem memWrite_plain {d : Nat} (hbad : (s.die d).bad = []) (hwrong : (s.die d).wrong = []) (off : Nat) (bs : List Byte) :
    s.memWrite d off bs = s.onDie d fun x => { x with mem := x.mem.writes off bs } := by
  unfold State.memWrite
  simp only [hbad, List.filter_nil, List.foldl_nil]
  refine congrArg (fun x => { s with dies := SMap.put s.dies d x }) ?_
  simp [Die.renew, hbad, hwrong]

/-- Two writes to such a stack. -/
theorem memWrite_memWrite_plain {d : Nat} (hbad : (s.die d).bad = []) (hwrong : (s.die d).wrong = []) (a1 a2 : Nat) (b1 b2 : List Byte) :
    (s.memWrite d a1 b1).memWrite d a2 b2 =
      (s.onDie d fun x => { x with mem := x.mem.writes a1 b1 }).onDie d fun x => { x with mem := x.mem.writes a2 b2 } := by
  rw [memWrite_plain hbad hwrong]
  exact memWrite_plain (by rw [State.die_onDie_same]; exact hbad) (by rw [State.die_onDie_same]; exact hwrong) _ _

/-- The words of the pairs of moments below j. -/
def momentWords (o1 o2 : Nat → Nat) (v : Nat → Nat × Nat) (j : Nat) : List (Nat × Nat) :=
  (List.range j).flatMap fun i => [(o1 i, (v i).1), (o2 i, (v i).2)]

variable {d : Nat} {o1 o2 : Nat → Nat} {v : Nat → Nat × Nat}

theorem momentWords_succ (j : Nat) :
    momentWords o1 o2 v (j + 1) = momentWords o1 o2 v j ++ [(o1 j, (v j).1)] ++ [(o2 j, (v j).2)] := by
  simp [momentWords, List.range_succ]

theorem mem_momentWords {j : Nat} {e : Nat × Nat} :
    e ∈ momentWords o1 o2 v j ↔ ∃ i, i < j ∧ (e = (o1 i, (v i).1) ∨ e = (o2 i, (v i).2)) := by
  simp [momentWords]

/-- What the moments below j have become: these values; of the rest of the state only a strand's digest and the command's
progress differ. -/
structure MomentsDone (s0 : State) (d : Nat) (k : KCmd) (o1 o2 : Nat → Nat) (v : Nat → Nat × Nat) (j : Nat) (r : KRun) : Prop where
  cmd : SameCmd k r.2
  cc : r.1.cc = s0.cc
  clusters : r.1.clusters = s0.clusters
  scratch : ∀ n, (r.1.tile n).scratch = (s0.tile n).scratch
  others : ∀ e, e ≠ d → r.1.die e = s0.die e
  bad : (r.1.die d).bad = []
  wrong : (r.1.die d).wrong = []
  mem : Patched 4 (s0.die d).mem (r.1.die d).mem (momentWords o1 o2 v j)

/-- Words apart from one another (R95). -/
def WordsApart (o1 o2 : Nat → Nat) (n : Nat) : Prop :=
  (∀ i, i < n → ∀ j, j < n → o1 i + 4 ≤ o2 j ∨ o2 j + 4 ≤ o1 i) ∧
  ∀ i, i < n → ∀ j, j < n → i ≠ j → (o1 i + 4 ≤ o1 j ∨ o1 j + 4 ≤ o1 i) ∧ (o2 i + 4 ≤ o2 j ∨ o2 j + 4 ≤ o2 i)

theorem WordsApart.first {n j : Nat} (h : WordsApart o1 o2 n) (hj : j < n) :
    ∀ e ∈ momentWords o1 o2 v j, o1 j + 4 ≤ e.1 ∨ e.1 + 4 ≤ o1 j := by
  intro e he
  obtain ⟨i, hi, rfl | rfl⟩ := mem_momentWords.1 he
  · exact (h.2 j hj i (hi.trans hj) hi.ne').1
  · exact h.1 j hj i (hi.trans hj)

theorem WordsApart.second {n j x : Nat} (h : WordsApart o1 o2 n) (hj : j < n) :
    ∀ e ∈ momentWords o1 o2 v j ++ [(o1 j, x)], o2 j + 4 ≤ e.1 ∨ e.1 + 4 ≤ o2 j := by
  intro e he
  rcases List.mem_append.1 he with he | he
  · obtain ⟨i, hi, rfl | rfl⟩ := mem_momentWords.1 he
    · exact (h.1 i (hi.trans hj) j hj).symm
    · exact (h.2 j hj i (hi.trans hj) hi.ne').2
  · obtain rfl := List.mem_singleton.1 he
    exact (h.1 j hj j hj).symm

theorem MomentsDone.step {n j : Nat} {r r' : KRun} (h : MomentsDone s0 d k o1 o2 v j r) (hwf : (s0.die d).mem.wf = true)
    (hapart : WordsApart o1 o2 n) (hj : j < n)
    (hr : StepsMoments d (o1 j) (o2 j) (leNat ((s0.die d).mem.reads (o1 j) 4), leNat ((s0.die d).mem.reads (o2 j) 4)) (v j) r r') :
    MomentsDone s0 d k o1 o2 v (j + 1) r' := by
  obtain ⟨hcmd, ⟨hs, hval⟩ | ⟨h1, h2, f, hs⟩⟩ := hr
  · refine ⟨h.cmd.trans hcmd, hs ▸ h.cc, hs ▸ h.clusters, hs ▸ h.scratch, hs ▸ h.others, hs ▸ h.bad, hs ▸ h.wrong, ?_⟩
    rw [momentWords_succ, hs, hval]
    exact (h.mem.keep hwf (hapart.first hj)).keep hwf (hapart.second hj)
  · rw [memWrite_memWrite_plain h.bad h.wrong] at hs
    have hdie (e : Nat) : r'.1.die e = if e = d then { r.1.die d with
        mem := ((r.1.die d).mem.writes (o1 j) (leBytes 4 (v j).1)).writes (o2 j) (leBytes 4 (v j).2) } else r.1.die e := by
      rw [hs, State.onStrand_die, State.die_onDie]
      split
      · rw [State.die_onDie_same]
      · next he => rw [State.die_onDie, if_neg he]
    have hd := (hdie d).trans (if_pos rfl)
    refine ⟨h.cmd.trans hcmd, by rw [hs]; exact h.cc, by rw [hs]; exact h.clusters, fun m => ?_, fun e he => ?_, ?_, ?_, ?_⟩
    · rw [← h.scratch m, hs, State.tile_onStrand]
      split
      · next hm => subst hm; rfl
      · rfl
    · rw [hdie, if_neg he, h.others e he]
    · rw [hd]; exact h.bad
    · rw [hd]; exact h.wrong
    · rw [momentWords_succ, hd]
      exact (h.mem.write h1 (hapart.first hj)).write h2 (hapart.second hj)

theorem momentsDone_run (hwf : (s0.die d).mem.wf = true) (hbad : (s0.die d).bad = []) (hwrong : (s0.die d).wrong = []) {n : Nat}
    (hapart : WordsApart o1 o2 n)
    (hstep : ∀ i r, i < n → MomentsDone s0 d k o1 o2 v i r → StepsMoments d (o1 i) (o2 i)
      (leNat ((s0.die d).mem.reads (o1 i) 4), leNat ((s0.die d).mem.reads (o2 i) 4)) (v i) r (kilnElem s0 c r i))
    {j : Nat} (hj : j ≤ n) : MomentsDone s0 d k o1 o2 v j ((List.range j).foldl (kilnElem s0 c) (s0, k)) := by
  induction j with
  | zero => exact ⟨.refl k, rfl, rfl, fun _ => rfl, fun _ _ => rfl, hbad, hwrong, .nil hwf⟩
  | succ j ih =>
    have h := ih (by omega)
    rw [foldl_range_succ]
    exact h.step hwf hapart hj (hstep j _ hj h)

end Sys2Proof.Machine
end

section
/-! SUPPORT. The completion of a kiln command (R95, R270): its status, its counter add, its faults. -/
namespace Sys2Proof

-- One theorem at a time, as above: side by side they ask for more threads than the limit on memory admits.
set_option Elab.async false

theorem SMap.get_del {α : Type} (d : α) (m : SMap α) (k j : Nat) : SMap.get d (m.del k) j = if j = k then d else SMap.get d m j := by
  induction m with
  | nil => exact (ite_self _).symm
  | cons e m ih =>
    obtain ⟨i, x⟩ := e
    change SMap.get d (List.filter (fun e => e.1 != k) ((i, x) :: m)) j = _
    change SMap.get d (List.filter (fun e => e.1 != k) m) j = _ at ih
    by_cases hi : i = k
    · rw [List.filter_cons_of_neg (by simp [hi]), ih]
      by_cases hj : j = k
      · rw [if_pos hj, if_pos hj]
      · rw [if_neg hj, if_neg hj, SMap.get, if_neg fun (h : i = j) => hj (h ▸ hi)]
    · rw [List.filter_cons_of_pos (by simp [hi]), SMap.get, SMap.get, ih]
      by_cases hj : i = j
      · rw [if_pos hj, if_pos hj, if_neg fun h => hi (hj.trans h)]
      · rw [if_neg hj, if_neg hj]

namespace Machine

variable {s t u : State}

/-! ### Counters -/

theorem ctrGet_congr {d : Nat} (h : t.die d = s.die d) (j : Nat) : t.ctrGet d j = s.ctrGet d j := by
  unfold State.ctrGet State.memRead State.isBad State.ctrOff
  rw [h]

theorem ctrGet_ctrSet (s : State) (d : Nat) {id : Nat} (hid : id < 65536) (v : DWord) (j : Nat) :
    (s.ctrSet d id v).ctrGet d j = if j = id then v else s.ctrGet d j := by
  unfold State.ctrSet
  rw [if_pos hid]
  by_cases hj : j < 65536
  · unfold State.ctrGet
    rw [if_pos hj, if_pos hj, State.die_onDie_same]
    by_cases hv : v = 0
    · rw [if_pos hv, SMap.get_del, hv]
    · rw [if_neg hv, SMap.get_put]
  · rw [if_neg (by omega)]
    unfold State.ctrGet State.memRead State.isBad State.ctrOff
    simp only [State.die_onDie_same]
    rw [if_neg hj, if_neg hj]

theorem ctrAdd_none {d id : Nat} {inc : DWord} (h : 2 ^ 64 ≤ (s.ctrGet d id).toNat + inc.toNat) : s.ctrAdd d id inc = none := by
  unfold State.ctrAdd
  exact if_neg fun hlt => absurd (of_decide_eq_true (Bool.and_eq_true_iff.1 hlt).2) h.not_gt

theorem ctrAdd_some {d id : Nat} {inc : DWord} (hid : id < 65536) (h : (s.ctrGet d id).toNat + inc.toNat < 2 ^ 64) :
    s.ctrAdd d id inc = some ((s.ctrSet d id (s.ctrGet d id + inc)).ctrRose d id) := by
  have hok : s.ctrOk d id = true := by unfold State.ctrOk; exact decide_eq_true (by omega)
  unfold State.ctrAdd State.ctrNote
  rw [if_pos (Bool.and_eq_true_iff.2 ⟨hok, decide_eq_true h⟩), if_pos hid]

/-- t is s after something that waiting strands may be ready for: as `Stirs`, but that a strand may note when. -/
structure Rises (s t : State) : Prop where
  cc : t.cc = s.cc
  clusters : t.clusters = s.clusters
  dies : t.dies = s.dies
  faults : ∀ n j, (t.strand n j).faults = (s.strand n j).faults
  outst : ∀ n j, (t.strand n j).outst = (s.strand n j).outst
  scratch : ∀ n, (t.tile n).scratch = (s.tile n).scratch

theorem Rises.refl (s : State) : Rises s s := ⟨rfl, rfl, rfl, fun _ _ => rfl, fun _ _ => rfl, fun _ => rfl⟩

theorem Rises.trans (h : Rises s t) (g : Rises t u) : Rises s u where
  cc := g.cc.trans h.cc
  clusters := g.clusters.trans h.clusters
  dies := g.dies.trans h.dies
  faults n j := (g.faults n j).trans (h.faults n j)
  outst n j := (g.outst n j).trans (h.outst n j)
  scratch n := (g.scratch n).trans (h.scratch n)

theorem Rises.sameBytes (h : Rises s t) : SameBytes s t :=
  ⟨fun n a => by rw [h.scratch], fun c a => by unfold State.cluster; rw [h.clusters], fun d a => by unfold State.die; rw [h.dies]⟩

theorem rises_each {α : Type} {f : State → α → State} (hf : ∀ s x, Rises s (f s x)) (l : List α) (s : State) : Rises s (s.each l f) :=
  each_keeps Rises Rises.refl (fun _ _ _ => Rises.trans) l f hf s

theorem rises_cleared (s : State) (n k v : Nat) : Rises s (s.onStrand n k fun x => { x with cleared := x.cleared.or (some v) }) where
  cc := rfl
  clusters := rfl
  dies := rfl
  faults m j := by rw [State.strand_onStrand]; split <;> simp_all
  outst m j := by rw [State.strand_onStrand]; split <;> simp_all
  scratch m := by rw [State.tile_onStrand]; split <;> simp_all [Tile.setStrand]

theorem rises_ctrRose (s : State) (d id : Nat) : Rises s (s.ctrRose d id) := by
  unfold State.ctrRose
  refine (((rises_each ?_ _ _).trans (rises_each ?_ _ _)).trans (rises_each ?_ _ _)).trans (rises_each ?_ _ _)
  · exact fun s w => { rises_cleared s w.1 w.2 s.cc with }
  · exact fun s _ => { Rises.refl s with }
  · exact fun s _ => { Rises.refl s with }
  · exact fun s _ => { Rises.refl s with }

theorem ctrSet_parts (s : State) (d : Nat) {id : Nat} (hid : id < 65536) (v : DWord) : let a := s.ctrSet d id v
    a.cc = s.cc ∧ a.clusters = s.clusters ∧ a.tiles = s.tiles ∧ SameBytes s a := by
  unfold State.ctrSet
  rw [if_pos hid]
  exact ⟨rfl, rfl, rfl, sameBytes_onDie _ _ _ fun _ => rfl⟩

/-- A counter add that is taken (R270). -/
theorem ctrAdd_spec {d id : Nat} {inc : DWord} (hid : id < 65536) (h : (s.ctrGet d id).toNat + inc.toNat < 2 ^ 64) :
    ∃ u, s.ctrAdd d id inc = some u ∧ u.cc = s.cc ∧ (∀ c, u.cluster c = s.cluster c) ∧
      (∀ n j, (u.strand n j).outst = (s.strand n j).outst) ∧ (∀ n j, (u.strand n j).faults = (s.strand n j).faults) ∧
      SameBytes s u ∧ ∀ j, u.ctrGet d j = if j = id then s.ctrGet d id + inc else s.ctrGet d j := by
  refine ⟨_, ctrAdd_some hid h, ?_⟩
  have hget := ctrGet_ctrSet s d hid (s.ctrGet d id + inc)
  obtain ⟨hcc, hcl, ht, hbytes⟩ := ctrSet_parts s d hid (s.ctrGet d id + inc)
  generalize s.ctrSet d id (s.ctrGet d id + inc) = a at *
  have hr := rises_ctrRose a d id
  generalize a.ctrRose d id = u at *
  have hstrand (n j : Nat) : a.strand n j = s.strand n j := by
    unfold State.strand State.tile
    rw [ht]
  exact ⟨hr.cc.trans hcc, fun c => congrArg (SMap.get Cluster.reset · c) (hr.clusters.trans hcl), fun n j => by rw [hr.outst, hstrand],
    fun n j => by rw [hr.faults, hstrand], sameBytes_trans hbytes hr.sameBytes,
    fun j => (ctrGet_congr (congrArg (SMap.get Die.reset · d) hr.dies) j).trans (hget j)⟩

/-! ### The completion -/

/-- A cluster whose status tells of a completed command (R96). -/
def Cluster.kilnTold (x : Cluster) (cc : Nat) (k : KCmd) : Cluster :=
  { x with
    kNew := (cc, if x.kNew.1 = cc then x.kNew.2.or k.fl else k.fl), kFlags := x.kFlags.or k.fl, kDone := x.kDone + 1,
    kSkip := min (x.kSkip + k.skip) 0xFFFF }

/-- The state with that status. -/
def State.kilnTold (s : State) (c : Nat) (k : KCmd) : State := s.onCluster c (·.kilnTold s.cc k)

theorem kilnTold_def (s : State) (c : Nat) (k : KCmd) : (s.onCluster c fun x => { x with
    kNew := (s.cc, if x.kNew.1 = s.cc then x.kNew.2.or k.fl else k.fl), kFlags := x.kFlags.or k.fl, kDone := x.kDone + 1,
    kSkip := min (x.kSkip + k.skip) 0xFFFF }) = s.kilnTold c k := rfl

theorem cluster_kilnTold (s : State) (c : Nat) (k : KCmd) : (s.kilnTold c k).cluster c = (s.cluster c).kilnTold s.cc k :=
  State.cluster_onCluster_same s c (·.kilnTold s.cc k)

theorem sameBytes_kilnTold (s : State) (c : Nat) (k : KCmd) : SameBytes s (s.kilnTold c k) :=
  sameBytes_onCluster s c (·.kilnTold s.cc k) fun _ => rfl

variable {c : Nat} {k : KCmd} (hrun : (s.cluster c).krun = some k)
include hrun

theorem complete_plain (hcnt : k.cnt = false) (herr : k.err = none) :
    exec (.kilnCommandComplete c) s = .next ((s.kilnTold c k).kilnLeave c k) := by
  unfold exec execKilnCommandComplete
  simp only [hrun, hcnt, herr, Bool.false_and, Bool.false_eq_true, if_false, Bool.not_false, if_true]
  rfl

theorem complete_fault (hcnt : k.cnt = false) {e : Nat × Nat × Nat} (herr : k.err = some e) :
    exec (.kilnCommandComplete c) s = .next (((s.kilnTold c k).kilnFault k e.1 e.2.1 k.skip false e.2.2).kilnLeave c k) := by
  unfold exec execKilnCommandComplete
  simp only [hrun, hcnt, herr, Bool.false_and, Bool.false_eq_true, if_false, Bool.not_false, if_true]
  rfl

variable (hcnt : k.cnt = true) (herr : k.err = none) (hrels : (s.strand k.org.tile k.org.strand).rels = [])
include hcnt herr hrels

theorem complete_add {u : State}
    (hadd : (s.kilnTold c k).ctrAdd (c / 32) (ctrId k.n[7]) ((k.n[7].extractLsb' 32 32).setWidth 64) = some u) :
    exec (.kilnCommandComplete c) s = .next (u.kilnLeave c k) := by
  have hgate : (s.strand k.org.tile k.org.strand).gated k.gate = false := by unfold Strand.gated; rw [hrels]; rfl
  unfold exec execKilnCommandComplete
  simp only [hrun, hcnt, herr, hgate, Bool.true_and, Bool.false_eq_true, if_false, Bool.not_true, kilnTold_def, hadd]

theorem complete_add_refused
    (hadd : (s.kilnTold c k).ctrAdd (c / 32) (ctrId k.n[7]) ((k.n[7].extractLsb' 32 32).setWidth 64) = none) :
    exec (.kilnCommandComplete c) s = .next (((s.kilnTold c k).kilnFault k 3 0 0 false (ctrId k.n[7])).kilnLeave c k) := by
  have hgate : (s.strand k.org.tile k.org.strand).gated k.gate = false := by unfold Strand.gated; rw [hrels]; rfl
  unfold exec execKilnCommandComplete
  simp only [hrun, hcnt, herr, hgate, Bool.true_and, Bool.false_eq_true, if_false, Bool.not_true, kilnTold_def, hadd]

end Machine
end Sys2Proof
end

section
/-! PROOFS. Kiln commands (O29): configuration, masters, moments, faults and completion. -/
namespace Sys2Proof.Machine

-- One theorem at a time, as above: side by side they ask for more threads than the limit on memory admits.
set_option Elab.async false

variable {s s0 u t : State} {c : Nat} {k : KCmd} {rest : List KCmd}

/-! ### What the beginning of a command leaves -/

theorem strand_kilnBegun (s : State) (c : Nat) (k : KCmd) (rest : List KCmd) (n j : Nat) :
    (s.kilnBegun c k rest).strand n j = s.strand n j := by
  obtain ⟨-, -, htiles, -, -⟩ := kilnBegun_parts s c k rest
  unfold State.strand State.tile
  rw [htiles]

theorem sameBytes_kilnBegun (s : State) (c : Nat) (k : KCmd) (rest : List KCmd) : SameBytes s (s.kilnBegun c k rest) := by
  obtain ⟨l, hl⟩ := kilnBegun_eq s c k rest
  rw [hl]
  exact sameBytes_onCluster s c (·.kilnBegins k rest) fun _ => rfl

theorem KilnLeft.of_same (h : KilnLeft u t c k) (hcc : u.cc = s.cc)
    (ho : (u.strand k.org.tile k.org.strand).outst = (s.strand k.org.tile k.org.strand).outst) : KilnLeft s t c k := by
  obtain ⟨hrun, hev, hout⟩ := h
  exact ⟨hrun, hcc ▸ hev, ho ▸ hout⟩

section
variable (hcc : u.cc = s.cc) (hout : (u.strand k.org.tile k.org.strand).outst = (s.strand k.org.tile k.org.strand).outst)
  (hfaults : (u.strand k.org.tile k.org.strand).faults = (s.strand k.org.tile k.org.strand).faults) (hbytes : SameBytes s u)
include hcc hout hfaults hbytes

/-- A command leaves a state u that its strand and every byte have in common with s. -/
theorem leave_after (c : Nat) : KilnLeft s (u.kilnLeave c k) c k ∧ SameBytes s (u.kilnLeave c k) ∧
    (u.kilnLeave c k).cluster c = (u.cluster c).kilnFree ∧ (u.kilnLeave c k).dies = u.dies ∧
    ((u.kilnLeave c k).strand k.org.tile k.org.strand).faults = (s.strand k.org.tile k.org.strand).faults := by
  obtain ⟨hcl, hleft, hb, hdies, -, hf⟩ := kilnLeave_spec u c k
  exact ⟨hleft.of_same hcc hout, sameBytes_trans hbytes hb, hcl, hdies, hf.trans hfaults⟩

/-- It leaves with a fault. -/
theorem leave_fault_after (c cause x skip : Nat) (refused : Bool) (addr : Nat) :
    let t := (u.kilnFault k cause x skip refused addr).kilnLeave c k
    KilnLeft s t c k ∧ SameBytes s t ∧ t.cluster c = (u.cluster c).kilnFree ∧ t.dies = u.dies ∧
    (t.strand k.org.tile k.org.strand).faults =
      (s.strand k.org.tile k.org.strand).faults ++ [(s.cc, k.info cause x skip refused addr)] := by
  obtain ⟨hcl, hleft, hb, hdies, -, hf⟩ := kilnLeave_fault u c k cause x skip refused addr
  exact ⟨hleft.of_same hcc hout, sameBytes_trans hbytes hb, hcl, hdies, by rw [hf, hfaults, hcc]⟩

end

/-! ### UPCF, and a command that is refused -/

theorem KCmd.info_range (k : KCmd) (w : DWord) : let i := k.info 1 0 0 false w.toNat
    i.cause = .kiln ∧ i.engine = 7 ∧ i.seq = k.org.seq ∧ i.isw = 1 ∧ i.addr = w :=
  ⟨rfl, rfl, rfl, rfl, by simp [KCmd.info, infoOf]⟩

/-- A command with a kiln-range fault leaves. -/
theorem refused_spec (s : State) (c : Nat) (k : KCmd) (rest : List KCmd) (w : DWord) :
    let t := ((s.kilnBegun c k rest).kilnFault k 1 0 0 false w.toNat).kilnLeave c k
    KilnLeft s t c k ∧ SameBytes s t ∧ t.cluster c = ((s.cluster c).kilnBegins k rest).kilnFree ∧
    (t.strand k.org.tile k.org.strand).faults = (s.strand k.org.tile k.org.strand).faults ++ [(s.cc, k.info 1 0 0 false w.toNat)] := by
  obtain ⟨hleft, hbytes, hcl, -, hfaults⟩ := leave_fault_after (k := k) (kilnBegun_parts s c k rest).1 (by rw [strand_kilnBegun])
    (by rw [strand_kilnBegun]) (sameBytes_kilnBegun ..) c 1 0 0 false w.toNat
  exact ⟨hleft, hbytes, by rw [hcl, cluster_kilnBegun_same], hfaults⟩

/-- The configuration is loaded, and the command leaves. -/
theorem loaded_spec (s : State) (c : Nat) (k : KCmd) (rest : List KCmd) :
    let t := ((s.kilnBegun c k rest).onCluster c (·.withCfg k)).kilnLeave c k
    KilnLeft s t c k ∧ SameBytes s t ∧ t.cluster c = (((s.cluster c).kilnBegins k rest).withCfg k).kilnFree ∧
    (t.strand k.org.tile k.org.strand).faults = (s.strand k.org.tile k.org.strand).faults := by
  have hload : SameBytes (s.kilnBegun c k rest) ((s.kilnBegun c k rest).onCluster c (·.withCfg k)) :=
    sameBytes_onCluster _ c (·.withCfg k) fun _ => rfl
  have hcc : ((s.kilnBegun c k rest).onCluster c (·.withCfg k)).cc = s.cc := by rw [State.onCluster_cc, (kilnBegun_parts s c k rest).1]
  obtain ⟨hleft, hbytes, hcl, -, hfaults⟩ := leave_after (k := k) hcc (by rw [State.onCluster_strand, strand_kilnBegun])
    (by rw [State.onCluster_strand, strand_kilnBegun]) (sameBytes_trans (sameBytes_kilnBegun ..) hload) c
  exact ⟨hleft, hbytes, by rw [hcl, State.cluster_onCluster_same, cluster_kilnBegun_same], hfaults⟩

/-- UPCF (R92). -/
theorem upcf_runs (hrun : (s.cluster c).krun = none) (hq : (s.cluster c).kq = k :: rest) (hop : k.op = .upcf) :
    ∃ t, exec (.kilnCommandStart c) s = .next t ∧ KilnLeft s t c k ∧ (t.cluster c).kq = rest ∧ SameBytes s t ∧
      (k.n[2].toNat < 2 ^ 16 → (t.cluster c).kcfg = k.cfg ∧
        (t.strand k.org.tile k.org.strand).faults = (s.strand k.org.tile k.org.strand).faults) ∧
      (2 ^ 16 ≤ k.n[2].toNat → (t.cluster c).kcfg = (s.cluster c).kcfg ∧ ∃ i : TrapInfo,
        (t.strand k.org.tile k.org.strand).faults = (s.strand k.org.tile k.org.strand).faults ++ [(s.cc, i)] ∧
        i.cause = .kiln ∧ i.engine = 7 ∧ i.seq = k.org.seq ∧ i.isw = 1 ∧ i.addr = k.n[2]) := by
  rcases Nat.lt_or_ge k.n[2].toNat (2 ^ 16) with hn | hn
  · obtain ⟨hleft, hbytes, hcl, hfaults⟩ := loaded_spec s c k rest
    exact ⟨_, start_upcf hrun hq hop hn, hleft, congrArg Cluster.kq hcl, hbytes, fun _ => ⟨congrArg Cluster.kcfg hcl, hfaults⟩,
      fun h => absurd hn h.not_gt⟩
  · obtain ⟨hleft, hbytes, hcl, hfaults⟩ := refused_spec s c k rest k.n[2]
    refine ⟨_, start_upcf_refused hrun hq hop hn, hleft, congrArg Cluster.kq hcl, hbytes, fun h => absurd hn h.not_ge,
      fun _ => ⟨by rw [hcl]; rfl, _, hfaults, k.info_range k.n[2]⟩⟩

/-- A count that is too large (R95). -/
theorem updm_refused (hrun : (s.cluster c).krun = none) (hq : (s.cluster c).kq = k :: rest) (hbusy : (s.cluster c).busy = false)
    (hop : k.op = .updm false) (h0 : k.n[0].toNat % 2 = 0) (h3 : k.n[3].toNat % (if k.bf then 2 else 4) = 0)
    (hmax : 16777216 < k.n[6].toNat) : ∃ (t : State) (i : TrapInfo), exec (.kilnCommandStart c) s = .next t ∧ KilnLeft s t c k ∧ (t.cluster c).kq = rest ∧
      SameBytes s t ∧ (t.cluster c).kDone = (s.cluster c).kDone ∧
      (t.strand k.org.tile k.org.strand).faults = (s.strand k.org.tile k.org.strand).faults ++ [(s.cc, i)] ∧
      i.cause = .kiln ∧ i.engine = 7 ∧ i.isw = 1 ∧ i.addr = k.n[6] := by
  obtain ⟨hleft, hbytes, hcl, hfaults⟩ := refused_spec s c k rest k.n[6]
  obtain ⟨hcause, hengine, -, hisw, haddr⟩ := k.info_range k.n[6]
  exact ⟨_, _, start_refused hrun hq hbusy (by simp [hop]) (kilnErr_count hop h0 h3 hmax), hleft, congrArg Cluster.kq hcl, hbytes,
    by rw [hcl]; rfl, hfaults, hcause, hengine, hisw, haddr⟩

/-! ### Masters (R94) -/

theorem specGradient_congr {x y : Cluster} {k k' : KCmd} (hs : y.store = x.store) (hk : SameCmd k k') (i : Nat) :
    specGradient y k' i = specGradient x k i := by
  unfold specGradient
  rw [hs, hk.bf, hk.n]

/-- The value that UPDM leaves in master i for an update u. -/
def masterValue (x : Cluster) (k : KCmd) (u : Nat → Nat) (i : Nat) : Nat :=
  specMaster x.kcfg.lr.toNat x.kcfg.decay.toNat (leNat (x.store.reads (k.n[0].toNat + 2 * i) 2)) (u i)

theorem masterValue_lt (x : Cluster) (k : KCmd) (u : Nat → Nat) (i : Nat) : masterValue x k u i < 65536 :=
  specMaster_lt (leNat_reads_lt ..)

/-- A UPDM without moments does every master. -/
theorem mastersDone_plain (hop : k.op = .updm false) (hwf : (s0.cluster c).store.wf = true) (n : Nat) :
    MastersDone s0 c k (masterValue (s0.cluster c) k (specGradient (s0.cluster c) k)) n
      ((List.range n).foldl (kilnElem s0 c) (s0, k)) := by
  refine mastersDone_run (n := n) hwf (fun i _ => masterValue_lt ..) (fun i r _ h => ?_) le_rfl
  rw [kilnElem_of_not_moments (h.cmd.op.trans hop), specGradient_congr rfl h.cmd, masterValue, ← h.cmd.n]
  exact masterElem_steps ..

/-- A UPDM with its moments at these offsets does every master. -/
theorem mastersDone_moments {o1 o2 : Nat → Nat} {n : Nat} (hop : k.op = .updm true) (hwf : (s0.cluster c).store.wf = true)
    (hbad : (s0.die (c / 32)).bad = []) (hwrong : (s0.die (c / 32)).wrong = [])
    (hat : ∀ i, i < n → s0.moment c (k.n[4].toNat + 4 * i) false = .at_ (o1 i) ∧ s0.moment c (k.n[5].toNat + 4 * i) false = .at_ (o2 i)) :
    let at_ (o : Nat) : Nat := leNat ((s0.die (c / 32)).mem.reads o 4)
    MastersDone s0 c k (masterValue (s0.cluster c) k fun i => specUpdate (s0.cluster c).kcfg.eps.toNat (at_ (o1 i)) (at_ (o2 i))) n
      ((List.range n).foldl (kilnElem s0 c) (s0, k)) := by
  intro at_
  refine mastersDone_run (n := n) hwf (fun i _ => masterValue_lt ..) (fun i r hi h => ?_) le_rfl
  have hdie : r.1.die (c / 32) = s0.die (c / 32) := congrArg (SMap.get _ · _) h.dies
  obtain ⟨h1, h2⟩ := hat i hi
  rw [← h.cmd.n] at h1 h2
  rw [masterValue, ← h.cmd.n]
  exact kilnElem_updm hbad (hdie ▸ hbad) (hdie ▸ hwrong) (h.cmd.op.trans hop) h1 h2

theorem cluster_kilnRan (r : KRun) (c : Nat) (k : KCmd) (d : Nat) :
    (State.kilnRan r c k).cluster d = if d = c then { r.1.cluster c with krun := some r.2 } else r.1.cluster d :=
  State.cluster_onCluster r.1 c (fun x => { x with krun := some r.2 }) d

/-- What a run that has done n masters leaves. -/
theorem kilnRan_masters {v : Nat → Nat} {n : Nat} {r : KRun} (h : MastersDone s0 c k v n r) : let t := State.kilnRan r c k
    (t.cluster c).kq = (s0.cluster c).kq ∧ (t.cluster c).krun.isSome ∧ t.tiles = s0.tiles ∧ t.dies = s0.dies ∧
    (∀ d, d ≠ c → t.cluster d = s0.cluster d) ∧
    (keyOf (s0.dueCc k.bound) (slotKiln c), Event.kilnCommandComplete c) ∈ t.agenda ∧
    (∀ i, i < n → leNat ((t.cluster c).store.reads (k.n[0].toNat + 2 * i) 2) = v i) ∧
    ∀ a, (a < k.n[0].toNat ∨ k.n[0].toNat + 2 * n ≤ a) → (t.cluster c).store.read a = (s0.cluster c).store.read a := by
  intro t
  have hcl : t.cluster c = { r.1.cluster c with krun := some r.2 } := (cluster_kilnRan r c k c).trans (if_pos rfl)
  have hkq := congrArg Cluster.kq h.here
  have htiles := congrArg State.tiles h.rest
  have hdue : r.1.dueCc k.bound = s0.dueCc k.bound := by
    have hcc := congrArg State.cc h.rest
    have hslack := congrArg State.slack h.rest
    dsimp only at hcc hslack
    unfold State.dueCc
    rw [hcc, hslack]
  refine ⟨by rw [hcl]; exact hkq, by rw [hcl]; rfl, htiles, h.dies, fun d hd => ?_, ?_, fun i hi => ?_, fun a ha => ?_⟩
  · rw [← h.others d hd]
    exact (cluster_kilnRan r c k d).trans (if_neg hd)
  · rw [← hdue]
    exact insertKey_mem ..
  · rw [hcl]
    exact h.store.value (k.n[0].toNat + 2 * i, v i) (List.mem_map.2 ⟨i, List.mem_range.2 hi, rfl⟩)
  · rw [hcl]
    refine h.store.rest a fun e he => ?_
    obtain ⟨i, hi, rfl⟩ := List.mem_map.1 he
    have := List.mem_range.1 hi
    dsimp only
    omega

/-! ### Moments (R93) -/

/-- The values that UPMO leaves in pair i, whose words stand at o1 i and o2 i of a stack. -/
def momentValue (x : Cluster) (k : KCmd) (m : Memory) (o1 o2 : Nat → Nat) (i : Nat) : Nat × Nat :=
  specMoments x.kcfg.c1.toNat x.kcfg.c2.toNat (specGradient x k i) (leNat (m.reads (o1 i) 4)) (leNat (m.reads (o2 i) 4))

/-- What a run that has done n pairs of moments leaves. -/
theorem kilnRan_moments {o1 o2 : Nat → Nat} {v : Nat → Nat × Nat} {d n : Nat} {r : KRun} (h : MomentsDone s0 d k o1 o2 v n r) :
    let t := State.kilnRan r c k
    (t.cluster c).kq = (s0.cluster c).kq ∧ (t.cluster c).krun.isSome ∧ (∀ m, (t.tile m).scratch = (s0.tile m).scratch) ∧
    (∀ e, (t.cluster e).store = (s0.cluster e).store) ∧ (∀ e, e ≠ d → t.die e = s0.die e) ∧
    (∃ due, due ≤ s0.cc + k.bound ∧ (keyOf due (slotKiln c), Event.kilnCommandComplete c) ∈ t.agenda) ∧
    (∀ i, i < n → (leNat ((t.die d).mem.reads (o1 i) 4), leNat ((t.die d).mem.reads (o2 i) 4)) = v i) ∧
    ∀ a, (∀ i, i < n → (a < o1 i ∨ o1 i + 4 ≤ a) ∧ (a < o2 i ∨ o2 i + 4 ≤ a)) → (t.die d).mem.read a = (s0.die d).mem.read a := by
  intro t
  have hsame (e : Nat) : r.1.cluster e = s0.cluster e := congrArg (SMap.get Cluster.reset · e) h.clusters
  have hcl : t.cluster c = { s0.cluster c with krun := some r.2 } := by
    rw [← hsame]
    exact (cluster_kilnRan r c k c).trans (if_pos rfl)
  refine ⟨by rw [hcl], by rw [hcl]; rfl, h.scratch, fun e => ?_, h.others, ⟨_, ?_, insertKey_mem ..⟩, fun i hi => ?_, fun a ha => ?_⟩
  · rw [cluster_kilnRan, ← hsame e]
    split
    · next he => rw [he]
    · rfl
  · rw [← h.cc]
    exact dueCc_le r.1 k.bound
  · exact Prod.ext (h.mem.value (o1 i, (v i).1) (mem_momentWords.2 ⟨i, hi, .inl rfl⟩))
      (h.mem.value (o2 i, (v i).2) (mem_momentWords.2 ⟨i, hi, .inr rfl⟩))
  · refine h.mem.rest a fun e he => ?_
    obtain ⟨i, hi, rfl | rfl⟩ := mem_momentWords.1 he
    · exact (ha i hi).1
    · exact (ha i hi).2

/-! ### The state in which the elements are processed -/

theorem plainKiln_kilnBegun (h : PlainKiln (s.cluster c) k) : PlainKiln ((s.kilnBegun c k rest).cluster c) k := by
  rw [cluster_kilnBegun_same]
  exact h

theorem kilnReady_of_plain (hrels : (s.strand k.org.tile k.org.strand).rels = [])
    (htouch : k.moments = true → ∀ a ∈ momentPages k.n[4].toNat k.count ++ momentPages k.n[5].toNat k.count,
      s.touch c (BitVec.ofNat 64 a) = s) : s.kilnReady c k = s := by
  have hown : s.ownFirst k.org.tile k.org.strand = s := by
    unfold State.ownFirst
    rw [hrels]
    rfl
  unfold State.kilnReady
  rw [hown]
  dsimp only
  split
  · next hm =>
    have hall (l : List Nat) (h : ∀ a ∈ l, s.touch c (BitVec.ofNat 64 a) = s) : s.each l (fun s a => s.touch c (BitVec.ofNat 64 a)) = s := by
      unfold State.each
      induction l with
      | nil => rfl
      | cons a l ih => rw [List.foldl_cons, h a (List.mem_cons_self ..), ih fun b hb => h b (List.mem_cons_of_mem _ hb)]
    exact hall _ (htouch hm)
  · rfl

theorem kilnReady_kilnBegun_plain (hmo : k.moments = false) (hrels : (s.strand k.org.tile k.org.strand).rels = []) :
    (s.kilnBegun c k rest).kilnReady c k = s.kilnBegun c k rest :=
  kilnReady_of_plain (by rw [strand_kilnBegun]; exact hrels) fun h => absurd (hmo.symm.trans h) Bool.false_ne_true

theorem KCmd.bound_of_plain (hop : k.op ≠ .upcf) (hn : k.n[6].toNat ≠ 0) :
    k.bound = if k.moments then 512 + (k.n[6].toNat + 7) / 8 else 64 + (k.n[6].toNat + 31) / 32 := by
  unfold KCmd.bound
  exact if_neg (by rintro (h | h); exacts [hn h, hop h])

/-- The moments of a command, as its elements find them (R95). -/
structure MomentsReady (s : State) (c : Nat) (k : KCmd) (w : Bool) (o1 o2 : Nat → Nat) : Prop where
  bad : (s.die (c / 32)).bad = []
  wrong : (s.die (c / 32)).wrong = []
  wf : (s.die (c / 32)).mem.wf = true
  apart : WordsApart o1 o2 k.count
  at_ : ∀ i, i < k.count → s.moment c (k.n[4].toNat + 4 * i) w = .at_ (o1 i) ∧ s.moment c (k.n[5].toNat + 4 * i) w = .at_ (o2 i)
  checks : k.n[4].toNat % 4 = 0 ∧ k.n[5].toNat % 4 = 0 ∧ s.momentAway c k.n[4].toNat k.count = none ∧
    s.momentAway c k.n[5].toNat k.count = none
  touch : ∀ a ∈ momentPages k.n[4].toNat k.count ++ momentPages k.n[5].toNat k.count, s.touch c (BitVec.ofNat 64 a) = s

/-- A UPMO does every pair. -/
theorem momentsDone_upmo {o1 o2 : Nat → Nat} (hop : k.op = .upmo) (h : MomentsReady s0 c k true o1 o2) :
    MomentsDone s0 (c / 32) k o1 o2 (momentValue (s0.cluster c) k (s0.die (c / 32)).mem o1 o2) k.count
      ((List.range k.count).foldl (kilnElem s0 c) (s0, k)) := by
  refine momentsDone_run h.wf h.bad h.wrong h.apart (fun i r hi hr => ?_) le_rfl
  obtain ⟨h1, h2⟩ := h.at_ i hi
  rw [← hr.cmd.n] at h1 h2
  rw [momentValue, ← specGradient_congr rfl hr.cmd]
  exact kilnElem_upmo h.bad hr.bad hr.wrong (hr.cmd.op.trans hop) h1 h2

/-- The words of one array of moments, which are found where the TLB of u is that of s. -/
theorem words_of_moments {base n : Nat} {o : Nat → Nat} {w : Bool} (hb : base % 4 = 0) (hn : 0 < n) (hend : base + 4 * n ≤ 2 ^ 52)
    (hl : ∀ i, i < n → ((s.cluster c).lookup ((base + 4 * i) / 65536)).isSome = true) (h : ∀ i, i < n → s.moment c (base + 4 * i) w = .at_ (o i)) :
    s.momentAway c base n = none ∧ ∀ a ∈ momentPages base n, s.touch c (BitVec.ofNat 64 a) = s := by
  refine ⟨momentAway_none hb hn fun j hj => moment_ne_away (by omega) (hl j hj) (h j hj), fun a ha => ?_⟩
  obtain ⟨j, hj, rfl⟩ := mem_momentPages hb hn ha
  exact touch_of_moment (by omega) (hl j hj) (h j hj)

theorem momentsReady_kilnBegun {w : Bool} {o1 o2 : Nat → Nat} (h : MomentsAt s c k w o1 o2) (hn : 0 < k.count) :
    MomentsReady (s.kilnBegun c k rest) c k w o1 o2 := by
  obtain ⟨h4, h5, hbad, hwrong, hwf, hend4, hend5, hlook, hat, hapart⟩ := h
  obtain ⟨-, -, -, hdies, hcoord⟩ := kilnBegun_parts s c k rest
  have hdie : (s.kilnBegun c k rest).die (c / 32) = s.die (c / 32) := congrArg (SMap.get Die.reset · (c / 32)) hdies
  have hcl := cluster_kilnBegun_same s c k rest
  have htlb : ((s.kilnBegun c k rest).cluster c).tlb = (s.cluster c).tlb := by rw [hcl]; rfl
  have hctx : ((s.kilnBegun c k rest).cluster c).ptCtx = (s.cluster c).ptCtx := by rw [hcl]; rfl
  have hlookup (p : Nat) : ((s.kilnBegun c k rest).cluster c).lookup p = (s.cluster c).lookup p := by
    unfold Cluster.lookup
    rw [htlb, hctx]
  have hl4 (i : Nat) (hi : i < k.count) : ((s.cluster c).lookup ((k.n[4].toNat + 4 * i) / 65536)).isSome = true :=
    hlook i hi k.n[4] (List.mem_cons_self ..)
  have hl5 (i : Nat) (hi : i < k.count) : ((s.cluster c).lookup ((k.n[5].toNat + 4 * i) / 65536)).isSome = true :=
    hlook i hi k.n[5] (List.mem_cons_of_mem _ (List.mem_cons_self ..))
  have hend4 : k.n[4].toNat + 4 * k.count ≤ 2 ^ 52 := hend4
  have hend5 : k.n[5].toNat + 4 * k.count ≤ 2 ^ 52 := hend5
  have hat4 (i : Nat) (hi : i < k.count) : (s.kilnBegun c k rest).moment c (k.n[4].toNat + 4 * i) w = .at_ (o1 i) :=
    moment_congr (by omega) (hl4 i hi) (hat i hi).1 htlb hctx hdies hcoord
  have hat5 (i : Nat) (hi : i < k.count) : (s.kilnBegun c k rest).moment c (k.n[5].toNat + 4 * i) w = .at_ (o2 i) :=
    moment_congr (by omega) (hl5 i hi) (hat i hi).2 htlb hctx hdies hcoord
  obtain ⟨haway4, htouch4⟩ := words_of_moments h4 hn hend4 (fun i hi => by rw [hlookup]; exact hl4 i hi) hat4
  obtain ⟨haway5, htouch5⟩ := words_of_moments h5 hn hend5 (fun i hi => by rw [hlookup]; exact hl5 i hi) hat5
  exact {
    bad := by rw [hdie]; exact hbad
    wrong := by rw [hdie]; exact hwrong
    wf := by rw [hdie]; exact hwf
    apart := hapart
    at_ := fun i hi => ⟨hat4 i hi, hat5 i hi⟩
    checks := ⟨h4, h5, haway4, haway5⟩
    touch := fun a ha => (List.mem_append.1 ha).elim (htouch4 a) (htouch5 a) }

section
variable (hrun : (s.cluster c).krun = none) (hq : (s.cluster c).kq = k :: rest) (hbusy : (s.cluster c).busy = false)
  (hplain : PlainKiln (s.cluster c) k) (hrels : (s.strand k.org.tile k.org.strand).rels = [])
include hrun hq hbusy hplain hrels

/-- UPDM without moments. -/
theorem updm_runs (hslack : s.slack = []) (hop : k.op = .updm false) : ∃ t, exec (.kilnCommandStart c) s = .next t ∧ (t.cluster c).kq = rest ∧
    (t.cluster c).krun.isSome ∧ t.tiles = s.tiles ∧ t.dies = s.dies ∧ (∀ d, d ≠ c → t.cluster d = s.cluster d) ∧
    (keyOf (s.cc + 64 + (k.n[6].toNat + 31) / 32) (slotKiln c), Event.kilnCommandComplete c) ∈ t.agenda ∧
    (∀ i, i < k.n[6].toNat → leNat ((t.cluster c).store.reads (k.n[0].toNat + 2 * i) 2) =
      masterValue (s.cluster c) k (specGradient (s.cluster c) k) i) ∧
    ∀ a, (a < k.n[0].toNat ∨ k.n[0].toNat + 2 * k.n[6].toNat ≤ a) → (t.cluster c).store.read a = (s.cluster c).store.read a := by
  have hmo : k.moments = false := by rw [KCmd.moments, hop]
  have hplain' := plainKiln_kilnBegun (rest := rest) hplain
  obtain ⟨hne, hn, -, -, -, hwf, -⟩ := hplain'
  have herr := kilnErr_none (plainKiln_kilnBegun (rest := rest) hplain) fun h => absurd (hmo.symm.trans h) Bool.false_ne_true
  have hready := kilnReady_kilnBegun_plain (c := c) (rest := rest) hmo hrels
  have hdone := mastersDone_plain (s0 := s.kilnBegun c k rest) hop hwf k.count
  obtain ⟨hkq, hsome, htiles, hdies, hothers, hev, hvalue, hread⟩ := kilnRan_masters hdone
  obtain ⟨hcc, hsl, ht, hd, -⟩ := kilnBegun_parts s c k rest
  rw [cluster_kilnBegun_same] at hkq hvalue hread
  have hdue : (s.kilnBegun c k rest).dueCc k.bound = s.cc + 64 + (k.n[6].toNat + 31) / 32 := by
    rw [dueCc_of_slack_nil (hsl.trans hslack), hcc, KCmd.bound_of_plain hne hn, hmo, if_neg Bool.false_ne_true, Nat.add_assoc]
  refine ⟨_, start_runs hrun hq hbusy hne herr hready, hkq, hsome, htiles.trans ht, hdies.trans hd, fun d hd => ?_, hdue ▸ hev, hvalue, hread⟩
  rw [hothers d hd, cluster_kilnBegun, if_neg hd]

/-- UPDM with moments. -/
theorem updm_moments_run {o1 o2 : Nat → Nat} (hop : k.op = .updm true) (hmo : MomentsAt s c k false o1 o2) :
    let at_ (o : Nat) : Nat := leNat ((s.die (c / 32)).mem.reads o 4)
    ∃ t, exec (.kilnCommandStart c) s = .next t ∧ (t.cluster c).kq = rest ∧ (t.cluster c).krun.isSome ∧ OnlyStore s t c ∧
    (∃ due, due ≤ s.cc + 512 + (k.n[6].toNat + 7) / 8 ∧ (keyOf due (slotKiln c), Event.kilnCommandComplete c) ∈ t.agenda) ∧
    (∀ i, i < k.n[6].toNat → leNat ((t.cluster c).store.reads (k.n[0].toNat + 2 * i) 2) =
      masterValue (s.cluster c) k (fun i => specUpdate (s.cluster c).kcfg.eps.toNat (at_ (o1 i)) (at_ (o2 i))) i) ∧
    ∀ a, (a < k.n[0].toNat ∨ k.n[0].toNat + 2 * k.n[6].toNat ≤ a) → (t.cluster c).store.read a = (s.cluster c).store.read a := by
  intro at_
  obtain ⟨hne, hn, -, -, -, hwf, -⟩ := plainKiln_kilnBegun (rest := rest) hplain
  have hm := momentsReady_kilnBegun (rest := rest) hmo (Nat.pos_of_ne_zero hn)
  have herr := kilnErr_none (plainKiln_kilnBegun (rest := rest) hplain) fun _ => hm.checks
  have hready := kilnReady_of_plain (c := c) (k := k) (by rw [strand_kilnBegun]; exact hrels) fun _ => hm.touch
  have hdone := mastersDone_moments (n := k.count) hop hwf hm.bad hm.wrong hm.at_
  obtain ⟨hkq, hsome, htiles, hdies, hothers, hev, hvalue, hread⟩ := kilnRan_masters hdone
  obtain ⟨hcc, -, ht, hd, -⟩ := kilnBegun_parts s c k rest
  have hdie : (s.kilnBegun c k rest).die (c / 32) = s.die (c / 32) := congrArg (SMap.get Die.reset · (c / 32)) hd
  rw [cluster_kilnBegun_same] at hkq hvalue hread
  rw [hdie] at hvalue
  refine ⟨_, start_runs hrun hq hbusy hne herr hready, hkq, hsome, ⟨fun n a => ?_, fun d hd a => ?_, fun d a => ?_⟩,
    ⟨_, ?_, hev⟩, hvalue, hread⟩
  · unfold State.tile
    rw [htiles.trans ht]
  · rw [hothers d hd, cluster_kilnBegun, if_neg hd]
  · unfold State.die
    rw [hdies.trans hd]
  · have hmom : k.moments = true := by rw [KCmd.moments, hop]
    refine (dueCc_le _ _).trans (le_of_eq ?_)
    rw [hcc, KCmd.bound_of_plain hne hn, hmom, if_pos rfl, Nat.add_assoc]

/-- UPMO. -/
theorem upmo_runs {o1 o2 : Nat → Nat} (hop : k.op = .upmo) (hmo : MomentsAt s c k true o1 o2) : let d := c / 32
    ∃ t, exec (.kilnCommandStart c) s = .next t ∧ (t.cluster c).kq = rest ∧ (t.cluster c).krun.isSome ∧
    (∀ n a, (t.tile n).scratch.read a = (s.tile n).scratch.read a) ∧
    (∀ e a, (t.cluster e).store.read a = (s.cluster e).store.read a) ∧
    (∀ e, e ≠ d → ∀ a, (t.die e).mem.read a = (s.die e).mem.read a) ∧
    (∃ due, due ≤ s.cc + 512 + (k.n[6].toNat + 7) / 8 ∧ (keyOf due (slotKiln c), Event.kilnCommandComplete c) ∈ t.agenda) ∧
    (∀ i, i < k.n[6].toNat → (leNat ((t.die d).mem.reads (o1 i) 4), leNat ((t.die d).mem.reads (o2 i) 4)) =
      momentValue (s.cluster c) k (s.die d).mem o1 o2 i) ∧
    ∀ a, (∀ i, i < k.n[6].toNat → (a < o1 i ∨ o1 i + 4 ≤ a) ∧ (a < o2 i ∨ o2 i + 4 ≤ a)) →
      (t.die d).mem.read a = (s.die d).mem.read a := by
  intro d
  obtain ⟨hne, hn, -⟩ := plainKiln_kilnBegun (rest := rest) hplain
  have hm := momentsReady_kilnBegun (rest := rest) hmo (Nat.pos_of_ne_zero hn)
  have herr := kilnErr_none (plainKiln_kilnBegun (rest := rest) hplain) fun _ => hm.checks
  have hready := kilnReady_of_plain (c := c) (k := k) (by rw [strand_kilnBegun]; exact hrels) fun _ => hm.touch
  obtain ⟨hkq, hsome, hscratch, hstore, hothers, ⟨due, hdue, hev⟩, hvalue, hread⟩ := kilnRan_moments (c := c) (momentsDone_upmo hop hm)
  obtain ⟨hcc, -, ht, hd, -⟩ := kilnBegun_parts s c k rest
  have hdie (e : Nat) : (s.kilnBegun c k rest).die e = s.die e := congrArg (SMap.get Die.reset · e) hd
  have hbytes := sameBytes_kilnBegun s c k rest
  have hmom : k.moments = true := by rw [KCmd.moments, hop]
  rw [cluster_kilnBegun_same] at hkq hvalue
  rw [hdie] at hvalue hread
  rw [hcc, KCmd.bound_of_plain hne hn, hmom, if_pos rfl, ← Nat.add_assoc] at hdue
  refine ⟨_, start_runs hrun hq hbusy hne herr hready, hkq, hsome, fun n a => ?_, fun e a => ?_, fun e he a => ?_,
    ⟨due, hdue, hev⟩, hvalue, hread⟩
  · rw [hscratch]
    exact hbytes.1 n a
  · rw [hstore]
    exact hbytes.2.1 e a
  · rw [hothers e he, hdie]

end
/-! ### Completion (R95, R270) -/

theorem strand_kilnTold (s : State) (c : Nat) (k : KCmd) (n j : Nat) : (s.kilnTold c k).strand n j = s.strand n j :=
  State.onCluster_strand s c (·.kilnTold s.cc k) n j

/-- A command without a counter add completes. -/
theorem completes (hrun : (s.cluster c).krun = some k) (hcnt : k.cnt = false) :
    ∃ t, exec (.kilnCommandComplete c) s = .next t ∧ KilnLeft s t c k ∧ SameBytes s t ∧
      t.cluster c = ((s.cluster c).kilnTold s.cc k).kilnFree ∧
      (k.err = none → (t.strand k.org.tile k.org.strand).faults = (s.strand k.org.tile k.org.strand).faults) ∧
      ∀ e, k.err = some e → ∃ i : TrapInfo,
        (t.strand k.org.tile k.org.strand).faults = (s.strand k.org.tile k.org.strand).faults ++ [(s.cc, i)] ∧
        i.cause = .kiln ∧ i.engine = 7 ∧ i.seq = k.org.seq ∧ i.addr = BitVec.ofNat 64 e.2.2 := by
  have hcc : (s.kilnTold c k).cc = s.cc := rfl
  cases herr : k.err with
  | none =>
    obtain ⟨hleft, hbytes, hcl, -, hfaults⟩ := leave_after (k := k) hcc (by rw [strand_kilnTold]) (by rw [strand_kilnTold])
      (sameBytes_kilnTold s c k) c
    exact ⟨_, complete_plain hrun hcnt herr, hleft, hbytes, by rw [hcl, cluster_kilnTold], fun _ => hfaults, fun e he => by simp at he⟩
  | some e =>
    obtain ⟨hleft, hbytes, hcl, -, hfaults⟩ := leave_fault_after (k := k) hcc (by rw [strand_kilnTold]) (by rw [strand_kilnTold])
      (sameBytes_kilnTold s c k) c e.1 e.2.1 k.skip false e.2.2
    refine ⟨_, complete_fault hrun hcnt herr, hleft, hbytes, by rw [hcl, cluster_kilnTold], fun h => by simp at h, fun e' he => ?_⟩
    obtain rfl := Option.some.inj he
    exact ⟨_, hfaults, rfl, rfl, rfl, rfl⟩

theorem ctrId_toNat (w : DWord) : ctrId w = w.toNat % 2 ^ 24 := BitVec.toNat_setWidth ..

theorem increment_toNat (w : DWord) : ((w.extractLsb' 32 32).setWidth 64).toNat = w.toNat / 2 ^ 32 := by
  have := w.isLt
  rw [BitVec.toNat_setWidth, BitVec.extractLsb'_toNat, Nat.shiftRight_eq_div_pow]
  omega

theorem ctrGet_kilnTold (s : State) (c : Nat) (k : KCmd) (d j : Nat) : (s.kilnTold c k).ctrGet d j = s.ctrGet d j :=
  ctrGet_congr rfl j

/-- A command whose counter takes the add completes. -/
theorem completes_added (hrun : (s.cluster c).krun = some k) (hcnt : k.cnt = true) (herr : k.err = none)
    (hrels : (s.strand k.org.tile k.org.strand).rels = []) {id inc : Nat} (hid : id < 65536) (hctr : ctrId k.n[7] = id)
    (hinc : ((k.n[7].extractLsb' 32 32).setWidth 64).toNat = inc) (hfit : (s.ctrGet (c / 32) id).toNat + inc < 2 ^ 64) :
    ∃ t, exec (.kilnCommandComplete c) s = .next t ∧ KilnLeft s t c k ∧ SameBytes s t ∧
      t.cluster c = ((s.cluster c).kilnTold s.cc k).kilnFree ∧ (∀ j, j ≠ id → t.ctrGet (c / 32) j = s.ctrGet (c / 32) j) ∧
      (t.ctrGet (c / 32) id).toNat = (s.ctrGet (c / 32) id).toNat + inc ∧
      (t.strand k.org.tile k.org.strand).faults = (s.strand k.org.tile k.org.strand).faults := by
  have htold (j : Nat) := ctrGet_kilnTold s c k (c / 32) j
  obtain ⟨u, hsome, hcc, hcl, hout, hf, hbytes, hget⟩ := ctrAdd_spec (s := s.kilnTold c k) (d := c / 32) (id := id)
    (inc := (k.n[7].extractLsb' 32 32).setWidth 64) hid (by rw [htold, hinc]; exact hfit)
  have hexec := complete_add hrun hcnt herr hrels (hctr.symm ▸ hsome)
  obtain ⟨hleft, hb, hcluster, hdies, hfaults⟩ := leave_after (s := s) (k := k) hcc (by rw [hout, strand_kilnTold])
    (by rw [hf, strand_kilnTold]) (sameBytes_trans (sameBytes_kilnTold s c k) hbytes) c
  have hfinal (j : Nat) : (u.kilnLeave c k).ctrGet (c / 32) j = u.ctrGet (c / 32) j :=
    ctrGet_congr (congrArg (SMap.get Die.reset · (c / 32)) hdies) j
  refine ⟨_, hexec, hleft, hb, by rw [hcluster, hcl, cluster_kilnTold], fun j hj => ?_, ?_, hfaults⟩
  · rw [hfinal, hget, if_neg hj, htold]
  · rw [hfinal, hget, if_pos rfl, htold, BitVec.toNat_add, hinc, Nat.mod_eq_of_lt hfit]

/-- A command whose counter does not take the add completes with a fault (R270). -/
theorem completes_refused (hrun : (s.cluster c).krun = some k) (hcnt : k.cnt = true) (herr : k.err = none)
    (hrels : (s.strand k.org.tile k.org.strand).rels = []) {id inc : Nat} (hctr : ctrId k.n[7] = id)
    (hinc : ((k.n[7].extractLsb' 32 32).setWidth 64).toNat = inc) (hover : 2 ^ 64 ≤ (s.ctrGet (c / 32) id).toNat + inc) :
    ∃ t, exec (.kilnCommandComplete c) s = .next t ∧ KilnLeft s t c k ∧ SameBytes s t ∧
      t.cluster c = ((s.cluster c).kilnTold s.cc k).kilnFree ∧ (∀ j, t.ctrGet (c / 32) j = s.ctrGet (c / 32) j) ∧ ∃ i : TrapInfo,
        (t.strand k.org.tile k.org.strand).faults = (s.strand k.org.tile k.org.strand).faults ++ [(s.cc, i)] ∧
        i.cause = .kiln ∧ i.engine = 7 ∧ i.seq = k.org.seq ∧ i.isw = 3 ∧ i.addr = BitVec.ofNat 64 id := by
  have hcc : (s.kilnTold c k).cc = s.cc := rfl
  have hnone : (s.kilnTold c k).ctrAdd (c / 32) (ctrId k.n[7]) ((k.n[7].extractLsb' 32 32).setWidth 64) = none :=
    ctrAdd_none (by rw [ctrGet_kilnTold, hctr, hinc]; exact hover)
  have hexec := complete_add_refused hrun hcnt herr hrels hnone
  rw [hctr] at hexec
  obtain ⟨hleft, hbytes, hcl, hdies, hfaults⟩ := leave_fault_after (k := k) hcc (by rw [strand_kilnTold]) (by rw [strand_kilnTold])
    (sameBytes_kilnTold s c k) c 3 0 0 false id
  exact ⟨_, hexec, hleft, hbytes, by rw [hcl, cluster_kilnTold],
    fun j => (ctrGet_congr (congrArg (SMap.get Die.reset · (c / 32)) hdies) j).trans (ctrGet_kilnTold ..),
    _, hfaults, rfl, rfl, rfl, rfl, rfl⟩

/-- Settles O29: the rounding of quotients and roots (`fpDiv_spec`, `fpSqrt_spec`), the runs of the three commands, and the ways
in which one ends. -/
theorem kilnRuns : Obligations.KilnRuns := by
  unfold Obligations.KilnRuns
  refine ⟨fun a b ha hb => ?numbers, fun c k rest s => ⟨?upcf, fun hrun hq hbusy hplain hslack hrels => ⟨?masters, fun o1 o2 => ?moments⟩,
    ?refused, ?ends, ?adds⟩⟩
  case numbers =>
    obtain ⟨hquot, hzero, hinf⟩ := fpDiv_spec (p := 24) (by decide) ha hb
    obtain ⟨hroot, hneg⟩ := fpSqrt_spec (p := 24) (by decide) ha
    exact ⟨hquot, hzero, hinf, hroot, hneg⟩
  case upcf => exact upcf_runs
  case masters => exact updm_runs hrun hq hbusy hplain hrels hslack
  case moments => exact ⟨updm_moments_run hrun hq hbusy hplain hrels, upmo_runs hrun hq hbusy hplain hrels⟩
  case refused => exact updm_refused
  case ends =>
    intro hrun hcnt
    obtain ⟨t, hexec, hleft, hbytes, hcl, hnone, hsome⟩ := completes hrun hcnt
    exact ⟨t, hexec, hleft, hbytes, by rw [hcl]; rfl, by rw [hcl]; rfl, by rw [hcl]; rfl, hnone, hsome⟩
  case adds =>
    intro hrun hcnt herr hrels _ hid
    rcases Nat.lt_or_ge ((s.ctrGet (c / 32) (k.n[7].toNat % 2 ^ 24)).toNat + k.n[7].toNat / 2 ^ 32) (2 ^ 64) with hfit | hover
    · obtain ⟨t, hexec, hleft, hbytes, hcl, hothers, hsum, hfaults⟩ :=
        completes_added hrun hcnt herr hrels hid (ctrId_toNat _) (increment_toNat _) hfit
      exact ⟨t, hexec, hleft, hbytes, by rw [hcl]; rfl, hothers, fun _ => ⟨hsum, hfaults⟩, fun h => absurd hfit h.not_gt⟩
    · obtain ⟨t, hexec, hleft, hbytes, hcl, hsame, hfault⟩ :=
        completes_refused hrun hcnt herr hrels (ctrId_toNat _) (increment_toNat _) hover
      exact ⟨t, hexec, hleft, hbytes, by rw [hcl]; rfl, fun j _ => hsame j, fun h => absurd h hover.not_gt, fun _ => ⟨hsame _, hfault⟩⟩

end Sys2Proof.Machine
end

section
/-! PROOFS. Translation commands (O42) are refuted: a strand owns the upper half of the table entry that maps the page of its own
word. The shoot-down finds that page in MODE 01, so the word is performed at its old home (log 38), and the entry then reads as a
writable page of MODE 00. The statement asks for what the page translates to behind the arrival, not for what the arrival found. -/
namespace Sys2Proof.Machine

/-- Tables of one entry each at frames 0 to 3 of stack 0 (R99): three pointers, and a writable leaf of MODE 01
that maps page 0 to frame 5. -/
def oneEntryTables : Memory :=
  [(0, 0x8000000000000020), (0x10000, 0x8000000000000040), (0x20000, 0x8000000000000060), (0x30000, 0xA2000000000000A0)].foldl
    (fun m (e : Nat × Nat) => m.writes e.1 (leBytes 8 e.2)) []

/-- Word 1, written under an older entry that maps page 0 to the leaf's own frame, as the upper half of a leaf of MODE 00. -/
def ownedLeafHalf : Owned := ⟨false, 1, 0, 0x30004, 15, 0x82000000⟩

/-- A machine with these tables whose strand 0 of tile 0 owns that word, under the entry that its cluster's TLB still holds. -/
def ownsLeafHalf : State :=
  { State.reset with
    tiles := [(0, { Tile.reset with strands := [(0, { Strand.reset 0 with owned := [ownedLeafHalf] })] })]
    clusters := [(0, { Cluster.reset with tlb := [⟨0, 0, 1, 0, false, 0, 0, 3, 0, false⟩] })]
    dies := [(0, { Die.reset with mem := oneEntryTables })] }

/-- A shoot-down of page 0 of context 0. -/
def shotOfPage0 : TransCmd := ⟨0, true, .package, 0, 0, false, 0, false, 0, 1, 0, ⟨0, 0, 0, 0, 0, 0⟩, false⟩

theorem ownsLeafHalf_owned : (ownsLeafHalf.strand 0 0).owned = [ownedLeafHalf] := rfl

/-- No other strand owns a word. -/
theorem ownsLeafHalf_only {n k : Nat} {w : Owned} (h : w ∈ (ownsLeafHalf.strand n k).owned) : n = 0 ∧ k = 0 := by
  by_contra hne
  have hnone : (ownsLeafHalf.strand n k).owned = [] := by
    by_cases hn : n = 0
    · have hk : 0 ≠ k := fun hk => hne ⟨hn, hk.symm⟩
      subst hn
      simp [ownsLeafHalf, State.strand, State.tile, Tile.strand, SMap.get, hk, Strand.reset]
    · simp [ownsLeafHalf, State.strand, State.tile, Tile.strand, SMap.get, Ne.symm hn, Tile.reset, Strand.reset]
  rw [hnone] at h
  cases h

theorem specCoversWord_ownedLeafHalf : specCoversWord ownsLeafHalf shotOfPage0 0 ownedLeafHalf := by
  unfold specCoversWord
  decide +kernel

/-- The word has been performed at its old home. -/
theorem shootHere_ownsLeafHalf_owned : ((ownsLeafHalf.shootHere 0 shotOfPage0).strand 0 0).owned = [] := by decide +kernel

/-- Behind the arrival its page is writable and of MODE 00, by what the word itself has written. -/
theorem shootHere_ownsLeafHalf_engXlate :
    (ownsLeafHalf.shootHere 0 shotOfPage0).engXlate 0 4 = .ok ⟨0, 0, 1, 0, false, 0, 0, 5, 0, false⟩ := by decide +kernel

/-- Refutes O42: the one covered word of `ownsLeafHalf` is owned no more, though its page behind the arrival is writable and of
MODE 00. -/
theorem not_translationCommands : ¬ Obligations.TranslationCommands := by
  unfold Obligations.TranslationCommands
  rintro ⟨-, -, harrival, -⟩
  obtain ⟨t, ht, -, -, -, -, -, -, -, -, hword⟩ := harrival 0 shotOfPage0 ownsLeafHalf
  obtain rfl : ownsLeafHalf.shootHere 0 shotOfPage0 = t := Host.Outcome.next.inj ht
  have hanew := (hword 0 0 ownedLeafHalf ownsLeafHalf_owned
    ⟨rfl, ownedLeafHalf, List.mem_singleton_self _, specCoversWord_ownedLeafHalf⟩
    fun _ _ ⟨_, _, hw, _⟩ => ownsLeafHalf_only hw).1 _ shootHere_ownsLeafHalf_engXlate rfl rfl
  rw [shootHere_ownsLeafHalf_owned] at hanew
  cases hanew

end Sys2Proof.Machine
end

section
/-! PROOFS. Class D (O24): a command enters its tile's stream queue, and the status. -/
namespace Sys2Proof.Machine

-- One theorem at a time, as above: side by side they ask for more threads than the limit on memory admits.
set_option Elab.async false

variable {s : State}

/-! ### Undefined values of a launch (R4, log 11) -/

theorem sameLaunches_spendOn (s : State) (n : Nat) : SameLaunches s (s.spendOn n) := fun q => by
  unfold State.spendOn State.onLaunch State.launch
  dsimp only
  rw [SMap.find_upd]
  split
  · rw [Option.map_map]
    rfl
  · rfl

/-! ### Entering the queue (R112, R113) -/

/-- The command that a D word sends. -/
def State.streamCmd (s : State) (op : SOp) (k : Cmpl) (shd : Bool) (src dst : DSpace) (desc : List Byte) : SCmd :=
  ⟨s.myTile.sNext, op, k, shd, src, dst, stagingD s.me, desc, s.origin s.me.seqs.stream, s.cc, s.me.relNext,
    (s.cluster s.myCluster).splits, 0, 0, 0, none, 0⟩

/-- A tile whose stream queue has one command more. -/
def Tile.queues (x : Tile) (c : SCmd) : Tile := { x with sq := x.sq ++ [c], sNext := x.sNext + 1 }

theorem myTile_command_eq (s : State) (e : Nat) (b : Bool) : (s.command e b).2.myTile =
    s.myTile.setStrand s.bun.strand { s.me.issued e (s.me.number e) b with seqs := s.me.seqs.bump e } := by
  rw [State.command_snd, State.myTile_onMe]

theorem enqueue_eq (s : State) (op : SOp) (k : Cmpl) (shd : Bool) (src dst : DSpace) (desc : List Byte) :
    s.enqueue op k shd src dst desc = (((s.command 3 false).2.spendOn s.bun.tile).onMyTile
      (·.queues (s.streamCmd op k shd src dst desc))).sched s.cc slotStart (.streamCommandStart s.bun.tile) := by
  have hme : (s.command 3 false).2.me = { s.me.issued 3 s.me.seqs.stream false with seqs := s.me.seqs.bump 3 } := State.command_me ..
  unfold State.enqueue
  dsimp only
  rw [hme, myTile_command_eq]
  rfl

theorem number_bump_stream (x : Strand) {e : Nat} (he : e ≠ 3) : ({ x with seqs := x.seqs.bump 3 } : Strand).number e = x.number e := by
  unfold Strand.number
  split
  case h_2 => exact absurd rfl he
  all_goals rfl

/-- A word that sends a command to the stream engine uses the strand's number, and the command is outstanding. -/
theorem numbers_command_stream (s : State) : Numbers s (s.command 3 false).2 3 false := by
  have hme : (s.command 3 false).2.me = { s.me.issued 3 s.me.seqs.stream false with seqs := s.me.seqs.bump 3 } := State.command_me ..
  refine ⟨by rw [hme]; rfl, by rw [hme]; rfl, fun e he => ?_, by rw [hme]; rfl, fun k hk => ?_⟩
  · rw [hme]
    exact number_bump_stream (s.me.issued 3 s.me.seqs.stream false) he
  · rw [State.command_snd, State.onMe_def, State.strand_onStrand, if_neg fun h => hk h.2]

/-- What is said of the executing strand's numbers rests on the strands of its tile alone. -/
theorem numbers_of_strands {t u : State} {engine : Nat} {entry : Bool} (h : Numbers s t engine entry) (hb : u.bun = t.bun)
    (hs : ∀ k, u.strand t.bun.tile k = t.strand t.bun.tile k) (hbun : t.bun = s.bun) : Numbers s u engine entry := by
  have hme : u.me = t.me := by unfold State.me; rw [hb]; exact hs _
  obtain ⟨hrest, hnext, hothers, hout, hstrands⟩ := h
  rw [hbun] at hs
  exact ⟨hme ▸ hrest, hme ▸ hnext, hme ▸ hothers, hme ▸ hout, fun k hk => (hs k).trans (hstrands k hk)⟩

/-- A D word with room in the queue. -/
theorem enqueue_enters (s : State) (op : SOp) (k : Cmpl) (shd : Bool) (src dst : DSpace) (desc : List Byte) :
    let t := s.enqueue op k shd src dst desc
    OnlyTileOf { s with fresh := t.fresh, launches := t.launches } t s.bun.tile ∧ SameLaunches s t ∧ Numbers s t 3 false ∧
    SameBytes s t ∧ { t.myTile with sq := s.myTile.sq, sNext := s.myTile.sNext, strands := s.myTile.strands } = s.myTile ∧
    (keyOf s.cc slotStart, Event.streamCommandStart s.bun.tile) ∈ t.agenda ∧
    t.myTile.sq = s.myTile.sq ++ [s.streamCmd op k shd src dst desc] := by
  dsimp only
  rw [enqueue_eq]
  generalize s.streamCmd op k shd src dst desc = c
  have hmine : ((((s.command 3 false).2.spendOn s.bun.tile).onMyTile (·.queues c)).sched s.cc slotStart
      (.streamCommandStart s.bun.tile)).myTile = (s.command 3 false).2.myTile.queues c := State.myTile_onMyTile _ (·.queues c)
  rw [myTile_command_eq] at hmine
  refine ⟨⟨rfl, fun m hm => ?_⟩, sameLaunches_spendOn (s.command 3 false).2 s.bun.tile, ?_, ?_, ?_, insertKey_mem .., ?_⟩
  · exact (State.tile_onTile _ _ (·.queues c) m).trans ((if_neg hm).trans (tile_command s 3 false hm))
  · refine numbers_of_strands (numbers_command_stream s) rfl (fun j => ?_) rfl
    exact (State.strand_onTile _ _ (·.queues c) _ j).trans (if_pos rfl)
  · exact sameBytes_trans (sameBytes_command s 3 false) (sameBytes_onTile _ _ (·.queues c) fun _ => rfl)
  · rw [hmine]
    rfl
  · rw [hmine]
    rfl

theorem getElem_stagingD (x : Strand) (i : Fin 8) : (stagingD x)[i] = x.d[i] := by
  change (x.d.extract 0 8)[i.val] = x.d[i.val]
  rw [Vector.getElem_extract]
  exact getElem_congr_idx (Nat.zero_add _)

theorem streamRoom_ok (h : s.myTile.sq.length < 16) : streamRoom s = .ok := need_eq_ok (decide_eq_true h) _

theorem streamRoom_block (h : 16 ≤ s.myTile.sq.length) : streamRoom s = .block .streamQueue :=
  need_eq_else (decide_eq_false (Nat.not_lt.2 h)) _

/-- The class D words by what they send. -/
theorem exec_stream {r : Instr × SOp} {k : Cmpl} {shd : Bool} {src dst : DSpace} {pair : BitVec 3}
    (hr : r ∈ [(Instr.dcpy k shd src dst, SOp.dcpy), (.dunf k shd src dst, .dunf), (.dfil k shd src dst, .dfil),
      (.dgth k shd src dst, .dgth), (.dpubInit k pair, .dpub true pair.toNat), (.dpub k pair, .dpub false pair.toNat)]) :
    ∃ shd src dst, ∃ desc : State → List Byte, ∀ s,
      exec r.1 s = guarded streamRoom (fun s => s.enqueue r.2 k shd src dst (desc s)) s := by
  simp only [List.mem_cons, List.not_mem_nil, or_false] at hr
  rcases hr with rfl | rfl | rfl | rfl | rfl | rfl
  · exact ⟨shd, src, dst, patBytes, fun _ => rfl⟩
  · exact ⟨shd, src, dst, (descBytes · 64), fun _ => rfl⟩
  · exact ⟨shd, src, dst, patBytes, fun _ => rfl⟩
  · exact ⟨shd, src, dst, fun _ => [], fun _ => rfl⟩
  · exact ⟨false, .scratch, .scratch, fun _ => [], fun _ => rfl⟩
  · exact ⟨false, .scratch, .scratch, fun _ => [], fun _ => rfl⟩

/-! ### The status (Table STR-9, R132) -/

theorem streamStatus_fields (x : Tile) : let v := streamStatus x
    v.extractLsb' 32 32 = x.sDone ∧ v.extractLsb' 16 16 = BitVec.ofNat 16 x.sFaults ∧
    v.extractLsb' 8 4 = BitVec.ofNat 4 x.sCause ∧ v.extractLsb' 5 3 = BitVec.ofNat 3 x.sp.length ∧
    v.extractLsb' 0 5 = BitVec.ofNat 5 x.sq.length := by
  have hdone : BitVec.ofNat 32 x.sDone.toNat = x.sDone := by rw [BitVec.ofNat_toNat, BitVec.setWidth_eq]
  unfold streamStatus
  exact ⟨(extract_packLow (lo := 32) 5 rfl rfl (by decide)).trans hdone, extract_packLow 4 rfl rfl (by decide),
    extract_packLow 2 rfl rfl (by decide), extract_packLow 1 rfl rfl (by decide), extract_packLow 0 rfl rfl (by decide)⟩

/-- What DSTA with its clear bit leaves of the tile's fault count and latest cause: those of this cc. -/
def Tile.clearFaults (x : Tile) (cc : Nat) : Tile :=
  if x.sNew.1 = cc then { x with sFaults := x.sNew.2, sCause := if x.sNew.2 = 0 then 0 else x.sCause }
  else { x with sFaults := 0, sCause := 0 }

theorem exec_dsta (clr : Bool) (s : State) : let w := s.write 2 (.stg .stream 0 (streamStatus s.myTile))
    exec (.dsta clr) s = .next (if clr then w.onMyTile (·.clearFaults s.cc) else w) := rfl

theorem onMyTile_congr {f g : Tile → Tile} (s : State) (h : f s.myTile = g s.myTile) : s.onMyTile f = s.onMyTile g :=
  congrArg (s.setTile s.bun.tile) h

/-- Settles O24: with room `enqueue_enters` says what a D word leaves, a full queue blocks, and DSTA posts `streamStatus`. -/
theorem streamCommandWords : Obligations.StreamCommandWords := by
  unfold Obligations.StreamCommandWords
  intro k shd clr src dst pair s
  refine ⟨fun r hr => ?_, ?status⟩
  · obtain ⟨shd, src, dst, desc, hexec⟩ := exec_stream hr
    refine ⟨fun hroom => ?enter, fun hc hfull => (hexec s).trans (guarded_block hc (streamRoom_block hfull))⟩
    obtain ⟨honly, hlaunches, hnum, hbytes, htile, hev, hsq⟩ := enqueue_enters s r.2 k shd src dst (desc s)
    exact ⟨_, s.streamCmd r.2 k shd src dst (desc s), (hexec s).trans (guarded_ok (streamRoom_ok hroom)), honly, hlaunches, hnum,
      hbytes, htile, hev, hsq, rfl, rfl, getElem_stagingD s.me, rfl⟩
  case status =>
    have hposts := posts_write s 2 (.stg .stream 0 (streamStatus s.myTile))
    refine ⟨_, streamStatus s.myTile, exec_dsta clr s, ⟨_, hposts, ?_, ?_⟩, streamStatus_fields _⟩
    · rintro rfl
      rfl
    · rintro rfl hnew
      obtain ⟨⟨⟨-, -, hmine, -⟩, -⟩, -⟩ := hposts
      have hsame := congrArg Tile.sNew hmine
      refine (if_pos rfl).trans (onMyTile_congr _ (if_neg ?_))
      exact hsame ▸ hnew

end Sys2Proof.Machine
end

section
/-! SUPPORT. How a command leaves the stream engine (R112, R119, R122): beside the engine's lists, its strand's outstanding commands
and faults, steps are set and cores look again. -/
namespace Sys2Proof.Machine

-- One theorem at a time, as above: side by side they ask for more threads than the limit on memory admits.
set_option Elab.async false

variable {s t u : State} {n : Nat} {c : SCmd}

/-! ### What cores that look again leave of the tiles -/

/-- Tile y has the bytes, the shadow pairs and the stream commands of tile x. -/
structure SameWork (x y : Tile) : Prop where
  scratch : y.scratch = x.scratch
  pairs : y.pairs = x.pairs
  sq : y.sq = x.sq
  sp : y.sp = x.sp
  sDone : y.sDone = x.sDone

/-- Every tile of t has the bytes, the shadow pairs and the stream commands that it has in s. -/
structure SameWorks (s t : State) : Prop where
  tile : ∀ n, SameWork (s.tile n) (t.tile n)

theorem SameWork.refl (x : Tile) : SameWork x x := ⟨rfl, rfl, rfl, rfl, rfl⟩

theorem SameWork.trans {x y z : Tile} (h : SameWork x y) (g : SameWork y z) : SameWork x z :=
  ⟨g.scratch.trans h.scratch, g.pairs.trans h.pairs, g.sq.trans h.sq, g.sp.trans h.sp, g.sDone.trans h.sDone⟩

theorem SameWorks.refl (s : State) : SameWorks s s := ⟨fun _ => .refl _⟩

theorem SameWorks.trans (h : SameWorks s t) (g : SameWorks t u) : SameWorks s u := ⟨fun n => (h.tile n).trans (g.tile n)⟩

theorem sameWorks_onTile {f : Tile → Tile} (s : State) (n : Nat) (h : ∀ x, SameWork x (f x)) : SameWorks s (s.onTile n f) where
  tile m := by
    rw [State.tile_onTile]
    split
    · next hm => subst hm; exact h _
    · exact .refl _

theorem sameWorks_onStrand (s : State) (n k : Nat) (f : Strand → Strand) : SameWorks s (s.onStrand n k f) :=
  sameWorks_onTile (f := (·.setStrand k (f (s.strand n k)))) s n fun _ => ⟨rfl, rfl, rfl, rfl, rfl⟩

theorem sameWorks_stir (s : State) (n : Nat) : SameWorks s (s.stir n) := by
  have hact (a : Nat) : SameWorks s (s.onTile n fun x => { x with act := some a }) :=
    sameWorks_onTile s n fun _ => ⟨rfl, rfl, rfl, rfl, rfl⟩
  unfold State.stir
  extract_lets now
  split
  · exact hact now
  · split
    · exact .refl s
    · exact hact now
  · exact .refl s

theorem slack_stir (s : State) (n : Nat) : (s.stir n).slack = s.slack := by
  unfold State.stir
  extract_lets now
  split
  · rfl
  · split <;> rfl
  · rfl

theorem sameWorks_checkUnit (s : State) (n : Nat) : SameWorks s (s.checkUnit n) := by
  unfold State.checkUnit
  extract_lets x
  split
  · exact ⟨fun _ => .refl _⟩
  · exact .refl s

theorem sameWorks_finish (s : State) (o : Origin) (engine seq : Nat) : SameWorks s (s.finish o engine seq) := by
  unfold State.finish
  extract_lets filtered idle x woken
  have hidle : SameWorks s idle :=
    (sameWorks_onStrand s ..).trans (sameWorks_onTile filtered o.tile fun _ => ⟨rfl, rfl, rfl, rfl, rfl⟩)
  have hwoken : SameWorks idle woken := by
    unfold woken
    split
    · split
      · exact .refl _
      · exact ⟨fun _ => .refl _⟩
    · split
      · exact .refl _
      · exact sameWorks_stir ..
  exact (hidle.trans hwoken).trans (sameWorks_checkUnit ..)

theorem sameWorks_fault (s : State) (o : Origin) (a : Cause) (e : Nat) (isw : Word) (addr : DWord) :
    SameWorks s (s.fault o a e isw addr) := by
  unfold State.fault State.addFault
  extract_lets faulty
  have hfaulty : SameWorks s faulty := sameWorks_onStrand s ..
  split
  · exact hfaulty.trans (sameWorks_stir ..)
  · exact ⟨hfaulty.tile⟩

/-! ### A command leaves -/

/-- A command has left the stream engine (`StreamLeft`), and gave its strand the faults `new`; no byte, no shadow pair and no queue
of its tile has changed. -/
structure StreamLeaves (s t : State) (n : Nat) (c : SCmd) (done : Bool) (new : List (Nat × TrapInfo)) : Prop where
  left : StreamLeft s t n c done
  faults : (t.strand c.org.tile c.org.strand).faults = (s.strand c.org.tile c.org.strand).faults ++ new
  clusters : t.clusters = s.clusters
  dies : t.dies = s.dies
  scratch : ∀ m, (t.tile m).scratch = (s.tile m).scratch
  pairs : (t.tile n).pairs = (s.tile n).pairs
  sq : (t.tile n).sq = (s.tile n).sq

theorem StreamLeaves.sameBytes {done : Bool} {new : List (Nat × TrapInfo)} (h : StreamLeaves s t n c done new) : SameBytes s t :=
  ⟨fun m a => by rw [h.scratch], fun m a => by unfold State.cluster; rw [h.clusters], fun m a => by unfold State.die; rw [h.dies]⟩

/-- A tile whose command c is in progress no more. -/
def Tile.drops (x : Tile) (c : SCmd) : Tile := { x with sp := x.sp.filter (·.id != c.id) }

theorem leaves_streamLeave (s : State) (n : Nat) (c : SCmd) : StreamLeaves s (s.streamLeave n c) n c false [] := by
  have hrest : Stirs ((s.onTile n (·.drops c)).without c.org 3 c.org.seq) (s.streamLeave n c) :=
    (stirs_finish ..).trans (stirs_sched ..)
  have hwork : SameWorks (s.onTile n (·.drops c)) (s.streamLeave n c) :=
    ⟨(sameWorks_finish _ c.org 3 c.org.seq).tile⟩
  have hdrops : Stirs s (s.onTile n (·.drops c)) := stirs_onTile s n (fun _ => rfl) fun _ => rfl
  have hmine := (hrest.strand c.org.tile c.org.strand).trans (State.strand_onStrand_same ..)
  rw [hdrops.strand] at hmine
  have htile : (s.onTile n (·.drops c)).tile n = (s.tile n).drops c := State.tile_onTile_same ..
  have hn := hwork.tile n
  rw [htile] at hn
  refine ⟨⟨hn.sp, hn.sDone, by rw [hmine]⟩, by rw [hmine, List.append_nil], hrest.clusters, hrest.dies,
    fun m => (hwork.tile m).scratch.trans (hdrops.scratch m), hn.pairs, hn.sq⟩

/-- What a command whose tile has the same strands, bytes and stream commands leaves, it leaves here. -/
theorem StreamLeaves.of_same {new new' : List (Nat × TrapInfo)} (h : StreamLeaves u t n c false new) {done : Bool} (hcl : u.clusters = s.clusters)
    (hdies : u.dies = s.dies) (hscratch : ∀ m, (u.tile m).scratch = (s.tile m).scratch) (hpairs : (u.tile n).pairs = (s.tile n).pairs)
    (hsq : (u.tile n).sq = (s.tile n).sq) (hsp : (u.tile n).sp = (s.tile n).sp)
    (hdone : (u.tile n).sDone = if done then (s.tile n).sDone + 1 else (s.tile n).sDone)
    (hout : (u.strand c.org.tile c.org.strand).outst = (s.strand c.org.tile c.org.strand).outst)
    (hfaults : (u.strand c.org.tile c.org.strand).faults ++ new = (s.strand c.org.tile c.org.strand).faults ++ new') :
    StreamLeaves s t n c done new' := by
  obtain ⟨hsp', hdone', hout'⟩ := h.left
  rw [hsp] at hsp'
  rw [hout] at hout'
  exact ⟨⟨hsp', hdone'.trans hdone, hout'⟩, h.faults.trans hfaults, h.clusters.trans hcl, h.dies.trans hdies,
    fun m => (h.scratch m).trans (hscratch m), h.pairs.trans hpairs, h.sq.trans hsq⟩

/-- The trap information of a stream command. -/
def SCmd.info (c : SCmd) (e : ElemErr) (k : Nat) (refused : Bool) : TrapInfo :=
  infoOf c.org .stream 3 (BitVec.ofNat 32 (packLow [(4, e.1), (4, e.2.1), (16, min k 0xFFFF), (1, refused.toNat)]))
    (BitVec.ofNat 64 e.2.2)

/-- A tile whose stream engine counts one faulting command more (Table STR-9). -/
def Tile.toldFault (x : Tile) (cc cause : Nat) : Tile :=
  { x with sFaults := min (x.sFaults + 1) 0xFFFF, sCause := cause, sNew := (cc, if x.sNew.1 = cc then x.sNew.2 + 1 else 1) }

theorem leaves_streamFault (s : State) (n : Nat) (c : SCmd) (e : ElemErr) (k : Nat) (refused : Bool) :
    StreamLeaves s ((s.streamFault n c e k refused).streamLeave n c) n c false [(s.cc, c.info e k refused)] := by
  have hrest : Stirs ((s.onTile n (·.toldFault s.cc e.1)).withFault c.org (c.info e k refused)) (s.streamFault n c e k refused) :=
    stirs_fault ..
  have hwork : SameWorks s (s.streamFault n c e k refused) :=
    (sameWorks_onTile (f := (·.toldFault s.cc e.1)) s n fun _ => ⟨rfl, rfl, rfl, rfl, rfl⟩).trans (sameWorks_fault (s.onTile n (·.toldFault s.cc e.1)) ..)
  have hmine := (hrest.strand c.org.tile c.org.strand).trans (State.strand_onStrand_same ..)
  have htold : Stirs s (s.onTile n (·.toldFault s.cc e.1)) := stirs_onTile s n (fun _ => rfl) fun _ => rfl
  rw [htold.strand] at hmine
  have hn := hwork.tile n
  refine (leaves_streamLeave (s.streamFault n c e k refused) n c).of_same hrest.clusters hrest.dies (fun m => (hwork.tile m).scratch) hn.pairs
    hn.sq hn.sp hn.sDone ?_ ?_
  · rw [hmine]
  · rw [hmine, List.append_nil]
    rfl

theorem leaves_streamDone (s : State) (n : Nat) (hcmpl : c.cmpl = .none) : StreamLeaves s (s.streamDone n c none 0) n c true [] := by
  have hadd : s.completionAdd n c = (s, true) := if_pos (by rw [hcmpl]; decide)
  unfold State.streamDone
  rw [hadd]
  dsimp only
  have htold : Stirs s (s.onTile n fun x => { x with sDone := x.sDone + 1 }) := stirs_onTile s n (fun _ => rfl) fun _ => rfl
  have hn : (s.onTile n fun x => { x with sDone := x.sDone + 1 }).tile n = { s.tile n with sDone := (s.tile n).sDone + 1 } :=
    State.tile_onTile_same ..
  exact (leaves_streamLeave _ n c).of_same rfl rfl htold.scratch (by rw [hn]) (by rw [hn]) (by rw [hn]) (by rw [hn]; rfl)
    (by rw [htold.strand]) (by rw [htold.strand])

/-- Outside a counter add and a publish, a completion waits for no release. -/
theorem not_streamGated (s : State) (hrels : (s.strand c.org.tile c.org.strand).rels = []) : s.streamGated c = false := by
  unfold State.streamGated Strand.gated
  rw [hrels]
  exact Bool.and_false _

end Sys2Proof.Machine
end

section
/-! PROOFS. Stream commands start (O25): when the head may start, its start faults, and its bound. -/
namespace Sys2Proof.Machine

-- One theorem at a time, as above: side by side they ask for more threads than the limit on memory admits.
set_option Elab.async false

variable {s : State} {n : Nat} {c : SCmd} {rest : List SCmd}

/-! ### When the head of a queue starts (R112) -/

theorem mayStart_behind (h : ∃ p ∈ (s.tile n).sp, p.id + 4 ≤ c.id) : s.mayStart n c = false := by
  obtain ⟨p, hp, hle⟩ := h
  have hall : (s.tile n).sp.all (fun p => decide (c.id < p.id + 4)) = false :=
    List.all_eq_false.2 ⟨p, hp, by simpa using hle⟩
  unfold State.mayStart
  dsimp only
  rw [hall]
  rfl

theorem mayStart_ok (h : ∀ p ∈ (s.tile n).sp, c.id < p.id + 4 ∧ p.op.isDpub = false) (hop : c.op.isDpub = false)
    (hsrc : c.src ≠ .store) (hdst : c.dst ≠ .store) : s.mayStart n c = true := by
  have hall : (s.tile n).sp.all (fun p => decide (c.id < p.id + 4)) = true :=
    List.all_eq_true.2 fun p hp => decide_eq_true (h p hp).1
  have hany : (s.tile n).sp.any (·.op.isDpub) = false := List.any_eq_false.2 fun p hp => by simp [(h p hp).2]
  unfold State.mayStart
  simp [hall, hany, hop, hsrc, hdst]

/-- The state in which the head of tile n's stream queue has left it, and `rest` remain. -/
def State.streamTaken (s : State) (n : Nat) (rest : List SCmd) : State := (s.onTile n fun x => { x with sq := rest }).stir n

theorem streamTaken_def (s : State) (n : Nat) (rest : List SCmd) :
    (s.onTile n fun x => { x with sq := rest }).stir n = s.streamTaken n rest := rfl

theorem streamTaken_spec (s : State) (n : Nat) (rest : List SCmd) : let u := s.streamTaken n rest
    Stirs s u ∧ u.slack = s.slack ∧ (u.tile n).sq = rest ∧ (u.tile n).sp = (s.tile n).sp ∧ (u.tile n).sDone = (s.tile n).sDone := by
  have hwork := (sameWorks_stir (s.onTile n fun x => { x with sq := rest }) n).tile n
  rw [State.tile_onTile_same] at hwork
  have htaken : Stirs s (s.onTile n fun x => { x with sq := rest }) := stirs_onTile s n (fun _ => rfl) fun _ => rfl
  exact ⟨htaken.trans (stirs_stir ..), slack_stir .., hwork.sq, hwork.sp, hwork.sDone⟩

/-! ### Linear commands of the own scratchpad (R117, R126, R129) -/

/-- A DCPY of the own scratchpad or a DFIL, of one range of bytes, that gives no signal. -/
structure SCmd.Linear (c : SCmd) : Prop where
  kind : c.op = .dfil ∧ c.src = .global ∨ c.op = .dcpy ∧ c.src = .scratch
  dst : c.dst = .scratch
  shd : c.shd = false
  cmpl : c.cmpl = .none
  desc : c.d[2] = 0

/-- A command other than a DUNF in progress from a cc on. -/
def SCmd.begins (c : SCmd) (cc : Nat) : SCmd := { c with start := cc, c0 := 0 }

theorem SCmd.Linear.begins (h : c.Linear) (cc : Nat) : (c.begins cc).Linear := ⟨h.kind, h.dst, h.shd, h.cmpl, h.desc⟩

theorem SCmd.Linear.begun (h : c.Linear) (s : State) (n : Nat) : s.begun n c = c.begins s.cc := by
  have hop : c.op ≠ .dunf := by rcases h.kind with h | h <;> rw [h.1] <;> decide
  unfold State.begun
  rw [if_neg hop]
  rfl

theorem SCmd.Linear.isDpub (h : c.Linear) : c.op.isDpub = false := by rcases h.kind with h | h <;> rw [h.1] <;> rfl

theorem SCmd.Linear.src (h : c.Linear) : c.src ≠ .store := by rcases h.kind with h | h <;> rw [h.2] <;> decide

theorem SCmd.Linear.remote (h : c.Linear) : c.remote = false := by
  unfold SCmd.remote
  rw [h.dst]
  rcases h.kind with h | h <;> rw [h.2] <;> rfl

/-- The elements of a linear command: its bytes in blocks of 128 (R117). -/
theorem elems_linear (hop : c.op = .dfil ∨ c.op = .dcpy) (hdesc : c.d[2] = 0) (s : State) (n : Nat) : s.elems n c =
    (List.range ((c.d[3].toNat + 127) / 128)).map fun (i : Nat) => (mod64 (c.d[0].toNat + i * 128), mod64 (c.d[1].toNat + i * 128),
      min 128 (c.d[3].toNat - 128 * i)) := by
  have hpat : c.pattern = some ⟨128, [((c.d[3].toNat + 127) / 128, 128, 128)], true⟩ := if_pos hdesc
  have helems : s.elems n c = c.patElems ⟨128, [((c.d[3].toNat + 127) / 128, 128, 128)], true⟩ := by
    unfold State.elems
    rw [hpat]
    rcases hop with h | h <;> rw [h]
  rw [helems]
  unfold SCmd.patElems
  simp only [offsets, List.flatMap_cons, List.flatMap_nil, List.append_nil, List.map_map]
  refine List.map_congr_left fun i _ => ?_
  simp [Function.comp]
  omega

/-! ### Start faults (R122) -/

/-- The lowest byte outside the scratchpad of n bytes from an address. -/
def outsideOf (n : Nat) (x : DWord) : Option Nat := if 0x200000 < x.toNat + n then some (max x.toNat 0x200000) else none

/-- The lowest bytes outside the scratchpad of a linear command's ranges. -/
def SCmd.outside (c : SCmd) : List Nat := ((if c.op = .dcpy then [c.d[0]] else []) ++ [c.d[1]]).filterMap (outsideOf c.d[3].toNat)

theorem rangeErr_scratch (x : DWord) (n : Nat) : rangeErr 3 scratchSize (some (x.toNat, (x.toNat : Int) + n)) =
    ([x].filterMap (outsideOf n)).map fun a => (3, a) := by
  have hlo : ¬(x.toNat : Int) < 0 := by omega
  unfold rangeErr outsideOf scratchSize
  by_cases h : 0x200000 < x.toNat + n
  · have hint : (0x200000 : Int) < x.toNat + n := by omega
    simp [h, hlo, hint]
  · have hint : ¬(0x200000 : Int) < x.toNat + n := by omega
    simp [h, hlo, hint]

theorem startErrs_linear (h : c.Linear) (hn : c.d[3] ≠ 0) (s : State) (n : Nat) : s.startErrs n c = c.outside.map fun a => (3, a) := by
  have hpat : c.pattern = some ⟨128, [((c.d[3].toNat + 127) / 128, 128, 128)], true⟩ := if_pos h.desc
  have hn' : c.d[3].toNat ≠ 0 := fun h => hn (BitVec.eq_of_toNat_eq h)
  have hext (b : Nat) (step : Dim → Int) : extentOf b ⟨128, [((c.d[3].toNat + 127) / 128, 128, 128)], true⟩ c.d[3].toNat step =
      some ((b : Int), (b : Int) + c.d[3].toNat) := by
    unfold extentOf
    rw [if_pos rfl, if_neg hn']
  have hop : s.opErrs n c = c.outside.map fun a => (3, a) := by
    unfold State.opErrs SCmd.outside
    rw [List.filterMap_append, List.map_append, ← rangeErr_scratch]
    rcases h.kind with ⟨hop, hsrc⟩ | ⟨hop, hsrc⟩
    · simp [hop, hpat, hext, h.dst, State.spaceErr]
    · simp [hop, hsrc, hpat, hext, h.dst, State.spaceErr, ← rangeErr_scratch]
  unfold State.startErrs
  simp [hop, h.remote, h.cmpl, h.shd]

/-- Of start faults of one code the lowest address counts. -/
theorem lowestErr_same_code (k : Nat) (l : List Nat) : lowestErr (l.map fun a => (k, a)) = l.min?.map fun a => (k, a) := by
  have hfold (x : Nat) (l : List Nat) : (l.map fun a => (k, a)).foldl (fun o e => match o with
      | none => some e
      | some f => if e.1 < f.1 ∨ (e.1 = f.1 ∧ e.2 < f.2) then some e else some f) (some (k, x)) = some (k, l.foldl min x) := by
    induction l generalizing x with
    | nil => rfl
    | cons y l ih =>
      rw [List.map_cons, List.foldl_cons, List.foldl_cons, ← ih]
      congr 1
      by_cases hxy : y < x
      · simp [hxy, Nat.min_eq_right hxy.le]
      · simp [hxy, Nat.min_eq_left (Nat.not_lt.1 hxy)]
  cases l with
  | nil => rfl
  | cons x l => exact hfold x l

/-! ### The bound (Table STR-1) -/

theorem streamBound_linear (h : c.Linear) (s : State) (n : Nat) : s.streamBound n c = 16 + (c.d[3].toNat + 127) / 128 := by
  have hop : c.op = .dfil ∨ c.op = .dcpy := h.kind.imp (·.1) (·.1)
  have hbase : s.baseBound n c = 16 := by
    unfold State.baseBound
    simp [h.src, h.dst, h.remote]
  have hpages : ¬(c.src = .global ∧ c.op ≠ .dfil) := by
    rcases h.kind with ⟨hop, hsrc⟩ | ⟨hop, hsrc⟩
    · simp [hop]
    · simp [hsrc]
  have hglobal : c.dst ≠ .global := by rw [h.dst]; decide
  have hblock (k : Nat) : ∀ i ∈ List.range ((k + 127) / 128), (min 128 (k - 128 * i) + 127) / 128 = 1 := fun i hi => by
    have := List.mem_range.1 hi
    omega
  unfold State.streamBound
  simp only [hbase, if_neg hpages, if_neg hglobal, Nat.max_zero, List.foldl_fixed, elems_linear hop h.desc, List.map_map,
    Function.comp_def]
  rw [List.map_congr_left (hblock _)]
  simp [← List.sum_eq_foldl]

theorem streamFirst_linear (h : c.Linear) (hn : c.d[3] ≠ 0) (s : State) (n : Nat) : s.streamFirst n c =
    s.soon (16 + (c.d[3].toNat + 127) / 128) (slotStream n) (.streamCommandComplete n c.id) := by
  rw [← streamBound_linear h s n]
  unfold State.streamFirst
  rcases h.kind with ⟨hop, -⟩ | ⟨hop, -⟩
  · simp only [hop, if_neg hn]
  · simp only [hop, if_neg hn]

/-! ### The two ways of a start -/

/-- A command is in progress, and the engine looks at its queue again. -/
def State.streamBegun (s : State) (n : Nat) (q : SCmd) : State :=
  (s.sched s.cc slotBegin (.streamCommandStart n)).onTile n fun x => { x with sp := x.sp ++ [q] }

theorem streamBegun_tile (s : State) (n : Nat) (q : SCmd) :
    ((s.streamBegun n q).tile n).sq = (s.tile n).sq ∧ ((s.streamBegun n q).tile n).sp = (s.tile n).sp ++ [q] := by
  unfold State.streamBegun
  rw [State.tile_onTile_same]
  exact ⟨rfl, rfl⟩

theorem sameBytes_streamBegun (s : State) (n : Nat) (q : SCmd) : SameBytes s (s.streamBegun n q) :=
  sameBytes_onTile (s.sched s.cc slotBegin (.streamCommandStart n)) n (fun x => { x with sp := x.sp ++ [q] }) fun _ => rfl

/-- A linear command of the head starts, or is abandoned with the lowest byte outside. -/
theorem exec_start_linear (hq : (s.tile n).sq = c :: rest) (hmay : s.mayStart n c = true) (h : c.Linear) (hn : c.d[3] ≠ 0) :
    let u := s.streamTaken n rest
    let q := c.begins u.cc
    exec (.streamCommandStart n) s = .next (match c.outside.min? with
      | some a => (u.streamFault n q (3, 0, a) 0 false).streamLeave n q
      | none => (u.streamBegun n q).soon (16 + (c.d[3].toNat + 127) / 128) (slotStream n) (.streamCommandComplete n c.id)) := by
  intro u q
  have hbegun : u.begun n c = q := h.begun u n
  have hlinear : q.Linear := h.begins u.cc
  have herr : lowestErr (u.startErrs n q) = c.outside.min?.map fun a => (3, a) := by
    rw [startErrs_linear hlinear hn u n, lowestErr_same_code]
    rfl
  have hfirst : (u.streamBegun n q).streamFirst n q = _ := streamFirst_linear hlinear hn _ n
  unfold exec execStreamCommandStart
  simp only [hq, hmay, Bool.not_true, Bool.false_eq_true, if_false, streamTaken_def, hlinear.remote, u, hbegun, herr]
  cases c.outside.min? with
  | some a => rfl
  | none => exact congrArg Host.Outcome.next hfirst

theorem exec_start_behind (hq : (s.tile n).sq = c :: rest) (hmay : s.mayStart n c = false) : exec (.streamCommandStart n) s = .next s := by
  unfold exec execStreamCommandStart
  simp only [hq, hmay, Bool.not_false, if_true]

/-- A command of which no byte lies outside begins (R114). -/
theorem linear_begins (hq : (s.tile n).sq = c :: rest) (hmay : s.mayStart n c = true) (h : c.Linear) (hn : c.d[3] ≠ 0)
    (hslack : s.slack = []) (hin : c.outside = []) :
    ∃ t q, exec (.streamCommandStart n) s = .next t ∧ (t.tile n).sq = rest ∧ (t.tile n).sp = (s.tile n).sp ++ [q] ∧
      q = { c with start := s.cc, c0 := 0 } ∧ SameBytes s t ∧ (keyOf s.cc slotBegin, Event.streamCommandStart n) ∈ t.agenda ∧
      (keyOf (s.cc + 16 + (c.d[3].toNat + 127) / 128) (slotStream n), Event.streamCommandComplete n c.id) ∈ t.agenda := by
  have hexec := exec_start_linear hq hmay h hn
  rw [hin] at hexec
  obtain ⟨hstirs, hslack', hsq, hsp, -⟩ := streamTaken_spec s n rest
  generalize s.streamTaken n rest = u at *
  obtain ⟨hsq', hsp'⟩ := streamBegun_tile u n (c.begins u.cc)
  refine ⟨(u.streamBegun n (c.begins u.cc)).soon (16 + (c.d[3].toNat + 127) / 128) (slotStream n) (.streamCommandComplete n c.id),
    c.begins u.cc, hexec, by rw [State.soon_tile, hsq', hsq], by rw [State.soon_tile, hsp', hsp], by rw [hstirs.cc]; rfl, ?_, ?_, ?_⟩
  · exact sameBytes_soon (sameBytes_trans hstirs.sameBytes (sameBytes_streamBegun ..)) ..
  · rw [← hstirs.cc]
    exact mem_insertKey.2 (.inr (insertKey_mem ..))
  · rw [Nat.add_assoc, ← hstirs.cc, ← dueCc_of_slack_nil (hslack'.trans hslack)]
    exact insertKey_mem ..

/-- A command of which a byte lies outside is abandoned (R122). -/
theorem linear_abandoned (hq : (s.tile n).sq = c :: rest) (hmay : s.mayStart n c = true) (h : c.Linear) (hn : c.d[3] ≠ 0)
    {a : Nat} (hout : c.outside.min? = some a) :
    ∃ t i, exec (.streamCommandStart n) s = .next t ∧ (t.tile n).sq = rest ∧ StreamLeft s t n c false ∧ SameBytes s t ∧
      (t.strand c.org.tile c.org.strand).faults = (s.strand c.org.tile c.org.strand).faults ++ [(s.cc, i)] ∧
      i.cause = .stream ∧ i.engine = 3 ∧ i.seq = c.org.seq ∧ i.isw = 3 ∧ i.addr = BitVec.ofNat 64 a := by
  have hexec := exec_start_linear hq hmay h hn
  rw [hout] at hexec
  obtain ⟨hstirs, -, hsq, hsp, hdone⟩ := streamTaken_spec s n rest
  generalize s.streamTaken n rest = u at *
  have hleaves := leaves_streamFault u n (c.begins u.cc) (3, 0, a) 0 false
  obtain ⟨hsp', hdone', hout'⟩ := hleaves.left
  have hfaults := hleaves.faults
  have hstrand := hstirs.strand c.org.tile c.org.strand
  refine ⟨_, c.info (3, 0, a) 0 false, hexec, hleaves.sq.trans hsq, ⟨?_, ?_, ?_⟩,
    sameBytes_trans hstirs.sameBytes hleaves.sameBytes, ?_, rfl, rfl, rfl, rfl, rfl⟩
  · rw [← hsp]
    exact hsp'
  · exact hdone'.trans hdone
  · rw [← hstrand]
    exact hout'
  · rw [← hstrand, ← hstirs.cc]
    exact hfaults

theorem SCmd.Linear.outside_of_fits (hdst : c.d[1].toNat + c.d[3].toNat ≤ 0x200000)
    (hsrc : c.op = .dcpy → c.d[0].toNat + c.d[3].toNat ≤ 0x200000) : c.outside = [] := by
  have hin {x : DWord} (h : x.toNat + c.d[3].toNat ≤ 0x200000) : outsideOf c.d[3].toNat x = none := if_neg (Nat.not_lt.2 h)
  unfold SCmd.outside
  split
  · next hop => simp [hin hdst, hin (hsrc hop)]
  · simp [hin hdst]

/-- Settles O25: `mayStart_behind` and `mayStart_ok` say when the head starts, and `exec_start_linear` what its start does. -/
theorem streamStarts : Obligations.StreamStarts := by
  unfold Obligations.StreamStarts
  refine fun n c rest s hq => ⟨fun hbehind => exec_start_behind hq (mayStart_behind hbehind), fun hsp hslack hn => ⟨?begins, ?abandoned⟩⟩
  case begins =>
    rintro ⟨hdst, hshd, hcmpl, hdesc, hfits, hkind⟩ hfill
    have h : c.Linear := ⟨hkind.imp (fun hop => ⟨hop, hfill hop⟩) fun hcopy => ⟨hcopy.1, hcopy.2.1⟩, hdst, hshd, hcmpl, hdesc⟩
    refine linear_begins hq (mayStart_ok hsp h.isDpub h.src (by rw [hdst]; decide)) h hn hslack (SCmd.Linear.outside_of_fits hfits fun hop => ?_)
    rcases hkind with hfil | ⟨-, -, hsrc⟩
    · rw [hfil] at hop; cases hop
    · exact hsrc
  case abandoned =>
    intro a hkind hdst hshd hcmpl hdesc hmin
    have h : c.Linear := ⟨hkind, hdst, hshd, hcmpl, hdesc⟩
    exact linear_abandoned hq (mayStart_ok hsp h.isDpub h.src (by rw [hdst]; decide)) h hn hmin

end Sys2Proof.Machine
end

section
/-! SUPPORT. The scratchpad of a tile without shadow pairs and pending bytes, as engines reach it; bytes that a write leaves to read. -/
namespace Sys2Proof

-- One theorem at a time, as above: side by side they ask for more threads than the limit on memory admits.
set_option Elab.async false

theorem Memory.reads_add {m : Memory} (h : m.wf = true) (a n k : Nat) : m.reads a (n + k) = m.reads a n ++ m.reads (a + n) k := by
  simp only [Memory.reads_eq_map h, List.range_add, List.map_append, List.map_map, Function.comp_def, Nat.add_assoc]

/-- Two runs of bytes written as one read back. -/
theorem Memory.reads_writes_append {m : Memory} (h : m.wf = true) (a : Nat) (bs cs : List Byte) :
    (m.writes a (bs ++ cs)).reads a bs.length = bs ∧ (m.writes a (bs ++ cs)).reads (a + bs.length) cs.length = cs := by
  have hall := Memory.reads_writes_same h a (bs ++ cs)
  rw [List.length_append, Memory.reads_add (Memory.writes_wf m a _ h)] at hall
  exact List.append_inj hall (Memory.reads_length ..)

theorem SMap.find_del {α : Type} (m : SMap α) (k j : Nat) : SMap.find (m.del k) j = if j = k then none else SMap.find m j := by
  unfold SMap.del
  induction m with
  | nil => exact (ite_self _).symm
  | cons e m ih =>
    obtain ⟨i, x⟩ := e
    by_cases hi : i = k
    · rw [List.filter_cons_of_neg (by simp [hi]), ih]
      by_cases hj : j = k
      · rw [if_pos hj, if_pos hj]
      · rw [if_neg hj, if_neg hj, SMap.find, if_neg fun (h : i = j) => hj (h ▸ hi)]
    · rw [List.filter_cons_of_pos (by simp [hi]), SMap.find, SMap.find, ih]
      by_cases hj : i = j
      · rw [if_pos hj, if_pos hj, if_neg fun h => hi (hj.trans h)]
      · rw [if_neg hj, if_neg hj]

namespace Machine

variable {s : State} {n : Nat} {x : Tile}

theorem readBytes_plain (h : x.pairs = []) (a k : Nat) : x.readBytes a k = x.scratch.reads a k := by
  unfold Tile.readBytes
  rw [h]
  rfl

theorem readNat_plain (h : x.pairs = []) (a k : Nat) : x.readNat a k = leNat (x.scratch.reads a k) :=
  congrArg leNat (readBytes_plain h a k)

/-- A tile with another scratchpad. -/
def Tile.withScratch (x : Tile) (m : Memory) : Tile := { x with scratch := m }

@[simp] theorem Tile.withScratch_scratch (x : Tile) (m : Memory) : (x.withScratch m).scratch = m := rfl
@[simp] theorem Tile.withScratch_pairs (x : Tile) (m : Memory) : (x.withScratch m).pairs = x.pairs := rfl

theorem writeBytes_plain (h : x.pairs = []) (a : Nat) (bs : List Byte) :
    x.writeBytes a bs = x.withScratch (x.scratch.writes a bs) :=
  congrArg x.withScratch (if_pos (List.isEmpty_iff.2 h))

end Machine
end Sys2Proof
end

section
/-! PROOFS. Arrival words and shadow pairs (O27): what an arrival counts and whom it wakes, and what DPUB changes. -/
namespace Sys2Proof.Machine

-- One theorem at a time, as above: side by side they ask for more threads than the limit on memory admits.
set_option Elab.async false

variable {s : State} {n id k : Nat} {c : SCmd}

/-! ### Arrival words (R120) -/

theorem arriveWord_eq {target count gen b : Nat} (hgen : gen < 2 ^ 32) : let r := arriveWord target count gen b
    let sum := (count + b) % 2 ^ 32
    r.1 = (if target = 0 then sum else sum % target) ∧ r.2 = (if target = 0 then gen else (gen + sum / target) % 2 ^ 32) ∧
    r.1 < 2 ^ 32 ∧ r.2 < 2 ^ 32 := by
  have hsum : (count + b) % 2 ^ 32 < 2 ^ 32 := Nat.mod_lt _ (by decide)
  unfold arriveWord
  dsimp only
  by_cases h : target = 0
  · rw [if_pos h, if_pos h, if_pos h]
    exact ⟨rfl, rfl, hsum, hgen⟩
  · rw [if_neg h, if_neg h, if_neg h]
    exact ⟨rfl, rfl, (Nat.mod_le ..).trans_lt hsum, Nat.mod_lt _ (by decide)⟩

/-- Bounded steps set one after another: each is on the agenda within the bound. -/
theorem mem_agenda_each_soon {b slot : Nat} (e : Nat → Event) (l : List Nat) (s : State) {j : Nat} (h : j ∈ l) :
    ∃ key, (key, e j) ∈ (s.each l fun s j => s.soon b slot (e j)).agenda ∧ key ≤ keyOf (s.cc + b) slot := by
  have hall : ∀ l s, Stirs s (State.each s l fun s j => s.soon b slot (e j)) := stirs_each fun s _ => stirs_soon s ..
  induction l generalizing s with
  | nil => exact absurd h List.not_mem_nil
  | cons i l ih =>
    rcases List.mem_cons.1 h with rfl | h
    · exact ⟨_, (hall l _).agenda _ (insertKey_mem ..), keyOf_mono (dueCc_le s b) slot⟩
    · exact ih (s.soon b slot (e i)) h

theorem each_soon_parts {b slot : Nat} (e : Nat → Event) (l : List Nat) (s : State) : let t := s.each l fun s j => s.soon b slot (e j)
    (∀ m, t.tile m = s.tile m) ∧ t.clusters = s.clusters ∧ t.dies = s.dies := by
  have hall : (s.each l fun s j => s.soon b slot (e j)).tiles = s.tiles :=
    each_keeps (fun s t => t.tiles = s.tiles) (fun _ => rfl) (fun _ _ _ h g => g.trans h) l (fun s j => s.soon b slot (e j))
      (fun _ _ => rfl) s
  have hstirs : Stirs s (s.each l fun s j => s.soon b slot (e j)) := stirs_each (fun s _ => stirs_soon s ..) l s
  exact ⟨fun m => congrArg (SMap.get Tile.reset · m) hall, hstirs.clusters, hstirs.dies⟩

/-- The state in which an arrival has been counted. -/
def State.afterArrival (s : State) (n addr : Nat) (r : Nat × Nat) : State :=
  s.onTile n fun x => if x.isolated then x else x.writeBytes (addr + 4) (leBytes 4 r.1 ++ leBytes 4 r.2)

/-- Whether a strand waits for a generation that its arrival word has reached. -/
def State.reached (s : State) (n k : Nat) : Bool :=
  !(s.strand n k).wake && match (s.strand n k).block with
    | some (.arrival a g) => genReached ((s.tile n).genAt a) g
    | _ => false

theorem exec_arrival (s : State) (n addr b : Nat) : let x := s.tile n
    let u := s.afterArrival n addr (arriveWord (x.readNat addr 4) (x.readNat (addr + 4) 4) (x.readNat (addr + 8) 4) b)
    exec (.arrival n addr b) s =
      .next (u.each (strandIds.filter (u.reached n)) fun s k => s.soon 4 12 (.waitSatisfied n k)) := rfl

theorem tile_afterArrival (h : PlainScratch s n) (addr : Nat) (r : Nat × Nat) : (s.afterArrival n addr r).tile n =
    (s.tile n).withScratch ((s.tile n).scratch.writes (addr + 4) (leBytes 4 r.1 ++ leBytes 4 r.2)) := by
  obtain ⟨hpairs, -, -, hisolated, -⟩ := h
  unfold State.afterArrival
  rw [State.tile_onTile_same, hisolated]
  exact writeBytes_plain hpairs ..

theorem strand_afterArrival (h : PlainScratch s n) (addr : Nat) (r : Nat × Nat) (k : Nat) :
    (s.afterArrival n addr r).strand n k = s.strand n k := by
  unfold State.strand
  rw [tile_afterArrival h]
  rfl

theorem afterArrival_parts (s : State) (n addr : Nat) (r : Nat × Nat) : let u := s.afterArrival n addr r
    (∀ m, m ≠ n → u.tile m = s.tile m) ∧ u.clusters = s.clusters ∧ u.dies = s.dies ∧ u.cc = s.cc :=
  ⟨fun _ hm => (State.tile_onTile ..).trans (if_neg hm), rfl, rfl, rfl⟩

/-- What counting an arrival leaves in its word. -/
theorem afterArrival_word (h : PlainScratch s n) (addr : Nat) {r : Nat × Nat} (h1 : r.1 < 2 ^ 32) (h2 : r.2 < 2 ^ 32) :
    let y := (s.afterArrival n addr r).tile n
    y.readNat (addr + 4) 4 = r.1 ∧ y.readNat (addr + 8) 4 = r.2 ∧
    ∀ a, (a < addr + 4 ∨ addr + 12 ≤ a) → y.scratch.read a = (s.tile n).scratch.read a := by
  obtain ⟨hpairs, -, -, -, hwf⟩ := id h
  have hlen (v : Nat) : (leBytes 4 v).length = 4 := leBytes_length 4 v
  have hle {v : Nat} (hv : v < 2 ^ 32) : leNat (leBytes 4 v) = v := by
    rw [leNat_leBytes]
    exact Nat.mod_eq_of_lt hv
  obtain ⟨hcount, hgen⟩ := Memory.reads_writes_append hwf (addr + 4) (leBytes 4 r.1) (leBytes 4 r.2)
  rw [hlen] at hcount
  rw [hlen, hlen, Nat.add_assoc] at hgen
  dsimp only
  rw [tile_afterArrival h]
  refine ⟨?_, ?_, fun a ha => Memory.read_writes_outside hwf ?_⟩
  · rw [readNat_plain (by exact hpairs), Tile.withScratch_scratch, hcount, hle h1]
  · rw [readNat_plain (by exact hpairs), Tile.withScratch_scratch, hgen, hle h2]
  · rw [List.length_append, hlen, hlen]
    omega

/-! ### Publishing (R123, R124, R131) -/

theorem StreamLeft.of_same {u t : State} {done : Bool} (h : StreamLeft u t n c done) (hsp : (u.tile n).sp = (s.tile n).sp)
    (hdone : (u.tile n).sDone = (s.tile n).sDone)
    (hout : (u.strand c.org.tile c.org.strand).outst = (s.strand c.org.tile c.org.strand).outst) : StreamLeft s t n c done := by
  unfold StreamLeft at h ⊢
  rwa [hsp, hdone, hout] at h

/-- A tile with other shadow pairs. -/
def Tile.withPairs (x : Tile) (p : SMap Pair) : Tile := { x with pairs := p }

/-- A DPUB that completes with these pairs. -/
theorem pairs_done (hcmpl : c.cmpl = .none) (s : State) (p : SMap Pair) :
    let t := (s.onTile n (·.withPairs p)).streamDone n c none 0
    StreamLeft s t n c true ∧ SameBytes s t ∧ (t.tile n).pairs = p := by
  have hleaves := leaves_streamDone (s.onTile n (·.withPairs p)) n hcmpl
  have hset : Stirs s (s.onTile n (·.withPairs p)) := stirs_onTile s n (fun _ => rfl) fun _ => rfl
  have htile : (s.onTile n (·.withPairs p)).tile n = (s.tile n).withPairs p := State.tile_onTile_same ..
  exact ⟨hleaves.left.of_same (by rw [htile]; rfl) (by rw [htile]; rfl) (by rw [hset.strand]),
    sameBytes_trans hset.sameBytes hleaves.sameBytes, hleaves.pairs.trans (by rw [htile]; rfl)⟩

/-- The pairs of a tile behind a DPUB INIT. -/
def SCmd.initPairs (c : SCmd) (m : SMap Pair) (k : Nat) : SMap Pair :=
  if c.d[3] = 0 then SMap.del m k else SMap.put m k ⟨c.d[0].toNat, c.d[1].toNat, c.d[3].toNat, false⟩

theorem find_initPairs (c : SCmd) (m : SMap Pair) (k j : Nat) : SMap.find (c.initPairs m k) j = if j = k then
    (if c.d[3] = 0 then none else some ⟨c.d[0].toNat, c.d[1].toNat, c.d[3].toNat, false⟩) else SMap.find m j := by
  unfold SCmd.initPairs
  split
  · exact SMap.find_del ..
  · exact SMap.find_put ..

section
variable (hc : (s.tile n).inProgress id = some c) (hrels : (s.strand c.org.tile c.org.strand).rels = [])
include hc hrels

theorem exec_complete_init (hop : c.op = .dpub true k) : exec (.streamCommandComplete n id) s =
    .next ((s.onTile n (·.withPairs (c.initPairs (s.tile n).pairs k))).streamDone n c none 0) := by
  unfold exec execStreamCommandComplete
  simp only [hc, not_streamGated s hrels, Bool.false_eq_true, if_false, hop]
  rfl

theorem exec_swap {p : Pair} (hop : c.op = .dpub false k) (hp : (s.tile n).pairs = [(k, p)])
    (hreads : (s.tile n).strmReads p s.cc = none) : exec (.publishSwap n id) s =
    .next ((s.onTile n (·.withPairs [(k, { p with pub := !p.pub })])).streamDone n c none 0) := by
  have hget : SMap.get ⟨0, 0, 0, false⟩ (s.tile n).pairs k = p := by rw [hp]; exact if_pos rfl
  have hupd : SMap.upd (fun p : Pair => { p with pub := !p.pub }) (s.tile n).pairs k = [(k, { p with pub := !p.pub })] := by
    rw [hp]
    exact if_pos rfl
  unfold exec execPublishSwap
  simp only [hc, not_streamGated s hrels, Bool.false_eq_true, if_false, hop, hget, hreads]
  unfold State.onTile
  simp only [hupd]
  rfl

end

theorem phys_one_pair {x : Tile} {p : Pair} (h : x.pairs = [(k, p)]) (a : Nat) : x.phys a = p.phys a := by
  unfold Tile.phys
  rw [h]
  rfl

theorem phys_published (p : Pair) (h : p.pub = false) (a : Nat) : p.phys a = a := by
  unfold Pair.phys
  rw [h]
  rfl

theorem phys_alternate (p : Pair) (h : p.pub = true) (hap : p.base + p.len ≤ p.alt ∨ p.alt + p.len ≤ p.base) :
    (∀ i, i < p.len → p.phys (p.base + i) = p.alt + i ∧ p.phys (p.alt + i) = p.base + i) ∧
    ∀ a, (a < p.base ∨ p.base + p.len ≤ a) → (a < p.alt ∨ p.alt + p.len ≤ a) → p.phys a = a := by
  unfold Pair.phys
  rw [h]
  refine ⟨fun i hi => ⟨?_, ?_⟩, fun a hb ha => ?_⟩
  · rw [if_neg (by decide), if_pos (by omega)]
    omega
  · rw [if_neg (by decide), if_neg (by omega), if_pos (by omega)]
    omega
  · rw [if_neg (by decide), if_neg (by omega), if_neg (by omega)]

/-- A pair that is swapped: its two regions change places, and nothing else. -/
theorem phys_swapped (p : Pair) (hap : p.base + p.len ≤ p.alt ∨ p.alt + p.len ≤ p.base) : let q : Pair := { p with pub := !p.pub }
    (∀ i, i < p.len → q.phys (p.base + i) = p.phys (p.alt + i) ∧ q.phys (p.alt + i) = p.phys (p.base + i)) ∧
    ∀ a, (a < p.base ∨ p.base + p.len ≤ a) → (a < p.alt ∨ p.alt + p.len ≤ a) → q.phys a = p.phys a := by
  intro q
  cases hpub : p.pub with
  | false =>
    have hq : q.pub = true := by change (!p.pub) = true; rw [hpub]; rfl
    obtain ⟨hin, hout⟩ := phys_alternate q hq hap
    simp only [phys_published p hpub]
    exact ⟨hin, hout⟩
  | true =>
    have hq : q.pub = false := by change (!p.pub) = false; rw [hpub]; rfl
    obtain ⟨hin, hout⟩ := phys_alternate p hpub hap
    simp only [phys_published q hq]
    exact ⟨fun i hi => ⟨(hin i hi).2.symm, (hin i hi).1.symm⟩, fun a hb ha => (hout a hb ha).symm⟩

/-- Settles O27: an arrival leaves `arriveWord` in its word and wakes whom it reaches, DPUB INIT leaves `initPairs`, and a swap
changes what addresses reach as `phys_swapped` says. -/
theorem arriveAndPublish : Obligations.ArriveAndPublish := by
  unfold Obligations.ArriveAndPublish
  refine ⟨fun n addr b s h => ?arrival, fun n id k c s hc hcmpl hrels => ⟨fun hop => ?init, fun p hop hp hreads hap => ?swap⟩⟩
  case arrival =>
    intro x count target
    have hgen : x.readNat (addr + 8) 4 < 2 ^ 32 := by
      rw [readNat_plain h.1]
      exact leNat_reads_lt ..
    obtain ⟨hcount', hgen', hlt, hlt'⟩ := arriveWord_eq (target := target) (count := x.readNat (addr + 4) 4) (b := b) hgen
    obtain ⟨hword, hnext, hrest⟩ := afterArrival_word h addr hlt hlt'
    have hstrand (k : Nat) := strand_afterArrival h addr (arriveWord target (x.readNat (addr + 4) 4) (x.readNat (addr + 8) 4) b) k
    obtain ⟨htile, hclusters, hdies, hcc⟩ := afterArrival_parts s n addr
      (arriveWord target (x.readNat (addr + 4) 4) (x.readNat (addr + 8) 4) b)
    refine ⟨_, exec_arrival s n addr b, ?_⟩
    generalize s.afterArrival n addr _ = u at *
    obtain ⟨htile', hclusters', hdies'⟩ := each_soon_parts (b := 4) (slot := 12) (.waitSatisfied n) (strandIds.filter (u.reached n)) u
    have hwake {k : Nat} := mem_agenda_each_soon (b := 4) (slot := 12) (.waitSatisfied n) (strandIds.filter (u.reached n)) u (j := k)
    generalize u.each (strandIds.filter (u.reached n)) (fun s k => s.soon 4 12 (.waitSatisfied n k)) = t at *
    refine ⟨?_, ?_, fun a ha => ?_, fun m hm => (htile' m).trans (htile m hm), hclusters'.trans hclusters, hdies'.trans hdies,
      fun k a g hk hblock hwait hreach => ?_⟩
    · rw [htile', hword, hcount']
    · rw [htile', hnext, hgen']
    · rw [htile', hrest a ha]
    · rw [htile'] at hreach
      have hr : u.reached n k = true := by
        unfold State.reached
        rw [hstrand, hblock, hwait]
        exact hreach
      have hid : k ∈ strandIds := by
        unfold strandIds
        simp only [List.mem_cons, List.not_mem_nil, or_false]
        omega
      rw [← hcc]
      exact hwake (List.mem_filter.2 ⟨hid, hr⟩)
  case init =>
    obtain ⟨hleft, hbytes, hpairs⟩ := pairs_done hcmpl s (c.initPairs (s.tile n).pairs k)
    exact ⟨_, exec_complete_init hc hrels hop, hleft, hbytes, fun j => by rw [hpairs]; exact find_initPairs ..⟩
  case swap =>
    obtain ⟨hleft, hbytes, hpairs⟩ := pairs_done hcmpl s [(k, { p with pub := !p.pub })]
    refine ⟨_, exec_swap hc hrels hop hp hreads, hleft, hbytes, hpairs, ?_⟩
    simp only [phys_one_pair hpairs, phys_one_pair hp]
    exact phys_swapped p hap

end Sys2Proof.Machine
end

section
/-! SUPPORT. Runs of bytes that a command writes into a plain scratchpad one after another (`Filled`), and what else it leaves
(`OnlyScratch`). -/
namespace Sys2Proof

-- One theorem at a time, as above: side by side they ask for more threads than the limit on memory admits.
set_option Elab.async false

/-- Memory m reads as m0, but that `len` bytes from `base` read as f gives them. -/
def Filled (m0 m : Memory) (base len : Nat) (f : Nat → Byte) : Prop :=
  ∀ a, m.read a = if base ≤ a ∧ a < base + len then f (a - base) else m0.read a

section
variable {m0 m : Memory} {base len : Nat} {f : Nat → Byte}

theorem filled_nothing (m : Memory) (base : Nat) (f : Nat → Byte) : Filled m m base 0 f := fun a => (if_neg (by omega)).symm

/-- The next k bytes of the run. -/
theorem Filled.write (h : Filled m0 m base len f) (hwf : m.wf = true) (k : Nat) :
    Filled m0 (m.writes (base + len) ((List.range k).map fun j => f (len + j))) base (len + k) f := fun a => by
  rw [Memory.writes_read m _ _ a hwf]
  simp only [List.length_map, List.length_range, List.getElem_map, List.getElem_range]
  by_cases hin : base + len ≤ a ∧ a < base + len + k
  · rw [dif_pos hin, if_pos (by omega)]
    congr 1
    omega
  · rw [dif_neg hin, h a]
    by_cases hold : base ≤ a ∧ a < base + len
    · rw [if_pos hold, if_pos (by omega)]
    · rw [if_neg hold, if_neg (by omega)]

theorem Filled.outside (h : Filled m0 m base len f) {a : Nat} (ha : a < base ∨ base + len ≤ a) : m.read a = m0.read a :=
  (h a).trans (if_neg (by omega))

theorem Filled.inside (h : Filled m0 m base len f) {i : Nat} (hi : i < len) : m.read (base + i) = f i := by
  rw [h, if_pos (by omega), Nat.add_sub_cancel_left]

end

namespace Machine

variable {s t u : State} {n : Nat} {x : Tile}

theorem engWrite_plain (hpairs : x.pairs = []) (hisolated : x.isolated = false) (a : Nat) (bs : List Byte) :
    x.engWrite false a bs = x.withScratch (x.scratch.writes a bs) := by
  unfold Tile.engWrite
  rw [hisolated]
  exact writeBytes_plain hpairs a bs

theorem engReadSince_plain (h : PlainScratch s n) (a k since : Nat) : s.engReadSince n a k since = (s.tile n).scratch.reads a k := by
  obtain ⟨hpairs, hpending, hold, -, -⟩ := h
  unfold State.engReadSince State.engRead
  simp only [hpending, hold, List.isEmpty_nil, if_true]
  exact readBytes_plain hpairs a k

/-- State u is s but for the bytes of tile n's scratchpad, the steps to come and the undefined values met. -/
structure OnlyScratch (s u : State) (n : Nat) : Prop where
  cc : u.cc = s.cc
  clusters : u.clusters = s.clusters
  dies : u.dies = s.dies
  others : ∀ m, m ≠ n → u.tile m = s.tile m
  mine : u.tile n = (s.tile n).withScratch (u.tile n).scratch
  wf : (s.tile n).scratch.wf = true → (u.tile n).scratch.wf = true

theorem OnlyScratch.refl (s : State) (n : Nat) : OnlyScratch s s n := ⟨rfl, rfl, rfl, fun _ _ => rfl, rfl, id⟩

theorem OnlyScratch.trans (h : OnlyScratch s t n) (g : OnlyScratch t u n) : OnlyScratch s u n where
  cc := g.cc.trans h.cc
  clusters := g.clusters.trans h.clusters
  dies := g.dies.trans h.dies
  others m hm := (g.others m hm).trans (h.others m hm)
  mine := by
    rw [g.mine, h.mine]
    rfl
  wf hs := g.wf (h.wf hs)

theorem onlyScratch_spendOn (s : State) (m n : Nat) : OnlyScratch s (s.spendOn m) n := { OnlyScratch.refl s n with }

theorem OnlyScratch.plain (h : OnlyScratch s u n) (hs : PlainScratch s n) : PlainScratch u n := by
  obtain ⟨hpairs, hpending, hold, hisolated, hwf⟩ := hs
  have hmine := h.mine
  have hcc := h.cc
  refine ⟨?_, ?_, ?_, ?_, h.wf hwf⟩
  · rw [hmine]
    exact hpairs
  · rw [hmine, hcc]
    exact hpending
  · rw [hmine]
    exact hold
  · rw [hmine]
    exact hisolated

theorem OnlyScratch.strand (h : OnlyScratch s u n) (m k : Nat) : u.strand m k = s.strand m k := by
  unfold State.strand
  by_cases hm : m = n
  · rw [hm, h.mine]
    rfl
  · rw [h.others m hm]

/-- A write of an engine to the plain scratchpad of its tile. -/
theorem onlyScratch_engWrite (h : PlainScratch s n) (a : Nat) (bs : List Byte) : let t := s.onTile n (·.engWrite false a bs)
    OnlyScratch s t n ∧ (t.tile n).scratch = (s.tile n).scratch.writes a bs := by
  obtain ⟨hpairs, -, -, hisolated, hwf⟩ := h
  have htile : (s.onTile n (·.engWrite false a bs)).tile n = (s.tile n).withScratch ((s.tile n).scratch.writes a bs) :=
    (State.tile_onTile_same ..).trans (engWrite_plain hpairs hisolated a bs)
  refine ⟨⟨rfl, rfl, rfl, fun m hm => (State.tile_onTile ..).trans (if_neg hm), ?_, fun _ => ?_⟩, ?_⟩
  · rw [htile]
    rfl
  · rw [htile]
    exact Memory.writes_wf _ _ _ hwf
  · rw [htile]
    rfl

/-- An element of the own scratchpad, read by an engine. -/
theorem readElem_plain (h : PlainScratch s n) {c : SCmd} (hsrc : c.src = .scratch) (a k : Nat) :
    s.readElem n c a k = .ok (s.spendOn n, (List.range k).map fun j => (s.tile n).scratch.read (a + j), none) := by
  have hread := engReadSince_plain h a k c.start
  rw [Memory.reads_eq_map h.2.2.2.2] at hread
  unfold State.readElem
  simp only [hsrc, hread]

theorem ownFirst_nil {k : Nat} (h : (s.strand n k).rels = []) : s.ownFirst n k = s := by
  unfold State.ownFirst
  rw [h]
  rfl

end Machine
end Sys2Proof
end

section
/-! PROOFS. Linear copies and fills (O26): the elements one after another, and the command's completion. -/
namespace Sys2Proof.Machine

-- One theorem at a time, as above: side by side they ask for more threads than the limit on memory admits.
set_option Elab.async false

variable {s : State} {n id : Nat} {c : SCmd} {p : Progress}

/-- Byte i of what a linear command writes (R126, R129), with the source bytes of a memory. -/
def SCmd.linearByte (c : SCmd) (m : Memory) (i : Nat) : Byte :=
  if c.op = .dfil then c.d[7].extractLsb' (8 * (i % 8)) 8 else m.read (c.d[0].toNat + i)

/-- A DFIL, or a DCPY from the own scratchpad, of one range of bytes to the own scratchpad. -/
structure SCmd.Fills (c : SCmd) : Prop where
  kind : c.op = .dfil ∨ c.op = .dcpy ∧ c.src = .scratch
  dst : c.dst = .scratch
  shd : c.shd = false
  desc : c.d[2] = 0

/-- The bytes that an element delivers, as `copyElem` takes them. -/
def Progress.source (p : Progress) (n : Nat) (c : SCmd) (e : Elem) : Except ElemErr (State × List Byte × Option Nat) :=
  if c.op = .dfil then .ok (p.s, (List.range e.2.2).map fun i => (c.d[7].extractLsb' (8 * ((p.done + i) % 8)) 8), none)
  else p.s.readElem n c e.1 e.2.2

theorem SCmd.Fills.source (h : c.Fills) (hp : PlainScratch p.s n) {e : Elem} (he : c.op = .dcpy → e.1 = c.d[0].toNat + p.done) :
    ∃ u, p.source n c e = .ok (u, (List.range e.2.2).map fun j => c.linearByte (p.s.tile n).scratch (p.done + j), none) ∧
      OnlyScratch p.s u n ∧ u.tile n = p.s.tile n := by
  unfold Progress.source SCmd.linearByte
  rcases h.kind with hop | ⟨hop, hsrc⟩
  · simp only [if_pos hop]
    exact ⟨_, rfl, .refl .., rfl⟩
  · have hfil : c.op ≠ .dfil := by rw [hop]; decide
    simp only [if_neg hfil, ← Nat.add_assoc, ← he hop]
    exact ⟨_, readElem_plain hp hsrc .., onlyScratch_spendOn .., rfl⟩

theorem SCmd.Fills.copyElem_eq (h : c.Fills) {e : Elem} {u : State} {bs : List Byte} (hsrc : p.source n c e = .ok (u, bs, none))
    (size : Nat) : copyElem n c size p e = { p with s := u.onTile n (·.engWrite false e.2.1 bs), done := p.done + e.2.2 } := by
  have hop : c.op ≠ .dgth := by rcases h.kind with hop | ⟨hop, -⟩ <;> rw [hop] <;> decide
  unfold Progress.source at hsrc
  unfold copyElem State.writeElem
  simp only [hop, false_and, if_false, hsrc, h.dst, h.shd]
  rfl

/-- What the first i elements of a linear command leave. -/
structure Copied (s : State) (n : Nat) (c : SCmd) (i : Nat) (p : Progress) : Prop where
  only : OnlyScratch s p.s n
  err : p.err = none
  bad : p.bad = 0
  words : p.words = []
  done : p.done = min (128 * i) c.d[3].toNat
  bytes : Filled (s.tile n).scratch (p.s.tile n).scratch c.d[1].toNat (min (128 * i) c.d[3].toNat) (c.linearByte (s.tile n).scratch)

theorem mod64_natCast {a : Nat} (h : a < 2 ^ 64) : mod64 a = a := by
  unfold mod64
  omega

section
variable (h : c.Fills) (hs : PlainScratch s n) (hdst : c.d[1].toNat + c.d[3].toNat ≤ 0x200000)
  (hsrc : c.op = .dcpy → c.d[0].toNat + c.d[3].toNat ≤ 0x200000)
  (hap : c.op = .dcpy → c.d[0].toNat + c.d[3].toNat ≤ c.d[1].toNat ∨ c.d[1].toNat + c.d[3].toNat ≤ c.d[0].toNat)
include h hs hdst hsrc hap

theorem Copied.step {i : Nat} (hi : 128 * i < c.d[3].toNat) (hp : Copied s n c i p) (size : Nat) :
    Copied s n c (i + 1) (copyElem n c size p (mod64 (c.d[0].toNat + i * 128), mod64 (c.d[1].toNat + i * 128),
      min 128 (c.d[3].toNat - 128 * i))) := by
  have hdone : p.done = 128 * i := hp.done.trans (Nat.min_eq_left hi.le)
  have hlen : min (128 * i) c.d[3].toNat = 128 * i := Nat.min_eq_left hi.le
  have hlen' : min (128 * (i + 1)) c.d[3].toNat = 128 * i + min 128 (c.d[3].toNat - 128 * i) := by omega
  have hto : mod64 (c.d[1].toNat + i * 128) = c.d[1].toNat + 128 * i := by
    have := mod64_natCast (a := c.d[1].toNat + 128 * i) (by omega)
    rwa [Nat.cast_add, Nat.cast_mul, mul_comm] at this
  have hfrom (hop : c.op = .dcpy) : mod64 (c.d[0].toNat + i * 128) = c.d[0].toNat + p.done := by
    have hfits := hsrc hop
    have := mod64_natCast (a := c.d[0].toNat + 128 * i) (by omega)
    rwa [Nat.cast_add, Nat.cast_mul, mul_comm, ← hdone] at this
  have hplain := hp.only.plain hs
  obtain ⟨u, hu, honly, htile⟩ := h.source hplain (e := (mod64 (c.d[0].toNat + i * 128), mod64 (c.d[1].toNat + i * 128),
    min 128 (c.d[3].toNat - 128 * i))) hfrom
  rw [h.copyElem_eq hu]
  obtain ⟨hwrite, hscratch⟩ := onlyScratch_engWrite (honly.plain hplain) (c.d[1].toNat + 128 * i)
    ((List.range (min 128 (c.d[3].toNat - 128 * i))).map fun j => c.linearByte (p.s.tile n).scratch (p.done + j))
  have hbytes := hp.bytes
  rw [hlen] at hbytes
  have hsame (j : Nat) (hj : j < c.d[3].toNat) : c.linearByte (p.s.tile n).scratch j = c.linearByte (s.tile n).scratch j := by
    unfold SCmd.linearByte
    rcases h.kind with hop | ⟨hop, -⟩
    · rw [if_pos hop, if_pos hop]
    · have := hap hop
      rw [hbytes.outside (by omega)]
  refine ⟨(hp.only.trans honly).trans ?_, hp.err, hp.bad, hp.words, ?_, ?_⟩
  · rw [hto]
    exact hwrite
  · rw [hlen', hdone]
  · rw [hlen', hto, hscratch, htile, hdone]
    have hnext := hbytes.write hplain.2.2.2.2 (min 128 (c.d[3].toNat - 128 * i))
    rwa [List.map_congr_left fun j hj => (hsame _ (by have := List.mem_range.1 hj; omega)).symm] at hnext

theorem copied_run (size : Nat) :
    Copied s n c ((c.d[3].toNat + 127) / 128) ((s.elems n c).foldl (copyElem n c size) ⟨s.spendOn n, none, 0, 0, []⟩) := by
  rw [elems_linear (h.kind.imp_right (·.1)) h.desc, List.foldl_map]
  have hrun (k : Nat) (hk : k ≤ (c.d[3].toNat + 127) / 128) : Copied s n c k ((List.range k).foldl (fun p (i : Nat) =>
      copyElem n c size p (mod64 (c.d[0].toNat + i * 128), mod64 (c.d[1].toNat + i * 128), min 128 (c.d[3].toNat - 128 * i)))
      ⟨s.spendOn n, none, 0, 0, []⟩) := by
    induction k with
    | zero =>
      refine ⟨onlyScratch_spendOn .., rfl, rfl, rfl, (Nat.zero_min _).symm, ?_⟩
      rw [Nat.mul_zero, Nat.zero_min]
      exact filled_nothing _ _ _
    | succ k ih =>
      rw [foldl_range_succ]
      exact (ih (by omega)).step h hs hdst hsrc hap (by omega) size
  exact hrun _ le_rfl

end

/-- The completion of a linear command, behind its elements. -/
theorem exec_complete_linear (h : c.Fills) (hcmpl : c.cmpl = .none) (hc : (s.tile n).inProgress id = some c)
    (hrels : (s.strand c.org.tile c.org.strand).rels = []) :
    ∃ size, let r := (s.elems n c).foldl (copyElem n c size) ⟨s.spendOn n, none, 0, 0, []⟩
      exec (.streamCommandComplete n id) s =
        .next ((r.s.onStrand c.org.tile c.org.strand fun x => x.foldWords r.words).streamDone n c r.err r.bad) := by
  have harrive : c.cmpl ≠ .arrive := by rw [hcmpl]; decide
  refine ⟨if c.src = .store then (s.cluster (clusterOf n)).storeSize else scratchSize, ?_⟩
  unfold exec execStreamCommandComplete
  simp only [hc, not_streamGated s hrels, Bool.false_eq_true, if_false, ownFirst_nil hrels, if_neg harrive]
  rcases h.kind with hop | ⟨hop, -⟩
  · rw [hop]
  · rw [hop]

/-- A linear command completes: its bytes stand, and nothing else changes. -/
theorem linear_completes (h : c.Fills) (hcmpl : c.cmpl = .none) (hc : (s.tile n).inProgress id = some c)
    (hrels : (s.strand c.org.tile c.org.strand).rels = []) (hs : PlainScratch s n) (hdst : c.d[1].toNat + c.d[3].toNat ≤ 0x200000)
    (hsrc : c.op = .dcpy → c.d[0].toNat + c.d[3].toNat ≤ 0x200000)
    (hap : c.op = .dcpy → c.d[0].toNat + c.d[3].toNat ≤ c.d[1].toNat ∨ c.d[1].toNat + c.d[3].toNat ≤ c.d[0].toNat) :
    ∃ t, exec (.streamCommandComplete n id) s = .next t ∧ StreamLeft s t n c true ∧
      (∀ m, m ≠ n → (t.tile m).scratch = (s.tile m).scratch) ∧ t.clusters = s.clusters ∧ t.dies = s.dies ∧
      Filled (s.tile n).scratch (t.tile n).scratch c.d[1].toNat c.d[3].toNat (c.linearByte (s.tile n).scratch) := by
  obtain ⟨size, hexec⟩ := exec_complete_linear h hcmpl hc hrels
  have hrun := copied_run h hs hdst hsrc hap size
  dsimp only at hexec
  generalize (s.elems n c).foldl (copyElem n c size) ⟨s.spendOn n, none, 0, 0, []⟩ = r at *
  rw [hrun.err, hrun.bad, hrun.words] at hexec
  have hfold := (sameWorks_onStrand r.s c.org.tile c.org.strand fun x => x.foldWords []).tile
  have hstrand : (r.s.onStrand c.org.tile c.org.strand fun x => x.foldWords []).strand c.org.tile c.org.strand =
      s.strand c.org.tile c.org.strand := (State.strand_onStrand_same ..).trans (hrun.only.strand ..)
  have hleaves := leaves_streamDone (r.s.onStrand c.org.tile c.org.strand fun x => x.foldWords []) n hcmpl
  have hscratch (m : Nat) := (hleaves.scratch m).trans (hfold m).scratch
  have hmine := hrun.only.mine
  refine ⟨_, hexec, hleaves.left.of_same ?_ ?_ (by rw [hstrand]), fun m hm => ?_, hleaves.clusters.trans hrun.only.clusters,
    hleaves.dies.trans hrun.only.dies, ?_⟩
  · rw [(hfold n).sp, hmine]
    rfl
  · rw [(hfold n).sDone, hmine]
    rfl
  · rw [hscratch, hrun.only.others m hm]
  · have hbytes := hrun.bytes
    rwa [Nat.min_eq_right (by omega), ← hscratch] at hbytes

end Sys2Proof.Machine
end

section
/-! PROOFS. Rows of an unfolding (O26): the taps one after another, zeros up to the pitch, and the step that follows. -/
namespace Sys2Proof

-- One theorem at a time, as above: side by side they ask for more threads than the limit on memory admits.
set_option Elab.async false

namespace Machine

variable {s : State} {n id : Nat} {c : SCmd} {p : Progress} {u : Unfold}

/-! ### The taps of a row (R128) -/

/-- Byte j of the pixel at o, with the bytes of a memory: zero in the padding. -/
def tapByte (m : Memory) (o : Option Nat) (j : Nat) : Byte := o.elim 0 fun a => m.read (a + j)

/-- Byte x of the slot of row r: the taps' pixels one after another, and zeros behind them. -/
def Unfold.rowByte (u : Unfold) (d0 r : Nat) (m : Memory) (x : Nat) : Byte :=
  if x < u.kh * u.kw * u.cb then tapByte m (specTap u d0 r (x / u.cb)) (x % u.cb) else 0

theorem rowByte_tap {d0 r k j : Nat} {m : Memory} (hk : k < u.kh * u.kw) (hj : j < u.cb) :
    u.rowByte d0 r m (k * u.cb + j) = tapByte m (specTap u d0 r k) j := by
  have hlt := Nat.mul_le_mul_right u.cb (Nat.succ_le_of_lt hk)
  rw [Nat.succ_mul] at hlt
  have hdiv : (k * u.cb + j) / u.cb = k := by
    rw [mul_comm, Nat.mul_add_div (Nat.zero_lt_of_lt hj), Nat.div_eq_of_lt hj, Nat.add_zero]
  have hmod : (k * u.cb + j) % u.cb = j := by
    rw [mul_comm, Nat.mul_add_mod, Nat.mod_eq_of_lt hj]
  unfold Unfold.rowByte
  rw [if_pos (by omega), hdiv, hmod]

/-- A pixel of the input lies in the image. -/
theorem specTap_in {d0 r k a : Nat} (h : specTap u d0 r k = some a) : d0 ≤ a ∧ a + u.cb ≤ d0 + (u.h - 1) * u.istr + u.w * u.cb := by
  unfold specTap at h
  dsimp only at h
  split at h
  · next hin =>
    obtain ⟨hy, hy', hx, hx'⟩ := hin
    have hrow := Nat.mul_le_mul_right u.istr (Nat.le_sub_one_of_lt ((Int.toNat_lt hy).2 hy'))
    have hcol := Nat.mul_le_mul_right u.cb (Nat.succ_le_of_lt ((Int.toNat_lt hx).2 hx'))
    rw [Nat.succ_mul] at hcol
    have ha := Option.some.inj h
    omega
  · cases h

/-- The taps of the model are those of the statement, in their order. -/
theorem taps_eq {d0 : Nat} (hfits : d0 + (u.h - 1) * u.istr + u.w * u.cb ≤ 0x200000) (r : Nat) :
    u.taps d0 r = (List.range (u.kh * u.kw)).map fun k => (specTap u d0 r k, k * u.cb) := by
  unfold Unfold.taps
  dsimp only
  refine List.map_congr_left fun k _ => ?_
  have hin := fun a => specTap_in (u := u) (d0 := d0) (r := r) (k := k) (a := a)
  unfold specTap at hin ⊢
  dsimp only at hin ⊢
  have hcast (a b c d e : Nat) : ((a * b + c * d : Nat) : Int) - e = (a : Int) * b - e + (c : Int) * d := by
    push_cast
    ring
  simp only [hcast]
  split
  · next h =>
    rw [if_pos h] at hin
    have hlt := (hin _ rfl).2
    rw [Nat.mod_eq_of_lt (by omega)]
  · rfl

/-- A tap of a row: the bytes of its pixel, or zeros, to its place in the row. -/
theorem tapElem_plain (hp : PlainScratch p.s n) (hsrc : c.src = .scratch) (hshd : c.shd = false) (cb base off : Nat) (o : Option Nat) :
    OnlyScratch p.s (tapElem n c cb base p (o, off)).s n ∧ ((tapElem n c cb base p (o, off)).s.tile n).scratch =
      (p.s.tile n).scratch.writes (base + off) ((List.range cb).map (tapByte (p.s.tile n).scratch o)) := by
  unfold tapElem
  rw [hshd]
  cases o with
  | none =>
    have hzeros : List.replicate cb (0 : Byte) = (List.range cb).map (tapByte (p.s.tile n).scratch none) := by
      unfold tapByte
      simp
    rw [← hzeros]
    exact onlyScratch_engWrite hp ..
  | some a =>
    have hspent := onlyScratch_spendOn p.s n n
    simp only [readElem_plain hp hsrc]
    obtain ⟨honly, hscratch⟩ := onlyScratch_engWrite (hspent.plain hp) (base + off)
      ((List.range cb).map (tapByte (p.s.tile n).scratch (some a)))
    exact ⟨hspent.trans honly, hscratch⟩

section
variable {base d0 r : Nat} (hs : PlainScratch s n) (hsrc : c.src = .scratch) (hshd : c.shd = false)
  (hpitch : u.kh * u.kw * u.cb ≤ u.pitch)
  (hap : d0 + (u.h - 1) * u.istr + u.w * u.cb ≤ base ∨ base + u.pitch ≤ d0)
include hs hsrc hshd hpitch hap

/-- What the first k taps of a row leave. -/
theorem taps_run {e : Option ElemErr} {b : Nat} {k : Nat} (hk : k ≤ u.kh * u.kw) :
    let q := (List.range k).foldl (fun p k => tapElem n c u.cb base p (specTap u d0 r k, k * u.cb)) ⟨s.spendOn n, e, b, 0, []⟩
    OnlyScratch s q.s n ∧
      Filled (s.tile n).scratch (q.s.tile n).scratch base (k * u.cb) (u.rowByte d0 r (s.tile n).scratch) := by
  induction k with
  | zero =>
    refine ⟨onlyScratch_spendOn .., ?_⟩
    rw [Nat.zero_mul]
    exact filled_nothing _ _ _
  | succ k ih =>
    have hlt := Nat.mul_le_mul_right u.cb hk
    rw [Nat.succ_mul] at hlt
    rw [foldl_range_succ]
    obtain ⟨honly, hbytes⟩ := ih (by omega)
    generalize (List.range k).foldl _ _ = q at *
    obtain ⟨htap, hscratch⟩ := tapElem_plain (honly.plain hs) hsrc hshd u.cb base (k * u.cb) (specTap u d0 r k)
    refine ⟨honly.trans htap, ?_⟩
    have hpixel : (List.range u.cb).map (tapByte (q.s.tile n).scratch (specTap u d0 r k)) =
        (List.range u.cb).map fun j => u.rowByte d0 r (s.tile n).scratch (k * u.cb + j) := by
      refine List.map_congr_left fun j hj => ?_
      have hj := List.mem_range.1 hj
      rw [rowByte_tap hk hj]
      unfold tapByte
      cases htap : specTap u d0 r k with
      | none => rfl
      | some a =>
        obtain ⟨hlow, hhigh⟩ := specTap_in htap
        exact hbytes.outside (by omega)
    rw [hscratch, hpixel, Nat.succ_mul]
    exact hbytes.write (honly.plain hs).2.2.2.2 u.cb

/-- The whole slot of a row: its taps, and zeros up to the pitch. -/
theorem row_run {e : Option ElemErr} {b : Nat} (hfits : d0 + (u.h - 1) * u.istr + u.w * u.cb ≤ 0x200000) :
    let q := (u.taps d0 r).foldl (tapElem n c u.cb base) ⟨s.spendOn n, e, b, 0, []⟩
    let v := q.s.onTile n (·.engWrite c.shd (base + u.kh * u.kw * u.cb) (List.replicate (u.pitch - u.kh * u.kw * u.cb) 0))
    OnlyScratch s v n ∧ Filled (s.tile n).scratch (v.tile n).scratch base u.pitch (u.rowByte d0 r (s.tile n).scratch) := by
  rw [taps_eq hfits, List.foldl_map, hshd]
  obtain ⟨honly, hbytes⟩ := taps_run (r := r) (e := e) (b := b) hs hsrc hshd hpitch hap le_rfl
  extract_lets q v
  obtain ⟨hzero, hscratch⟩ := onlyScratch_engWrite (honly.plain hs) (base + u.kh * u.kw * u.cb)
    (List.replicate (u.pitch - u.kh * u.kw * u.cb) 0)
  refine ⟨honly.trans hzero, ?_⟩
  have hzeros : List.replicate (u.pitch - u.kh * u.kw * u.cb) (0 : Byte) =
      (List.range (u.pitch - u.kh * u.kw * u.cb)).map fun j => u.rowByte d0 r (s.tile n).scratch (u.kh * u.kw * u.cb + j) := by
    unfold Unfold.rowByte
    simp
  have hnext := hbytes.write (honly.plain hs).2.2.2.2 (u.pitch - u.kh * u.kw * u.cb)
  rw [← hzeros, Nat.add_sub_cancel' hpitch] at hnext
  rw [hscratch]
  exact hnext

end

/-! ### The step (R127, R128) -/

/-- A row whose slot the reader still holds waits. -/
theorem exec_dunfRow_waits (hc : (s.tile n).inProgress id = some c) (hring : (unfoldOf c.desc).depth ≤ c.row)
    (hcredit : (s.ctrGet (dieOf n) (unfoldOf c.desc).cred).toNat < c.c0.toNat + c.row - (unfoldOf c.desc).depth + 1) :
    exec (.dunfRow n id c.row) s = .next s := by
  unfold exec execDunfRow
  simp only [hc, ne_eq, not_true_eq_false, if_false, if_pos (And.intro hring hcredit)]

/-- A tile whose command `id` has its next row to come, with the faults of this row's taps. -/
def Tile.rowDone (x : Tile) (id row : Nat) (q : Progress) : Tile :=
  { x with sp := x.sp.map fun y => if y.id == id then { y with row := row + 1, efault := q.err, nfault := q.bad } else y }

/-- The state behind a row: the command's next row, or its completion, is to come. -/
def State.rowDone (s : State) (n id : Nat) (c : SCmd) (q : Progress) : State :=
  let t := s.onTile n (·.rowDone id c.row q)
  if c.row + 1 = c.d[3].toNat then t.sched (t.cc + 1) (slotStream n) (.streamCommandComplete n id)
  else t.soon (unfoldOf c.desc).rowTime slotRow (.dunfRow n id (c.row + 1))

/-- A row that has its credit. -/
theorem exec_dunfRow_goes (hc : (s.tile n).inProgress id = some c) (hcmpl : c.cmpl = .none)
    (hrels : (s.strand c.org.tile c.org.strand).rels = [])
    (hcredit : c.row < (unfoldOf c.desc).depth ∨
      c.c0.toNat + c.row - (unfoldOf c.desc).depth + 1 ≤ (s.ctrGet (dieOf n) (unfoldOf c.desc).cred).toNat) :
    exec (.dunfRow n id c.row) s = .next (
      let u := unfoldOf c.desc
      let base := c.d[1].toNat + c.row % u.depth * u.pitch
      let q := (u.taps c.d[0].toNat c.row).foldl (tapElem n c u.cb base) ⟨s.spendOn n, c.efault, c.nfault, 0, []⟩
      (q.s.onTile n (·.engWrite c.shd (base + u.kh * u.kw * u.cb) (List.replicate (u.pitch - u.kh * u.kw * u.cb) 0))).rowDone n id c q) := by
  have hgo : ¬((unfoldOf c.desc).depth ≤ c.row ∧
      (s.ctrGet (dieOf n) (unfoldOf c.desc).cred).toNat < c.c0.toNat + c.row - (unfoldOf c.desc).depth + 1) := by omega
  have harrive : c.cmpl ≠ .arrive := by rw [hcmpl]; decide
  unfold exec execDunfRow
  simp only [hc, ne_eq, not_true_eq_false, if_false, if_neg hgo, ownFirst_nil hrels, if_neg harrive]
  rfl

/-- What the steps to come leave unchanged. -/
theorem rowDone_frame (s : State) (n id : Nat) (c : SCmd) (q : Progress) :
    (s.rowDone n id c q).clusters = s.clusters ∧ (s.rowDone n id c q).dies = s.dies ∧
      (∀ m, m ≠ n → (s.rowDone n id c q).tile m = s.tile m) ∧ ((s.rowDone n id c q).tile n).scratch = (s.tile n).scratch := by
  have htile (m : Nat) : (s.rowDone n id c q).tile m = if m = n then (s.tile n).rowDone id c.row q else s.tile m := by
    rw [← State.tile_onTile s n (·.rowDone id c.row q) m]
    unfold State.rowDone
    dsimp only
    split <;> rfl
  refine ⟨?_, ?_, fun m hm => (htile m).trans (if_neg hm), ?_⟩
  · unfold State.rowDone
    dsimp only
    split <;> rfl
  · unfold State.rowDone
    dsimp only
    split <;> rfl
  · rw [htile, if_pos rfl]
    rfl

theorem rowDone_agenda (s : State) (q : Progress) :
    if c.row + 1 = c.d[3].toNat then ∃ k, (k, Event.streamCommandComplete n id) ∈ (s.rowDone n id c q).agenda
    else ∃ k, (k, Event.dunfRow n id (c.row + 1)) ∈ (s.rowDone n id c q).agenda := by
  unfold State.rowDone
  dsimp only
  split
  · exact ⟨_, insertKey_mem ..⟩
  · exact ⟨_, insertKey_mem ..⟩

/-- A row that has its credit fills its slot, and nothing else changes. -/
theorem dunfRow_fills (hc : (s.tile n).inProgress id = some c) (hsrc : c.src = .scratch) (hshd : c.shd = false) (hcmpl : c.cmpl = .none)
    (hu : u = unfoldOf c.desc) {base : Nat} (hbase : base = c.d[1].toNat + c.row % u.depth * u.pitch)
    (hpitch : u.kh * u.kw * u.cb ≤ u.pitch)
    (hcredit : c.row < u.depth ∨ c.c0.toNat + c.row - u.depth + 1 ≤ (s.ctrGet (dieOf n) u.cred).toNat) (hs : PlainScratch s n)
    (hrels : (s.strand c.org.tile c.org.strand).rels = []) (hfits : c.d[0].toNat + (u.h - 1) * u.istr + u.w * u.cb ≤ 0x200000)
    (hap : c.d[0].toNat + (u.h - 1) * u.istr + u.w * u.cb ≤ base ∨ base + u.pitch ≤ c.d[0].toNat) :
    ∃ t, exec (.dunfRow n id c.row) s = .next t ∧ t.clusters = s.clusters ∧ t.dies = s.dies ∧ (∀ m, m ≠ n → t.tile m = s.tile m) ∧
      Filled (s.tile n).scratch (t.tile n).scratch base u.pitch (u.rowByte c.d[0].toNat c.row (s.tile n).scratch) ∧
      if c.row + 1 = c.d[3].toNat then ∃ k, (k, Event.streamCommandComplete n id) ∈ t.agenda
      else ∃ k, (k, Event.dunfRow n id (c.row + 1)) ∈ t.agenda := by
  obtain ⟨honly, hbytes⟩ := row_run (r := c.row) (e := c.efault) (b := c.nfault) hs hsrc hshd hpitch hap hfits
  subst hu hbase
  refine ⟨_, exec_dunfRow_goes hc hcmpl hrels hcredit, ?_⟩
  obtain ⟨hclusters, hdies, hothers, hscratch⟩ := rowDone_frame _ n id c _
  refine ⟨hclusters.trans honly.clusters, hdies.trans honly.dies, fun m hm => (hothers m hm).trans (honly.others m hm), ?_,
    rowDone_agenda ..⟩
  rw [hscratch]
  exact hbytes

end Machine

open Machine

/-- Settles O26: a linear command's elements, and a row's taps, are one run of bytes written in order (`Filled`). -/
theorem streamBytes : Obligations.StreamBytes := by
  unfold Obligations.StreamBytes
  refine ⟨fun n id c s hc hlinear hs hrels hap => ?_, fun n id c s hc _ hsrc hshd hcmpl => ?_⟩
  · obtain ⟨hdst, hshd, hcmpl, hdesc, hfits, hkind⟩ := hlinear
    have hfills : c.Fills := ⟨hkind.imp_right fun ⟨hop, hsrc, _⟩ => ⟨hop, hsrc⟩, hdst, hshd, hdesc⟩
    have hfrom (hop : c.op = .dcpy) : c.d[0].toNat + c.d[3].toNat ≤ 0x200000 := by
      rcases hkind with hfil | ⟨-, -, hfrom⟩
      · rw [hfil] at hop
        cases hop
      · exact hfrom
    exact linear_completes hfills hcmpl hc hrels hs hfits hfrom hap
  · extract_lets u base credit
    refine ⟨exec_dunfRow_waits hc, fun hok hcredit hs hrels hfits hap => ?_⟩
    have hpitch : u.kh * u.kw * u.cb ≤ u.pitch := by
      unfold Unfold.ok at hok
      simp only [Bool.and_eq_true, decide_eq_true_eq] at hok
      tauto
    obtain ⟨t, hexec, hclusters, hdies, hothers, hbytes, hagenda⟩ :=
      dunfRow_fills (u := u) (base := base) hc hsrc hshd hcmpl rfl rfl hpitch hcredit hs hrels hfits hap
    refine ⟨t, hexec, hclusters, hdies, hothers, fun k j hk hj => ?_, fun a hlow hhigh => ?_, fun a ha => hbytes.outside ha, hagenda⟩
    · have hlt := Nat.mul_le_mul_right u.cb (Nat.succ_le_of_lt hk)
      rw [Nat.succ_mul] at hlt
      rw [Nat.add_assoc, hbytes.inside (by omega), rowByte_tap hk hj]
      unfold tapByte
      cases specTap u c.d[0].toNat c.row k <;> rfl
    · rw [hbytes, if_pos (by omega)]
      exact if_neg (by omega)

end Sys2Proof
end

section
/-! Results of class S (R28, R140 to R145): each function of the model is the one that Tables COR-3 and COR-4 give. -/
namespace Sys2Proof.Machine

/-! ### Sign extension and long immediates (R28) -/

/-- The sign extension of a w-bit value, as the integer between -2^(w-1) and 2^(w-1) that it stands for. -/
theorem sext_eq_bmod {w x : Nat} (h : x < 2 ^ w) : sext w x = BitVec.ofInt 64 ((x : Int).bmod (2 ^ w)) := by
  have hpow : 0 < w → 2 ^ w = 2 * 2 ^ (w - 1) := fun hw => (mul_pow_sub_one hw.ne' 2).symm
  have hsmall : x < 2 ^ (w - 1) ↔ x < (2 ^ w + 1) / 2 := by
    rcases Nat.eq_zero_or_pos w with rfl | hw
    · simp
    · rw [hpow hw]; omega
  unfold sext
  rw [Int.bmod_def, Int.emod_eq_of_lt (by omega) (by exact_mod_cast h)]
  by_cases hx : x < 2 ^ (w - 1)
  · rw [if_pos hx, if_pos (by exact_mod_cast hsmall.1 hx)]
    exact (BitVec.ofInt_natCast 64 x).symm
  · rw [if_neg hx, if_neg (by exact_mod_cast fun h => hx (hsmall.2 h))]
    simp

theorem sext_toNat {w : Nat} (x : BitVec w) : sext w x.toNat = x.signExtend 64 := by
  rw [sext_eq_bmod x.isLt, BitVec.signExtend, BitVec.toInt_eq_toNat_bmod]

theorem toNat_append_eq_add {v w : Nat} (x : BitVec v) (f : BitVec w) : (x ++ f).toNat = f.toNat + x.toNat * 2 ^ w := by
  rw [BitVec.toNat_append, ← Nat.shiftLeft_add_eq_or_of_lt f.isLt, Nat.shiftLeft_eq, Nat.add_comm]

theorem imm_nil {w : Nat} (f : BitVec w) : imm f [] = f.signExtend 64 := sext_toNat f

/-- An L word supplies the bits above the field. -/
theorem imm_cons {w : Nat} (f : BitVec w) (x : LWord) (l : List LWord) : imm f (x :: l) = imm (x ++ f) l := by
  unfold imm
  simp only [joinExt, toNat_append_eq_add, Nat.add_comm w 27]

/-! ### Results on 64 bits -/

theorem ofInt_n64 (w : Nat) (a : DWord) : BitVec.ofInt w (n64 a) = a.setWidth w := by
  rw [BitVec.ofInt_natCast, n64, BitVec.ofNat_toNat]

theorem fnAdd_eq (a b : DWord) : fnAdd a b = BitVec.ofNat 64 (n64 a + n64 b) := rfl

theorem fnSub_eq (a b : DWord) : fnSub a b = BitVec.ofInt 64 (n64 a - n64 b) := by
  rw [Int.sub_eq_add_neg, BitVec.ofInt_add, BitVec.ofInt_neg, ofInt_n64, ofInt_n64, ← BitVec.sub_eq_add_neg]
  simp only [BitVec.setWidth_eq]; rfl

theorem fnMul_eq (a b : DWord) : fnMul a b = BitVec.ofNat 64 (n64 a * n64 b) := rfl

theorem fnMulh_eq (a b : DWord) : fnMulh a b = BitVec.ofInt 64 (s64 a * s64 b / 2 ^ 64) := by
  unfold fnMulh s64
  apply BitVec.eq_of_toNat_eq
  rw [BitVec.extractLsb'_toNat, BitVec.toNat_ofInt, BitVec.toNat_ofInt, Nat.shiftRight_eq_div_pow]
  omega

theorem fnMulhn_eq (a b : DWord) : fnMulhn a b = BitVec.ofNat 64 (n64 a * n64 b / 2 ^ 64) := by
  unfold fnMulhn n64
  apply BitVec.eq_of_toNat_eq
  rw [BitVec.extractLsb'_toNat, BitVec.toNat_ofNat, BitVec.toNat_ofNat, Nat.shiftRight_eq_div_pow,
    Nat.mod_eq_of_lt (Nat.mul_lt_mul'' a.isLt b.isLt |>.trans_eq (by norm_num))]

/-- The signed quotient of the least integer by -1 is the least integer again, and leaves no remainder (R142). -/
theorem divRem_signed_eq (a b : DWord) : divRem false a b = specDiv false a b := by
  have hrem (x y : Int) : x.tmod y = x - x.tdiv y * y := by rw [Int.tmod_def, Int.mul_comm]
  have hmin : (s64 a == -2 ^ 63 && s64 b == -1) = true ↔ a = BitVec.intMin 64 ∧ b = BitVec.allOnes 64 := by
    simp only [Bool.and_eq_true, beq_iff_eq, s64, ← BitVec.toInt_inj]
    rfl
  unfold divRem specDiv
  simp only [Bool.not_false, Bool.true_and, Bool.false_eq_true, if_false, hmin, hrem]
  rfl

theorem divRem_natural_eq (a b : DWord) : divRem true a b = specDiv true a b := by
  have hquot : BitVec.ofInt 64 ((n64 a : Int).tdiv (n64 b)) = a / b := BitVec.eq_of_toNat_eq <| by
    rw [← Int.ofNat_tdiv, BitVec.ofInt_natCast, BitVec.toNat_ofNat, BitVec.toNat_udiv]
    exact Nat.mod_eq_of_lt ((Nat.div_le_self ..).trans_lt a.isLt)
  have hrem : BitVec.ofInt 64 (n64 a - (n64 a : Int).tdiv (n64 b) * n64 b) = a % b := BitVec.eq_of_toNat_eq <| by
    rw [Int.mul_comm, ← Int.tmod_def, ← Int.ofNat_tmod, BitVec.ofInt_natCast, BitVec.toNat_ofNat, BitVec.toNat_umod]
    exact Nat.mod_eq_of_lt ((Nat.mod_le ..).trans_lt a.isLt)
  unfold divRem specDiv
  simp only [Bool.not_true, Bool.false_and, Bool.false_eq_true, if_false, if_true, hrem, hquot]

theorem fnDiv_eq (a b : DWord) : fnDiv a b = (specDiv false a b).1 := congrArg Prod.fst (divRem_signed_eq a b)
theorem fnRem_eq (a b : DWord) : fnRem a b = (specDiv false a b).2 := congrArg Prod.snd (divRem_signed_eq a b)
theorem fnDivn_eq (a b : DWord) : fnDivn a b = (specDiv true a b).1 := congrArg Prod.fst (divRem_natural_eq a b)
theorem fnRemn_eq (a b : DWord) : fnRemn a b = (specDiv true a b).2 := congrArg Prod.snd (divRem_natural_eq a b)

theorem fnShl_eq (a b : DWord) : fnShl a b = BitVec.ofNat 64 (n64 a * 2 ^ (n64 b % 64)) := by
  apply BitVec.eq_of_toNat_eq
  rw [fnShl, BitVec.toNat_shiftLeft, BitVec.toNat_ofNat, Nat.shiftLeft_eq]; rfl

theorem fnShr_eq (a b : DWord) : fnShr a b = BitVec.ofNat 64 (n64 a / 2 ^ (n64 b % 64)) := by
  apply BitVec.eq_of_toNat_eq
  rw [fnShr, BitVec.toNat_ushiftRight, BitVec.toNat_ofNat, Nat.shiftRight_eq_div_pow]
  exact (Nat.mod_eq_of_lt ((Nat.div_le_self ..).trans_lt a.isLt)).symm

theorem fnShra_eq (a b : DWord) : fnShra a b = BitVec.ofInt 64 (s64 a / 2 ^ (n64 b % 64)) := by
  rw [fnShra, BitVec.sshiftRight, Int.shiftRight_eq_div_pow]; rfl

/-- Where a choice between two words does not matter when their keys are equal, it may be made by < or by ≤. -/
theorem ite_lt_eq_ite_le {α : Type} [LinearOrder α] {m n : α} {x y : DWord} (h : m = n → x = y) :
    (if m < n then x else y) = if m ≤ n then x else y := by
  rcases lt_trichotomy m n with hlt | heq | hgt
  · rw [if_pos hlt, if_pos hlt.le]
  · rw [h heq, ite_self, ite_self]
  · rw [if_neg hgt.asymm, if_neg hgt.not_ge]

theorem fnMin_eq (a b : DWord) : fnMin a b = if s64 a ≤ s64 b then a else b := by
  simp only [fnMin, BitVec.slt_iff_toInt_lt]
  exact ite_lt_eq_ite_le BitVec.eq_of_toInt_eq

theorem fnMax_eq (a b : DWord) : fnMax a b = if s64 a ≤ s64 b then b else a := by
  simp only [fnMax, BitVec.slt_iff_toInt_lt]
  exact ite_lt_eq_ite_le fun h => (BitVec.eq_of_toInt_eq h).symm

theorem fnMinn_eq (a b : DWord) : fnMinn a b = if n64 a ≤ n64 b then a else b := by
  simp only [fnMinn, BitVec.ult_iff_toNat_lt]
  exact ite_lt_eq_ite_le BitVec.eq_of_toNat_eq

theorem fnMaxn_eq (a b : DWord) : fnMaxn a b = if n64 a ≤ n64 b then b else a := by
  simp only [fnMaxn, BitVec.ult_iff_toNat_lt]
  exact ite_lt_eq_ite_le fun h => (BitVec.eq_of_toNat_eq h).symm

/-! ### Results on 32 bits (R141) -/

/-- A 32-bit result is the sign-extended low word of an integer when it is the integer modulo 2^32. -/
theorem w64_eq_wx (x : Int) : w64 x = wx (BitVec.ofInt 32 x) := by
  rw [w64, wx, BitVec.signExtend, BitVec.toInt_ofInt]

theorem bmod_s64 (a : DWord) : (s64 a).bmod (2 ^ 32) = (a.setWidth 32).toInt := by
  rw [← ofInt_n64, BitVec.toInt_ofInt, s64, BitVec.toInt_eq_toNat_bmod]
  exact Int.bmod_bmod_of_dvd (by decide)

theorem fnAddw_eq (a b : DWord) : fnAddw a b = w64 (n64 a + n64 b) := by
  rw [w64_eq_wx, BitVec.ofInt_add, ofInt_n64, ofInt_n64]; rfl

theorem fnSubw_eq (a b : DWord) : fnSubw a b = w64 (n64 a - n64 b) := by
  rw [w64_eq_wx, Int.sub_eq_add_neg, BitVec.ofInt_add, BitVec.ofInt_neg, ofInt_n64, ofInt_n64, ← BitVec.sub_eq_add_neg]; rfl

theorem fnMulw_eq (a b : DWord) : fnMulw a b = w64 (n64 a * n64 b) := by
  rw [w64_eq_wx, BitVec.ofInt_mul, ofInt_n64, ofInt_n64]; rfl

theorem fnShlw_eq (a b : DWord) : fnShlw a b = w64 (n64 a * 2 ^ (n64 b % 32)) := by
  have hcast : (n64 a * 2 ^ (n64 b % 32) : Int) = ((n64 a * 2 ^ (n64 b % 32) : Nat) : Int) := by push_cast; rfl
  rw [w64_eq_wx, hcast, BitVec.ofInt_natCast, fnShlw]
  congr 1
  apply BitVec.eq_of_toNat_eq
  rw [BitVec.toNat_shiftLeft, BitVec.toNat_ofNat, BitVec.toNat_setWidth, Nat.shiftLeft_eq, Nat.mod_mul_mod]
  rfl

theorem fnShrw_eq (a b : DWord) : fnShrw a b = w64 (n64 a % 2 ^ 32 / 2 ^ (n64 b % 32) : Nat) := by
  rw [w64_eq_wx, BitVec.ofInt_natCast, fnShrw]
  congr 1
  apply BitVec.eq_of_toNat_eq
  rw [BitVec.toNat_ushiftRight, BitVec.toNat_ofNat, BitVec.toNat_setWidth, Nat.shiftRight_eq_div_pow]
  exact (Nat.mod_eq_of_lt ((Nat.div_le_self ..).trans_lt (Nat.mod_lt _ (by decide)))).symm

theorem fnShraw_eq (a b : DWord) : fnShraw a b = w64 ((s64 a).bmod (2 ^ 32) / 2 ^ (n64 b % 32)) := by
  rw [w64_eq_wx, bmod_s64, fnShraw, BitVec.sshiftRight, Int.shiftRight_eq_div_pow]; rfl

/-! ### Bit fields (R143) -/

theorem fieldPos_eq (b : DWord) : fieldPos b = specPos b := rfl
theorem fieldLen_eq (b : DWord) : fieldLen b = specTop b - specPos b := rfl

/-! ### The words -/

/-- The register form of an S operation posts its result where its guard holds, and does nothing where it does not. -/
theorem aluR_spec (f : DWord → DWord → DWord) (bound : Nat) (d a b : Reg) (p : Reg3) (s : State) :
    ∃ t, aluR f bound d a b p s = .next t ∧
      if s.me.readP p then Posts s t bound (.g d (f (s.me.readG a) (s.me.readG b))) else t = s := by
  refine ⟨_, rfl, ?_⟩
  split
  · exact posts_write s ..
  · rfl

theorem aluI_spec (f : DWord → DWord → DWord) (bound : Nat) (d a : Reg) (i : BitVec 10) (ext : List LWord) (s : State) :
    ∃ t, aluI f bound d a i ext s = .next t ∧ Posts s t bound (.g d (f (s.me.readG a) (imm i ext))) :=
  ⟨_, rfl, posts_write s ..⟩

/-- Both forms of a row of Table COR-3 write the row's result. -/
def MeetsRow (r : ScalarRow) : Prop :=
  (∀ (d a b : Reg) (p : Reg3) (s : State), ∃ t, exec (r.reg d a b p) s = .next t ∧
    if s.me.readP p then Posts s t r.bound (.g d (r.fn (s.me.readG a) (s.me.readG b))) else t = s) ∧
  ∀ (d a : Reg) (i : BitVec 10) (ext : List LWord) (s : State), ∃ t, exec (r.imm d a i ext) s = .next t ∧
    Posts s t r.bound (.g d (r.fn (s.me.readG a) (imm i ext)))

/-- A row whose forms are those of one function of the model meets the table when that function is the row's. -/
theorem meetsRow_of_eq {r : ScalarRow} {f : DWord → DWord → DWord} (hf : ∀ a b, f a b = r.fn a b)
    (hreg : ∀ d a b p s, exec (r.reg d a b p) s = aluR f r.bound d a b p s := by intros; rfl)
    (himm : ∀ d a i ext s, exec (r.imm d a i ext) s = aluI f r.bound d a i ext s := by intros; rfl) : MeetsRow r := by
  obtain rfl : f = r.fn := funext fun a => funext (hf a)
  exact ⟨fun d a b p s => hreg d a b p s ▸ aluR_spec .., fun d a i ext s => himm d a i ext s ▸ aluI_spec ..⟩

end Sys2Proof.Machine
end

section
open Sys2Proof Sys2Proof.Machine

/-- Settles O1: each row of Table COR-3 is one function of the model in both forms, and a long immediate is the sign extension
of its field under its L words. -/
theorem scalarForms : Obligations.ScalarForms := by
  unfold Obligations.ScalarForms
  have hrows : ∀ r ∈ scalarRows, MeetsRow r := by
    unfold scalarRows
    simp only [List.forall_mem_cons]
    exact ⟨meetsRow_of_eq fnAdd_eq, meetsRow_of_eq fnSub_eq, meetsRow_of_eq fnMul_eq, meetsRow_of_eq fnMulh_eq,
      meetsRow_of_eq fnMulhn_eq, meetsRow_of_eq fnDiv_eq, meetsRow_of_eq fnDivn_eq, meetsRow_of_eq fnRem_eq,
      meetsRow_of_eq fnRemn_eq, meetsRow_of_eq fnAddw_eq, meetsRow_of_eq fnSubw_eq, meetsRow_of_eq fnMulw_eq,
      meetsRow_of_eq (f := fnAnd) fun _ _ => rfl, meetsRow_of_eq (f := fnOr) fun _ _ => rfl,
      meetsRow_of_eq (f := fnXor) fun _ _ => rfl, meetsRow_of_eq (f := fnAndn) fun _ _ => rfl, meetsRow_of_eq fnShl_eq,
      meetsRow_of_eq fnShr_eq, meetsRow_of_eq fnShra_eq, meetsRow_of_eq fnShlw_eq, meetsRow_of_eq fnShrw_eq,
      meetsRow_of_eq fnShraw_eq, meetsRow_of_eq fnMin_eq, meetsRow_of_eq fnMax_eq, meetsRow_of_eq fnMinn_eq,
      meetsRow_of_eq fnMaxn_eq, meetsRow_of_eq (f := fnBfx) fun _ _ => rfl, List.forall_mem_nil _⟩
  refine ⟨fun r hr => (hrows r hr).1, fun r hr => (hrows r hr).2, fun w f x y _ => ⟨imm_nil f, ?_, ?_⟩⟩
  · rw [imm_cons, imm_nil]
  · rw [imm_cons, imm_cons, imm_nil]
end

section
/-! Single-operand words, BFI, CMP and PLOG (R143 to R145): the bits and tests that Tables COR-3 and COR-4 give. -/
namespace Sys2Proof.Machine

/-! ### Counts of bits -/

/-- The prefix of the first n numbers that a test holds of ends where it first fails. -/
theorem length_takeWhile_range {p : Nat → Bool} {n k : Nat} (hk : k ≤ n) (hp : ∀ i < k, p i = true) (hstop : k < n → p k = false) :
    ((List.range n).takeWhile p).length = k := by
  obtain ⟨m, rfl⟩ := Nat.exists_eq_add_of_le hk
  rw [List.range_add, List.takeWhile_append_of_pos fun i hi => hp i (List.mem_range.1 hi), List.length_append, List.length_range]
  cases m with
  | zero => rfl
  | succ m => simp [List.range_succ_eq_map, hstop (by omega)]

theorem clz64_eq (a : DWord) : clz64 a = BitVec.ofNat 64 (specClz a) := by
  unfold clz64 specClz
  congr 1
  symm
  by_cases ha : a = 0
  · rw [if_pos ha]
    exact length_takeWhile_range le_rfl (fun i _ => by simp [ha]) fun h => absurd h (lt_irrefl _)
  · have hne : a.toNat ≠ 0 := fun h => ha (BitVec.eq_of_toNat_eq h)
    have hlog : a.toNat.log2 < 64 := (Nat.log2_lt hne).2 a.isLt
    rw [if_neg ha]
    refine length_takeWhile_range (by omega) (fun i hi => ?_) fun _ => ?_
    · have hlt : a.toNat < 2 ^ (63 - i) := (Nat.log2_lt hne).1 (by omega)
      rw [BitVec.getLsbD, Nat.testBit_lt_two_pow hlt]; rfl
    · rw [BitVec.getLsbD, Nat.sub_sub_self (by omega), Nat.testBit_log2 hne]; rfl

theorem popc64_eq (a : DWord) : popc64 a = BitVec.ofNat 64 (specPopc a) := by
  rw [popc64, specPopc, List.countP_eq_length_filter]

/-! ### BFI -/

/-- BFI's register holds the low bits of a in the field, and the old bits beside it. -/
theorem getLsbD_bitInsert (old a b : DWord) {j : Nat} (hj : j < 64) : (bitInsert old a b).getLsbD j =
    if specPos b ≤ j ∧ j < specTop b then a.getLsbD (j - specPos b) else old.getLsbD j := by
  have hpos : specPos b < 64 := Nat.mod_lt _ (by decide)
  have hmask : (BitVec.ofNat 64 ((2 ^ fieldLen b - 1) * 2 ^ fieldPos b)).getLsbD j = decide (specPos b ≤ j ∧ j < specTop b) := by
    have hlen : fieldLen b = specTop b - specPos b := rfl
    have htop : specPos b ≤ specTop b := by unfold specTop; omega
    rw [BitVec.getLsbD_ofNat, Nat.testBit_mul_two_pow, Nat.testBit_two_pow_sub_one, hlen]
    simp only [hj, decide_true, Bool.true_and, ← Bool.decide_and]
    exact decide_eq_decide.2 (and_congr_right fun _ => by rw [fieldPos_eq] at *; omega)
  rw [bitInsert, BitVec.getLsbD_or, BitVec.getLsbD_and, BitVec.getLsbD_and, BitVec.getLsbD_not, hmask, BitVec.getLsbD_shiftLeft,
    fieldPos_eq]
  split
  · next h => simp [h, hj, h.1.not_gt]
  · next h => simp [h, hj]

/-! ### Compares -/

/-- Table COR-4 on words of one width. -/
theorem condTest_iff {w : Nat} (k : Cond) (a b : BitVec w) : condTest k a b = true ↔ match k with
    | .eq => a.toNat = b.toNat
    | .ne => a.toNat ≠ b.toNat
    | .lt => a.toInt < b.toInt
    | .ge => b.toInt ≤ a.toInt
    | .ltn => a.toNat < b.toNat
    | .gen => b.toNat ≤ a.toNat := by
  cases k <;> simp [condTest, BitVec.toNat_inj, BitVec.slt_iff_toInt_lt, BitVec.sle_iff_toInt_le, BitVec.ult_iff_toNat_lt,
    BitVec.ule_iff_toNat_le]

theorem cmpTest_iff (k : Cond) (w : Bool) (a b : DWord) : cmpTest k w a b = true ↔ specCmp k w a b := by
  cases w
  · exact condTest_iff k a b
  · rw [cmpTest, if_pos rfl, condTest_iff]
    simp only [← bmod_s64, BitVec.toNat_setWidth]
    cases k <;> rfl

theorem plogFn_iff (f : PFn) (x y : Bool) : plogFn f x y = true ↔ match f with
    | .and => x = true ∧ y = true
    | .or => x = true ∨ y = true
    | .xor => x ≠ y
    | .andn => x = true ∧ y = false := by
  cases f <;> simp [plogFn]
end Sys2Proof.Machine
end

section
open Sys2Proof Sys2Proof.Machine

/-- Settles O2: each word posts its write at bound 1, whose bits are those of the tables. -/
theorem singlesAndPredicates : Obligations.SinglesAndPredicates := by
  unfold Obligations.SinglesAndPredicates
  refine ⟨fun d a b p i ext s => ⟨rfl, ?clz, ?popc, ?bfi, ?bfiImm, ⟨_, rfl, posts_write s 1 _⟩⟩,
    fun p x y k w n a b i ext f s => ⟨?cmp, ?cmpImm, ?plog⟩⟩
  case clz => exact clz64_eq (s.me.readG a) ▸ aluR_spec (fun x _ => clz64 x) 1 d a 0 p s
  case popc => exact popc64_eq (s.me.readG a) ▸ aluR_spec (fun x _ => popc64 x) 1 d a 0 p s
  case bfi =>
    obtain ⟨t, ht, hposts⟩ := aluR_spec (bitInsert (s.me.readG d)) 1 d a b p s
    exact ⟨t, _, ht, hposts, fun j hj => getLsbD_bitInsert _ _ _ hj⟩
  case bfiImm =>
    obtain ⟨t, ht, hposts⟩ := aluI_spec (bitInsert (s.me.readG d)) 1 d a i ext s
    exact ⟨t, _, ht, hposts, fun j hj => getLsbD_bitInsert _ _ _ hj⟩
  case cmp => exact ⟨_, _, rfl, posts_write s 1 _, cmpTest_iff ..⟩
  case cmpImm => exact ⟨_, _, rfl, posts_write s 1 _, cmpTest_iff ..⟩
  case plog =>
    refine ⟨_, _, rfl, posts_write s 1 _, ?_⟩
    rw [Bool.bne_assoc, bne_self_eq_false, Bool.bne_false]
    exact plogFn_iff f ..
end

section
/-! Class B (R151 to R165): what each word asks of the core, and the checks that a member of a panel leaves to its lead. -/
namespace Sys2Proof.Machine

/-! ### Checks -/

theorem unlessFollow_ok {s : State} {c : Check} (h : c = .ok) : unlessFollow s c = .ok := by rw [h]; exact ite_self _
theorem unlessFollow_eq {s : State} (h : s.bun.follow = false) (c : Check) : unlessFollow s c = c := by
  rw [unlessFollow, h]; rfl

theorem write_bun (s : State) (b : Nat) (w : Write) : (s.write b w).bun = s.bun :=
  (congrArg State.bun (posts_write s b w).1.1.1 :)

/-- The upper half of a word index is zero exactly below 2^32. -/
theorem upperHalf_eq_zero_iff (x : DWord) : (x.extractLsb' 32 32 == 0) = true ↔ x.toNat < 2 ^ 32 := by
  rw [beq_iff_eq, ← BitVec.toNat_inj, BitVec.extractLsb'_toNat, Nat.shiftRight_eq_div_pow]
  have hlt := x.isLt
  simp only [BitVec.ofNat_eq_ofNat, BitVec.toNat_ofNat]
  omega

theorem exec_jr_eq (a : Reg) (s : State) :
    exec (.jr a) s = guarded (jrCheck a) (fun s => s.transferTo ((s.me.readG a).setWidth 32)) s := rfl

theorem exec_jr {s : State} {a : Reg} (h : (s.me.readG a).toNat < 2 ^ 32) :
    exec (.jr a) s = .next (s.transferTo ((s.me.readG a).setWidth 32)) :=
  (exec_jr_eq a s).trans <| guarded_ok (unlessFollow_ok (need_eq_ok ((upperHalf_eq_zero_iff _).2 h) _))

theorem exec_jr_outside {s : State} {a : Reg} (h : 2 ^ 32 ≤ (s.me.readG a).toNat) (hc : s.bun.checked = false)
    (hf : s.bun.follow = false) : exec (.jr a) s = .next (s.trapHere .fetchRange none none) := by
  refine (exec_jr_eq a s).trans (guarded_trap hc ?_)
  rw [jrCheck, unlessFollow_eq hf]
  exact need_eq_else (Bool.eq_false_iff.2 fun ht => ((upperHalf_eq_zero_iff _).1 ht).not_ge h) _

theorem gang_beq_false {s : State} (h : s.me.gang ≠ .ganged) : (s.me.gang == .ganged) = false := beq_eq_false_iff_ne.2 h

theorem exec_halt_eq (s : State) : exec .halt s = guarded haltCheck (fun s => s.onBun fun b => { b with halts := true }) s := rfl

theorem exec_halt {s : State} (h : s.me.gang ≠ .ganged) : exec .halt s = .next (s.onBun fun b => { b with halts := true }) :=
  (exec_halt_eq s).trans <| guarded_ok (need_eq_ok (by rw [gang_beq_false h]; rfl) _)

theorem exec_halt_ganged {s : State} (h : s.me.gang = .ganged) (hc : s.bun.checked = false) :
    exec .halt s = .next (s.trapHere .gangState none none) :=
  (exec_halt_eq s).trans <| guarded_trap hc (need_eq_else (by rw [h]; rfl) _)
end Sys2Proof.Machine
end

section
open Sys2Proof Sys2Proof.Machine

/-- Settles O9: each word changes the control words of its bundle alone, but for the link register of CALL. -/
theorem controlWords : Obligations.ControlWords := by
  unfold Obligations.ControlWords
  refine ⟨fun p n d j a s => ⟨?br, ⟨_, rfl, rfl, rfl⟩, ⟨_, rfl, ?callPosts, ?callBun⟩, fun h => ⟨_, exec_jr h, rfl, rfl⟩,
      fun h hc hf => exec_jr_outside h hc hf⟩,
    fun n k s => ⟨⟨_, rfl, rfl, rfl⟩, ?yield, fun h => ⟨_, exec_halt h, rfl, rfl⟩, fun h hc => exec_halt_ganged h hc,
      ⟨_, rfl, rfl, rfl⟩⟩⟩
  case br =>
    refine ⟨_, rfl, ?_⟩
    split
    · exact ⟨rfl, rfl⟩
    · exact ⟨rfl, rfl⟩
  case callPosts =>
    rw [← write_bun s 1 (.g linkReg (s.after.setWidth 64))]
    exact posts_write s 1 _
  case callBun =>
    exact congrArg (fun b : Bundle => { b with target := some (s.disp j) }) (write_bun s 1 _)
  case yield =>
    refine ⟨_, rfl, ?_⟩
    by_cases h : s.me.gang = .ganged
    · simp [h, OnlyBundle]
    · simp [h, OnlyBundle, State.onBun]
end

section
/-! Loop setups (R153, R155, R156). -/
namespace Sys2Proof.Machine

theorem sets_endLoop (s : State) (l : Bool) :
    SetsLoops s (s.onMe (·.endLoop l)) l { s.me.loop l with act := false } (otherAfter s.me l) := by
  refine ⟨onlyMe_onMe .., rfl, ?_, ?_, ?_⟩ <;> rw [State.me_onMe]
  · exact onlyLoops_endLoop s.me l
  · exact Strand.loop_endLoop_same ..
  · exact Strand.loop_endLoop_other ..

theorem exec_lset_eq (l : Bool) (g : Reg) (e : BitVec 16) (s : State) : exec (.lset l g e) s =
    guarded (fun s => loopCheck l (s.me.readG g) e.toNat s) (fun s => loopSet l (s.me.readG g) e.toNat s) s := rfl
theorem exec_lseti_eq (l : Bool) (n : BitVec 12) (e : BitVec 9) (s : State) : exec (.lseti l n e) s =
    guarded (loopCheck l (n.setWidth 64) e.toNat) (loopSet l (n.setWidth 64) e.toNat) s := rfl

/-- What a loop setup leaves: the loop nested in the old one ended with it, and the new one is set or its body skipped. -/
theorem loopSetup_loopSet (s : State) (l : Bool) (n : DWord) (e : Nat) : LoopSetup s (loopSet l n e s) l n e := by
  unfold LoopSetup loopSet
  by_cases hn : n = 0
  · rw [if_pos hn, if_pos hn]
    exact ⟨sets_endLoop s l, rfl⟩
  · rw [if_neg hn, if_neg hn]
    refine ⟨onlyMe_onMe2 .., rfl, ?_, ?_, ?_⟩ <;> rw [State.me_onMe, State.me_onMe]
    · exact (onlyLoops_endLoop s.me l).trans (onlyLoops_setLoop ..)
    · rw [Strand.loop_setLoop_same, Strand.loop_endLoop_other]; rfl
    · rw [Strand.loop_setLoop_other, Strand.loop_endLoop_other]

/-! ### Checks of a setup -/

/-- The test of R153 against the other loop. -/
theorem loopConflict_iff (s : State) (l : Bool) (e : Nat) :
    (!((s.me.loop !l).act && ((s.me.loop !l).stop.toNat < s.bun.first.toNat + e || s.bun.first.toNat < (s.me.loop !l).start.toNat)))
      = false ↔ loopConflict s l e := by
  rw [Bool.not_eq_false', Bool.and_eq_true, Bool.or_eq_true, decide_eq_true_iff, decide_eq_true_iff]
  rfl

theorem loopCheck_ok {s : State} {l : Bool} {n : DWord} {e : Nat} (h : loopFits s l n e) : loopCheck l n e s = .ok := by
  obtain ⟨hlen, hcount, hother⟩ := h
  refine unlessFollow_ok ?_
  rw [need_eq_ok (decide_eq_true hlen), Check.ok_and, need_eq_ok (decide_eq_true hcount), Check.ok_and]
  exact need_eq_ok (Bool.of_not_eq_false fun hf => hother ((loopConflict_iff s l e).1 hf)) _

theorem loopCheck_short {s : State} {l : Bool} {n : DWord} {e : Nat} (hf : s.bun.follow = false) (h : e < s.bun.len) :
    loopCheck l n e s = .trap .illegal none none := by
  rw [loopCheck, unlessFollow_eq hf, need_eq_else (decide_eq_false h.not_ge)]; rfl

theorem loopCheck_range {s : State} {l : Bool} {n : DWord} {e : Nat} (hf : s.bun.follow = false) (hlen : s.bun.len ≤ e)
    (h : 0xFFFFFFFF < n.toNat ∨ loopConflict s l e) : loopCheck l n e s = .trap .loopRange none none := by
  rw [loopCheck, unlessFollow_eq hf, need_eq_ok (decide_eq_true hlen), Check.ok_and]
  by_cases hn : n.toNat ≤ 0xFFFFFFFF
  · rw [need_eq_ok (decide_eq_true hn), Check.ok_and]
    exact need_eq_else ((loopConflict_iff s l e).2 (h.resolve_left hn.not_gt)) _
  · rw [need_eq_else (decide_eq_false hn)]; rfl
end Sys2Proof.Machine
end

section
open Sys2Proof Sys2Proof.Machine

/-- Settles O10: the checks of a setup are those of R153, and a setup that passes them leaves the loops of `LoopSetup`. -/
theorem loopWords : Obligations.LoopWords := by
  unfold Obligations.LoopWords
  intro l g e c e' s
  rw [exec_lset_eq, exec_lseti_eq]
  refine ⟨fun h => ⟨_, guarded_ok (loopCheck_ok h), loopSetup_loopSet ..⟩,
    fun h => ⟨_, guarded_ok (loopCheck_ok h), loopSetup_loopSet ..⟩,
    fun hc hf h => guarded_trap hc (loopCheck_short hf h), fun hc hf h => guarded_trap hc (loopCheck_short hf h),
    fun hc hf hlen h => guarded_trap hc (loopCheck_range hf hlen h),
    fun hc hf hlen h => guarded_trap hc (loopCheck_range hf hlen (.inr h)), ⟨_, rfl, ?_⟩⟩
  split
  · exact sets_endLoop s l
  · rfl
end

section
/-! NODE and SELS (R158, R159, R297, R298). -/
namespace Sys2Proof.Machine

/-! ### NODE -/

/-- What NODE does to its strand: the node it is in ends, and it enters another. -/
def Strand.enterNode (x : Strand) (r : NodeRun) : Strand := { x.endNode with node := some r }

theorem Strand.enterNode_frame (x : Strand) (r : NodeRun) : { x.enterNode r with node := x.node, ended := x.ended } = x := by
  cases h : x.node <;> simp [enterNode, endNode, h] <;> rw [← h]

theorem Strand.enterNode_ended (x : Strand) (r : NodeRun) :
    (x.enterNode r).ended = (match x.node with | none => x.ended | some q => q.index :: x.ended) := by
  cases h : x.node <;> simp [enterNode, endNode, h]

/-- The node that NODE enters in this cc, with the bound of its first schedule entry. -/
def State.nodeRun (s : State) (n : BitVec 22) (e : NodeEntry) : NodeRun :=
  ⟨n, BitVec.ofNat 32 e.entry, s.cc, ((s.image s.bun.tile).schedEntry e.sched 0).2.1, none, false⟩

/-- The state that NODE leaves. -/
def State.entered (s : State) (r : NodeRun) : State :=
  (s.onMe fun x => x.enterNode r).sched (s.cc + r.bound) 12 (.overrun s.bun.tile s.bun.strand)

theorem exec_node_eq (n : BitVec 22) (s : State) : exec (.node n) s = guarded (nodeCheck n) (fun s =>
    match (s.image s.bun.tile).nodeOf n.toNat with | none => s | some e => s.entered (s.nodeRun n e)) s := rfl

theorem nodeCheck_of_some {s : State} {n : BitVec 22} {e : NodeEntry} (hf : s.bun.follow = false)
    (h : (s.image s.bun.tile).nodeOf n.toNat = some e) : nodeCheck n s = need (e.preds.all s.me.nodeDone) (.plain .predecessor) := by
  rw [nodeCheck, unlessFollow_eq hf, h]

theorem nodeCheck_of_none {s : State} {n : BitVec 22} (hf : s.bun.follow = false)
    (h : (s.image s.bun.tile).nodeOf n.toNat = none) : nodeCheck n s = .trap .nodeRange none none := by
  rw [nodeCheck, unlessFollow_eq hf, h]; rfl

theorem exec_node {s : State} {n : BitVec 22} {e : NodeEntry} (hf : s.bun.follow = false)
    (h : (s.image s.bun.tile).nodeOf n.toNat = some e) (hp : ∀ p ∈ e.preds, s.me.nodeDone p = true) :
    exec (.node n) s = .next (s.entered (s.nodeRun n e)) := by
  rw [exec_node_eq, guarded_ok ((nodeCheck_of_some hf h).trans (need_eq_ok (List.all_eq_true.2 hp) _)), h]

/-! ### SELS -/

/-- The rows of a schedule table that SELS looks at. -/
def Image.rows (g : Image) (table : Nat) : List (Word × Nat × Nat) := (List.range (g.schedCount table)).map (g.schedEntry table)

/-- The node of a strand that SELS has given a schedule of this bound. -/
def NodeRun.rebound (r : NodeRun) (bound cc : Nat) : NodeRun := { r with bound, late := r.late && r.since + bound ≤ cc }

/-- A strand in a node takes the bound of the schedule that SELS found. -/
def State.rebound (s : State) (bound : Nat) : State :=
  match s.me.node with
  | none => s
  | some r => (s.onMe fun x => { x with node := some (r.rebound bound s.cc) }).sched (max (s.cc + 1) (r.since + bound)) 12
      (.overrun s.bun.tile s.bun.strand)

theorem exec_sels_eq (g : Reg) (d : BitVec 17) (s : State) : exec (.sels g d) s = guarded (selsCheck g d) (fun s =>
    match (s.image s.bun.tile).fitting (s.disp d).toNat (s.me.readG g) with
    | none => s
    | some e => (s.rebound e.2.1).transferTo e.1) s := rfl

theorem fitting_eq (g : Image) (table : Nat) (size : DWord) :
    g.fitting table size = (g.rows table).find? fun e => size.toNat ≤ e.2.2 := rfl

theorem exec_sels {s : State} {g : Reg} {d : BitVec 17} {e : Word × Nat × Nat} (hf : s.bun.follow = false)
    (h : (s.image s.bun.tile).fitting (s.disp d).toNat (s.me.readG g) = some e) :
    exec (.sels g d) s = .next ((s.rebound e.2.1).transferTo e.1) := by
  have hok : selsCheck g d s = .ok := by
    rw [selsCheck, unlessFollow_eq hf, h]
    exact need_eq_ok rfl _
  rw [exec_sels_eq, guarded_ok hok, h]

theorem exec_sels_none {s : State} {g : Reg} {d : BitVec 17} (hf : s.bun.follow = false) (hc : s.bun.checked = false)
    (h : (s.image s.bun.tile).fitting (s.disp d).toNat (s.me.readG g) = none) :
    exec (.sels g d) s = .next (s.trapHere .sizeClass none none) := by
  rw [exec_sels_eq]
  refine guarded_trap hc ?_
  rw [selsCheck, unlessFollow_eq hf, h]
  exact need_eq_else rfl _

/-- In a list whose keys rise the first element that passes a lower limit has the least key of those that do. -/
theorem least_of_find?_le {α : Type} {key : α → Nat} {l : List α} (hl : l.Pairwise fun a b => key a < key b) {n : Nat} {a : α}
    (h : l.find? (fun e => n ≤ key e) = some a) : ∀ b ∈ l, n ≤ key b → key a ≤ key b := by
  obtain ⟨_, as, bs, rfl, hbefore⟩ := List.find?_eq_some_iff_append.1 h
  intro b hb hn
  obtain ⟨-, hafter, -⟩ := List.pairwise_append.1 hl
  rcases List.mem_append.1 hb with hb | hb
  · exact absurd (decide_eq_true hn) (by simpa using hbefore b hb)
  · rcases List.mem_cons.1 hb with rfl | hb
    · exact le_rfl
    · exact (List.rel_of_pairwise_cons hafter hb).le

theorem rebound_bun (s : State) (bound : Nat) : (s.rebound bound).bun = s.bun := by
  unfold State.rebound; split <;> rfl

theorem onlyMe_rebound (s : State) (bound : Nat) : OnlyMe s (s.rebound bound) := by
  unfold State.rebound
  split
  · exact onlyMe_refl s
  · exact onlyMe_sched (onlyMe_onMe ..) ..

theorem sameBytes_rebound (s : State) (bound : Nat) : SameBytes s (s.rebound bound) := by
  unfold State.rebound
  split
  · exact sameBytes_refl s
  · exact sameBytes_sched (sameBytes_onMe ..) ..

/-- Of its strand SELS changes the node alone, which keeps its index and its start and takes the bound. -/
theorem me_rebound (s : State) (bound : Nat) :
    (s.rebound bound).me = { s.me with node := s.me.node.map (·.rebound bound s.cc) } := by
  unfold State.rebound
  cases h : s.me.node with
  | none => simp only [Option.map_none]; rw [← h]
  | some r => simp only [Option.map_some, State.me_sched, State.me_onMe]
end Sys2Proof.Machine
end

section
open Sys2Proof Sys2Proof.Machine

/-- Settles O12: a NODE that is let through leaves `State.entered`; SELS takes the first row that fits, which in a rising table
is the least. -/
theorem nodeWords : Obligations.NodeWords := by
  unfold Obligations.NodeWords
  refine ⟨fun n s hf => ⟨fun e he hp => ?enters, fun hc h => ?range, fun e hc he hp => ?held⟩,
    fun g d s hf => ⟨fun hfit hrise => ?fits, fun hc hnone => ?traps⟩⟩
  case enters =>
    refine ⟨_, s.nodeRun n e, exec_node hf he hp, onlyMe_sched (onlyMe_onMe ..) .., sameBytes_sched (sameBytes_onMe ..) .., ?_, ?_,
      rfl, rfl, rfl, rfl, insertKey_mem .., ?_⟩ <;> rw [State.entered, State.me_sched, State.me_onMe]
    · exact Strand.enterNode_frame ..
    · rfl
    · exact Strand.enterNode_ended ..
  case range => rw [exec_node_eq]; exact guarded_trap hc (nodeCheck_of_none hf h)
  case held =>
    obtain ⟨p, hmem, hdone⟩ := hp
    rw [exec_node_eq]
    refine guarded_trap hc ((nodeCheck_of_some hf he).trans (need_eq_else (List.all_eq_false.2 ⟨p, hmem, ?_⟩) _))
    rw [hdone]; exact Bool.false_ne_true
  case fits =>
    obtain ⟨r, hr, hle⟩ := hfit
    obtain ⟨e, he⟩ : ∃ e, (s.image s.bun.tile).fitting (s.disp d).toNat (s.me.readG g) = some e :=
      Option.isSome_iff_exists.1 (List.find?_isSome.2 ⟨r, hr, decide_eq_true hle⟩)
    have hfits := List.find?_some (he : List.find? _ _ = some e)
    refine ⟨_, e, List.mem_of_find?_eq_some he, exec_sels hf he, of_decide_eq_true hfits,
      least_of_find?_le hrise he, ?_, ?_, ?_, ?_, fun q hq => ⟨q.rebound e.2.1 s.cc, ?_, rfl, rfl, rfl⟩⟩
    · exact congrArg (fun b : Bundle => { b with target := some e.1 }) (rebound_bun s e.2.1)
    · change OnlyMe s { s.rebound e.2.1 with bun := s.bun }
      rw [← rebound_bun s e.2.1]
      exact onlyMe_rebound s e.2.1
    · exact sameBytes_rebound s e.2.1
    · change { (s.rebound e.2.1).me with node := s.me.node } = s.me
      rw [me_rebound]
    · change (s.rebound e.2.1).me.node = some (q.rebound e.2.1 s.cc)
      rw [me_rebound, hq]; rfl
  case traps =>
    exact exec_sels_none hf hc (List.find?_eq_none.2 fun r hr => by simpa using hnone r hr)
end

section
/-! GANG enter and exit (R163, R165, R207). -/
namespace Sys2Proof

theorem SMap.get_map_of_fixed {α : Type} {f : α → α} {d : α} (hd : f d = d) (m : SMap α) (k : Nat) :
    SMap.get d (m.map fun e => (e.1, f e.2)) k = f (SMap.get d m k) := by
  induction m with
  | nil => exact hd.symm
  | cons e m ih =>
    simp only [List.map_cons, SMap.get]
    split
    · rfl
    · exact ih

namespace Machine

/-! ### Enter -/

theorem exec_gangEnter_eq (s : State) : exec .gangEnter s =
    guarded gangEnterCheck (fun s => s.onMe fun x => { x with barPassed := SMap.del x.barPassed gangCode }) s := rfl

theorem gangEnterCheck_passed {s : State} (h : (SMap.find s.me.barPassed gangCode).isSome) : gangEnterCheck s = .ok := if_pos h

/-- A GANG enter that has not met its partners cannot: its cluster is degraded, or a strand of its tile is in a panel or waits
for one. -/
def gangBarred (s : State) : Bool :=
  (tilesOf s.myCluster).any (fun n => (s.tile n).retired) || s.me.gang == .ganged ||
    strandIds.any (fun k => k != s.bun.strand && ((s.strand s.bun.tile k).gang == .waiting ||
      (s.strand s.bun.tile k).gang == .ganged))

theorem gangEnterCheck_alone {s : State} (h : SMap.find s.me.barPassed gangCode = none) :
    gangEnterCheck s = if gangBarred s = true then .trap .gangState none none else .block .gang := by
  rw [gangEnterCheck, if_neg (by rw [h]; exact Bool.false_ne_true), ← Bool.not_or, ← Bool.not_or]
  change (need (!gangBarred s) _).and _ = _
  cases gangBarred s <;> rfl

/-! ### Panel faults of a strand -/

/-- Of t only the faults of strands, what cores wait for and the steps to come differ from s. -/
structure OnlyFaults (s t : State) : Prop where
  bun : t.bun = s.bun
  strand : ∀ n k, ∃ f, t.strand n k = { s.strand n k with faults := f }
  bytes : SameBytes s t

theorem OnlyFaults.refl (s : State) : OnlyFaults s s := ⟨rfl, fun n k => ⟨(s.strand n k).faults, rfl⟩, sameBytes_refl s⟩

theorem OnlyFaults.trans {s t u : State} (h : OnlyFaults s t) (g : OnlyFaults t u) : OnlyFaults s u where
  bun := g.bun.trans h.bun
  strand n k := by
    obtain ⟨f, hf⟩ := h.strand n k
    obtain ⟨f', hf'⟩ := g.strand n k
    exact ⟨f', by rw [hf', hf]⟩
  bytes := sameBytes_trans h.bytes g.bytes

theorem stir_cases (s : State) (n : Nat) :
    s.stir n = s ∨ ∃ a, s.stir n = s.onTile n fun x => { x with act := some a } := by
  unfold State.stir
  generalize s.cc + (if s.late then 1 else 0) = now
  dsimp only
  split
  · exact .inr ⟨now, rfl⟩
  · split
    · exact .inl rfl
    · exact .inr ⟨now, rfl⟩
  · exact .inl rfl

theorem stir_bun (s : State) (n : Nat) : (s.stir n).bun = s.bun := by
  obtain h | ⟨_, h⟩ := stir_cases s n <;> rw [h]
  rfl

theorem chain_stir (s : State) (n m : Nat) : ((s.stir n).tile m).chain = (s.tile m).chain := by
  obtain h | ⟨_, h⟩ := stir_cases s n <;> rw [h]
  rw [State.tile_onTile]
  split <;> simp_all

theorem onlyFaults_stir (s : State) (n : Nat) : OnlyFaults s (s.stir n) where
  bun := stir_bun s n
  strand m k := ⟨(s.strand m k).faults, (stirs_stir s n).strand m k⟩
  bytes := (stirs_stir s n).sameBytes

theorem onlyFaults_onStrand (s : State) (n k : Nat) (f : Strand → List (Nat × TrapInfo)) :
    OnlyFaults s (s.onStrand n k fun x => { x with faults := f x }) where
  bun := rfl
  strand m j := by
    rw [State.strand_onStrand]
    split
    · next h => obtain ⟨rfl, rfl⟩ := h; exact ⟨f (s.strand m j), rfl⟩
    · exact ⟨(s.strand m j).faults, rfl⟩
  bytes := sameBytes_onStrand ..

theorem onlyFaults_addFault (s : State) (n k due : Nat) (i : TrapInfo) : OnlyFaults s (s.addFault n k due i) := by
  have hput := onlyFaults_onStrand s n k fun x => x.faults ++ [(due, i)]
  unfold State.addFault
  dsimp only
  split
  · exact hput.trans (onlyFaults_stir ..)
  · exact hput.trans { OnlyFaults.refl _ with }

theorem onlyFaults_addPanelFault (s : State) (n k due : Nat) (i : TrapInfo) : OnlyFaults s (s.addPanelFault n k due i) := by
  unfold State.addPanelFault
  split
  · exact onlyFaults_addFault ..
  · split
    · exact .refl s
    · exact onlyFaults_onStrand ..

theorem onlyFaults_each {α : Type} {f : State → α → State} (hf : ∀ s x, OnlyFaults s (f s x)) (l : List α) (s : State) :
    OnlyFaults s (s.each l f) :=
  each_keeps OnlyFaults OnlyFaults.refl (fun _ _ _ => OnlyFaults.trans) l f hf s

theorem onlyFaults_scatterFault (s : State) (c due : Nat) (f : TrapInfo) : OnlyFaults s (s.scatterFault c due f) :=
  onlyFaults_each (fun _ _ => onlyFaults_addPanelFault ..) _ s

/-! ### Exit -/

/-- A held strand of a tile whose panel has ended is held no longer. -/
def Strand.unheld (x : Strand) : Strand := if x.gang == .held then { x with gang := .no } else x

/-- The strand has left its panel, and the panel's faults are its own where the lead leaves. -/
def State.gangLeft (s : State) : State :=
  let u := s.onMe fun x => { x with gang := .no, gangEnd := some x.seqs }
  if posOf s.bun.tile = 0 then
    u.each (((u.cluster (clusterOf s.bun.tile)).panel.map (·.traps)).getD []) fun u f => u.scatterFault (clusterOf s.bun.tile) f.1 f.2
  else u

theorem onlyFaults_gangLeft (s : State) :
    OnlyFaults (s.onMe fun x => { x with gang := .no, gangEnd := some x.seqs }) s.gangLeft := by
  unfold State.gangLeft
  dsimp only
  split
  · exact onlyFaults_each (fun _ _ => onlyFaults_scatterFault ..) _ _
  · exact .refl _

theorem gangLeft_of_member {s : State} (h : posOf s.bun.tile ≠ 0) :
    s.gangLeft = s.onMe fun x => { x with gang := .no, gangEnd := some x.seqs } := if_neg h

/-- The tile of a member that has left. -/
def Tile.ungang (x : Tile) : Tile := { x with chain := false, strands := x.strands.map fun y => (y.1, y.2.unheld) }

theorem strand_ungang (x : Tile) (k : Nat) : x.ungang.strand k = (x.strand k).unheld :=
  SMap.get_map_of_fixed (f := Strand.unheld) rfl x.strands k

/-- What GANG exit does, but for its cluster's panel. -/
theorem exitGang_eq (s : State) : ∃ f : Cluster → Cluster, (∀ x, (f x).store = x.store) ∧ s.exitGang =
    ((s.gangLeft.onTile s.bun.tile Tile.ungang).onCluster (clusterOf s.bun.tile) f).stir s.bun.tile := by
  refine ⟨_, fun x => ?_, rfl⟩
  split
  · rfl
  · split <;> rfl

theorem exitGang_bun (s : State) : s.exitGang.bun = s.bun := by
  obtain ⟨f, -, hexit⟩ := exitGang_eq s
  rw [hexit, stir_bun]
  exact (onlyFaults_gangLeft s).bun

theorem strand_exitGang (s : State) (k : Nat) :
    s.exitGang.strand s.bun.tile k = (s.gangLeft.strand s.bun.tile k).unheld := by
  obtain ⟨f, -, hexit⟩ := exitGang_eq s
  rw [hexit, (stirs_stir ..).strand, State.onCluster_strand, State.strand_onTile, if_pos rfl, strand_ungang]
  rfl

/-- The strand that leaves its panel: its faults may be those that the panel still had to take. -/
theorem me_exitGang (s : State) :
    s.exitGang.me = { s.me with gang := .no, gangEnd := some s.me.seqs, faults := s.gangLeft.me.faults } := by
  obtain ⟨f, hf⟩ := (onlyFaults_gangLeft s).strand s.bun.tile s.bun.strand
  have hleft : s.gangLeft.strand s.bun.tile s.bun.strand = { s.me with gang := .no, gangEnd := some s.me.seqs, faults := f } := by
    rw [hf, State.onMe, State.strand_onStrand_same]; rfl
  rw [State.me, exitGang_bun, strand_exitGang]
  have hfaults : s.gangLeft.me.faults = f := by
    rw [State.me, (onlyFaults_gangLeft s).bun]
    exact congrArg Strand.faults hleft
  rw [hleft, hfaults]
  rfl

theorem gang_exitGang_other (s : State) {k : Nat} (h : k ≠ s.bun.strand) : (s.exitGang.strand s.bun.tile k).gang =
    if (s.strand s.bun.tile k).gang = .held then .no else (s.strand s.bun.tile k).gang := by
  obtain ⟨f, hf⟩ := (onlyFaults_gangLeft s).strand s.bun.tile k
  have hsame : (s.gangLeft.strand s.bun.tile k).gang = (s.strand s.bun.tile k).gang := by
    rw [hf, State.onMe, State.strand_onStrand, if_neg fun hk => h hk.2]
  rw [strand_exitGang, ← hsame, Strand.unheld]
  simp only [beq_iff_eq]
  split <;> rfl

theorem sameBytes_exitGang (s : State) : SameBytes s s.exitGang := by
  obtain ⟨f, hstore, hexit⟩ := exitGang_eq s
  rw [hexit]
  refine sameBytes_trans ?_ (stirs_stir ..).sameBytes
  refine sameBytes_trans ?_ (sameBytes_onCluster _ _ _ hstore)
  refine sameBytes_trans ?_ (sameBytes_onTile _ _ _ fun _ => rfl)
  exact sameBytes_trans (sameBytes_onMe ..) (onlyFaults_gangLeft s).bytes

theorem chain_exitGang (s : State) : s.exitGang.myTile.chain = false := by
  obtain ⟨f, -, hexit⟩ := exitGang_eq s
  rw [State.myTile, exitGang_bun, hexit, chain_stir, State.onCluster_tile, State.tile_onTile_same]
  rfl

theorem exec_gangExit_eq (s : State) : exec .gangExit s = guarded gangExitCheck State.exitGang s := rfl

end Machine
end Sys2Proof
end

section
open Sys2Proof Sys2Proof.Machine

/-- Settles O13: a GANG enter that has met its partners forgets the meeting, and one that has not is checked; GANG exit leaves
`State.exitGang`. -/
theorem gangWords : Obligations.GangWords := by
  unfold Obligations.GangWords
  intro s
  refine ⟨fun h => ⟨_, (exec_gangEnter_eq s).trans (guarded_ok (gangEnterCheck_passed h)), onlyMe_onMe .., sameBytes_onMe .., ?_, ?_⟩,
    fun hc h => ?alone, fun h => ⟨_, (exec_gangExit_eq s).trans (guarded_ok (need_eq_ok (by rw [h]; rfl) _)), ?_, chain_exitGang s,
      sameBytes_exitGang s, ?_, ?_, fun hpos => ?member, fun k hk => gang_exitGang_other s hk⟩,
    fun h hc => (exec_gangExit_eq s).trans (guarded_trap hc (need_eq_else (gang_beq_false h) _))⟩
  case alone =>
    have hcheck := gangEnterCheck_alone h
    rw [exec_gangEnter_eq]
    split
    · next hb => exact guarded_trap hc (hcheck.trans (if_pos hb))
    · next hb => exact guarded_block hc (hcheck.trans (if_neg hb))
  case member =>
    rw [me_exitGang, gangLeft_of_member hpos, State.me_onMe]
  · rw [State.me_onMe]
  · rw [State.me_onMe]
  · rw [me_exitGang]
  · rw [me_exitGang]
  · rw [me_exitGang]
end

section
/-! Class M (R148 to R150): the words of Table COR-7 as loads and stores, their checks, and what they do in the scratchpad and in
the cluster store. -/
namespace Sys2Proof.Machine

/-! ### The words -/

theorem exec_load {r : LoadRow} (hr : r ∈ loadRows) (g b : Reg) (sp : MSpace) (i : BitVec 10) (ext : List LWord) (s : State) :
    exec (r.word g b sp i ext) s = load r.size r.sgn g b sp i ext s := by
  simp only [loadRows, List.mem_cons, List.not_mem_nil, or_false] at hr
  rcases hr with rfl | rfl | rfl | rfl | rfl | rfl | rfl <;> rfl

theorem exec_store {r : StoreRow} (hr : r ∈ storeRows) (g b : Reg) (sp : MSpace) (i : BitVec 10) (ext : List LWord) (s : State) :
    exec (r.word g b sp i ext) s = store r.size g b sp i ext s := by
  simp only [storeRows, List.mem_cons, List.not_mem_nil, or_false] at hr
  rcases hr with rfl | rfl | rfl | rfl <;> rfl

theorem loaded_eq_specLoaded (sgn : Bool) (bs : List Byte) : loaded sgn bs = specLoaded sgn bs := by
  unfold loaded specLoaded
  rw [sext_eq_bmod (leNat_lt bs)]

theorem leBytes_toNat_eq_specByte (n : Nat) (x : DWord) : leBytes n x.toNat = (List.range n).map (specByte x) := leBytes_eq ..

/-! ### Checks (R148, R85, R89, R104) -/

section
variable {s : State} {b : Reg} {n : Nat} {i : BitVec 10} {ext : List LWord}

theorem memCheck_misaligned (sp : MSpace) (h : (memAddr s b n i ext).toNat % n ≠ 0) :
    memCheck b n sp i ext s = .trap .align (some (memAddr s b n i ext)) none := by
  unfold memCheck
  dsimp only
  rw [need_eq_else (beq_eq_false_iff_ne.2 h)]; rfl

variable (h : (memAddr s b n i ext).toNat % n = 0)
include h

theorem memCheck_scratch : memCheck b n .scratch i ext s =
    need ((memAddr s b n i ext).toNat + n ≤ scratchSize) (.at_ .scratchRange (memAddr s b n i ext)) := by
  rw [memCheck, need_eq_ok (beq_iff_eq.2 h)]; rfl

theorem memCheck_store : memCheck b n .store i ext s = storeCheck s (memAddr s b n i ext) n := by
  rw [memCheck, need_eq_ok (beq_iff_eq.2 h)]; rfl

theorem memCheck_global : memCheck b n .global i ext s = globalCheck s (memAddr s b n i ext) := by
  rw [memCheck, need_eq_ok (beq_iff_eq.2 h)]; rfl

end

theorem storeCheck_busy {s : State} {ea : DWord} {n : Nat} (h : (s.cluster s.myCluster).busy = true) :
    storeCheck s ea n = .trap .splitBusy (some ea) none := by
  rw [storeCheck, need_eq_else (by rw [h]; rfl)]; rfl

theorem storeCheck_idle {s : State} {ea : DWord} {n : Nat} (h : (s.cluster s.myCluster).busy = false) :
    storeCheck s ea n = need (ea.toNat + n ≤ (16 - (s.cluster s.myCluster).cw) * 0x400000) (.at_ .storeRange ea) := by
  rw [storeCheck, need_eq_ok (by rw [h]; rfl)]; rfl

theorem globalCheck_full {s : State} {ea : DWord} (h : s.coreXlate s.bun.tile ea = .full) : globalCheck s ea = .block .walkQueue :=
  need_eq_else (by rw [h]; rfl) _

theorem globalCheck_ok {s : State} {ea : DWord} (h : s.coreXlate s.bun.tile ea ≠ .full) : globalCheck s ea = .ok :=
  need_eq_ok (bne_iff_ne.2 h) _

/-- The checks of a store to the scratchpad or the cluster store are those of any M word. -/
theorem memStCheck_eq {sp : MSpace} (h : sp ≠ .global) (b : Reg) (n : Nat) (i : BitVec 10) (ext : List LWord) (s : State) :
    memStCheck b n sp i ext s = memCheck b n sp i ext s := by
  have hsp : (sp == .global) = false := beq_eq_false_iff_ne.2 h
  rw [memStCheck, hsp]
  cases memCheck b n sp i ext s <;> rfl

/-- A store whose own checks fail fails by them. -/
theorem memStCheck_of_ne_ok {b : Reg} {n : Nat} {sp : MSpace} {i : BitVec 10} {ext : List LWord} {s : State}
    (h : memCheck b n sp i ext s ≠ .ok) : memStCheck b n sp i ext s = memCheck b n sp i ext s := by
  unfold memStCheck
  cases hc : memCheck b n sp i ext s with
  | ok => exact absurd hc h
  | trap => rfl
  | block => rfl

/-- A word of Table COR-7 and its size. -/
def MemWord (w : Reg → Reg → MSpace → BitVec 10 → List LWord → Instr) (n : Nat) : Prop :=
  (∃ r ∈ loadRows, r.word = w ∧ r.size = n) ∨ ∃ r ∈ storeRows, r.word = w ∧ r.size = n

/-- An M word is guarded by a check that says what `memCheck` says where that fails. -/
theorem MemWord.exec_eq {w : Reg → Reg → MSpace → BitVec 10 → List LWord → Instr} {n : Nat} (h : MemWord w n) (g b : Reg)
    (sp : MSpace) (i : BitVec 10) (ext : List LWord) (s : State) : ∃ pre eff, exec (w g b sp i ext) s = guarded pre eff s ∧
      (memCheck b n sp i ext s ≠ .ok → pre s = memCheck b n sp i ext s) := by
  rcases h with ⟨r, hr, rfl, rfl⟩ | ⟨r, hr, rfl, rfl⟩
  · exact ⟨_, _, exec_load hr g b sp i ext s, fun _ => rfl⟩
  · exact ⟨_, _, exec_store hr g b sp i ext s, memStCheck_of_ne_ok⟩

section
variable {w : Reg → Reg → MSpace → BitVec 10 → List LWord → Instr} {n : Nat} {b : Reg} {sp : MSpace} {i : BitVec 10}
  {ext : List LWord} {s : State}

theorem MemWord.exec_trap (h : MemWord w n) (hc : s.bun.checked = false) {c : Cause} {a : Option DWord} {isw : Option Word}
    (hm : memCheck b n sp i ext s = .trap c a isw) (g : Reg) : exec (w g b sp i ext) s = .next (s.trapHere c a isw) := by
  obtain ⟨pre, eff, hexec, hpre⟩ := h.exec_eq g b sp i ext s
  rw [hexec]
  exact guarded_trap hc ((hpre (by rw [hm]; exact Check.noConfusion)).trans hm)

theorem MemWord.exec_block (h : MemWord w n) (hc : s.bun.checked = false) {v : Wait}
    (hm : memCheck b n sp i ext s = .block v) (g : Reg) : exec (w g b sp i ext) s = .next (s.blockOn v) := by
  obtain ⟨pre, eff, hexec, hpre⟩ := h.exec_eq g b sp i ext s
  rw [hexec]
  exact guarded_block hc ((hpre (by rw [hm]; exact Check.noConfusion)).trans hm)
end

/-! ### Bytes that a load finds -/

theorem phys_nil {x : Tile} (h : x.pairs = []) (a : Nat) : x.phys a = a := by rw [Tile.phys, h]; rfl

theorem readBytes_getElem? {x : Tile} (hwf : x.scratch.wf = true) (a : Nat) {n j : Nat} (hj : j < n) :
    (x.readBytes a n)[j]? = some (x.scratch.read (x.phys (a + j))) := by
  unfold Tile.readBytes
  by_cases hp : x.pairs = []
  · rw [if_pos (List.isEmpty_iff.2 hp), Memory.reads_get _ _ _ hwf j hj, phys_nil hp]
  · rw [if_neg (mt List.isEmpty_iff.1 hp), List.getElem?_map, List.getElem?_range hj]; rfl

theorem seenStore_getElem? {s : State} {c : Nat} (hwf : (s.cluster c).store.wf = true) (x : Strand) (a : Nat) {n j : Nat}
    (hj : j < n) :
    (s.seenStore x c a n)[j]? = some ((x.ownWrite true (a + j)).getD ((s.cluster c).store.read (a + j))) := by
  rw [State.seenStore, List.getElem?_map, List.getElem?_zipIdx, Memory.reads_get _ _ _ hwf j hj]
  simp
end Sys2Proof.Machine
end

section
open Sys2Proof Sys2Proof.Machine

/-- Settles O5: within the scratchpad a load posts the bytes that it reads, and a store those of its register. -/
theorem scratchpadWords : Obligations.ScratchpadWords := by
  unfold Obligations.ScratchpadWords
  intro g b i ext s
  refine ⟨fun r hr halign hrange => ⟨_, (exec_load hr ..).trans (guarded_ok ?_), ?_, fun hwf j hj => readBytes_getElem? hwf _ hj⟩,
    fun r hr halign hrange => ⟨_, (exec_store hr ..).trans (guarded_ok ?_), ?_⟩⟩
  · exact (memCheck_scratch halign).trans (need_eq_ok (decide_eq_true hrange) _)
  · rw [← loaded_eq_specLoaded]
    exact posts_write s ..
  · rw [memStCheck_eq (by decide)]
    exact (memCheck_scratch halign).trans (need_eq_ok (decide_eq_true hrange) _)
  · rw [← leBytes_toNat_eq_specByte]
    exact posts_write s ..

/-- Settles O6: within the cluster store a load posts the bytes that its strand sees, and a store makes those of its register the
strand's own. -/
theorem clusterStoreWords : Obligations.ClusterStoreWords := by
  unfold Obligations.ClusterStoreWords
  intro g b i ext s hidle
  refine ⟨fun r hr halign hrange => ⟨_, _, (exec_load hr ..).trans (guarded_ok ?_), ?_, ?_,
      fun hwf j hj => seenStore_getElem? hwf s.me _ hj⟩,
    fun r hr halign hrange => ⟨_, (exec_store hr ..).trans (guarded_ok ?_), owns_own .., sameBytes_onMe ..⟩⟩
  · exact (memCheck_store halign).trans ((storeCheck_idle hidle).trans (need_eq_ok (decide_eq_true hrange) _))
  · rw [← loaded_eq_specLoaded]
    exact posts_write s ..
  · exact seenStore_length ..
  · rw [memStCheck_eq (by decide)]
    exact (memCheck_store halign).trans ((storeCheck_idle hidle).trans (need_eq_ok (decide_eq_true hrange) _))
end

section
/-! Hints (R90, R268). -/
namespace Sys2Proof.Machine

theorem hintLocal_iff (s : State) (line : Nat) :
    hintLocal s line = true ↔ ∃ e, s.engXlate s.myCluster line = .ok e ∧ e.mode = 0 ∧ e.ro = false := by
  unfold hintLocal
  cases s.engXlate s.myCluster line with
  | error f => simp
  | ok e => simp

theorem mem_discard {x : Strand} {line : Nat} {o : Owned} :
    o ∈ (x.discard (line * 128)).owned ↔ o ∈ x.owned ∧ ¬(o.store = false ∧ o.word * 4 / 128 = line) := by
  have hline : o.word * 4 / 128 * 128 = line * 128 ↔ o.word * 4 / 128 = line := by omega
  simp only [Strand.discard, List.mem_filter, Bool.or_eq_true, bne_iff_ne, ne_eq, hline]
  cases o.store <;> simp
end Sys2Proof.Machine
end

section
open Sys2Proof Sys2Proof.Machine

/-- Settles O8: an M word fails as `memCheck` does, alignment first; of the hints only DISC changes its strand. -/
theorem memoryTrapsAndHints : Obligations.MemoryTrapsAndHints := by
  unfold Obligations.MemoryTrapsAndHints
  refine ⟨fun w n g b i ext s hw hc => ?words, fun b i ext s => ⟨rfl, rfl, ?disc⟩⟩
  case words =>
    replace hw : MemWord w n := hw
    refine ⟨fun sp halign => hw.exec_trap hc (memCheck_misaligned sp halign) g, fun halign hrange => ?_, fun halign hbusy => ?_,
      fun halign hidle hrange => ?_, fun halign hfull => ?_⟩
    · exact hw.exec_trap hc ((memCheck_scratch halign).trans (need_eq_else (decide_eq_false hrange.not_ge) _)) g
    · exact hw.exec_trap hc ((memCheck_store halign).trans (storeCheck_busy hbusy)) g
    · exact hw.exec_trap hc ((memCheck_store halign).trans ((storeCheck_idle hidle).trans
        (need_eq_else (decide_eq_false hrange.not_ge) _))) g
    · exact hw.exec_block hc ((memCheck_global halign).trans (globalCheck_full hfull)) g
  case disc =>
    have hlocal := hintLocal_iff s (128 * ((memAddr s b 128 i ext).toNat / 128))
    rw [Nat.mul_comm] at hlocal
    refine ⟨_, rfl, ?_⟩
    split
    · next h =>
      have hmapped := hlocal.1 h
      refine ⟨onlyMe_onMe .., rfl, sameBytes_onMe .., ?_, fun o => ?_⟩ <;> rw [State.me_onMe]
      · rfl
      · exact mem_discard.trans (and_congr_right fun _ => not_congr (Nat.mul_comm _ 128 ▸ and_iff_right hmapped).symm)
    · next h =>
      refine ⟨onlyMe_refl s, rfl, sameBytes_refl s, rfl, fun o => ?_⟩
      exact (and_iff_left fun hd => h (hlocal.2 (Nat.mul_comm _ 128 ▸ hd.1))).symm
end

section
/-! What an access to global memory may leave behind it on its way through translation and at its home: walks, TLBs, counts,
records and copies, but no register, no byte and no entry (R79, R99, R101, R102, R104). -/
namespace Sys2Proof.Machine

/-- t is s after memory and tables have been looked at. -/
structure Looks (s t : State) : Prop where
  cc : t.cc = s.cc
  bun : t.bun = s.bun
  coord : t.coord = s.coord
  extent : t.extent = s.extent
  strand : ∀ n k, t.strand n k = s.strand n k
  scratch : ∀ n, (t.tile n).scratch = (s.tile n).scratch
  fq : ∀ n, (t.tile n).fq = (s.tile n).fq
  store : ∀ c, (t.cluster c).store = (s.cluster c).store
  mem : ∀ d, (t.die d).mem = (s.die d).mem
  bad : ∀ d, (t.die d).bad = (s.die d).bad
  ricks : ∀ d, (t.die d).ricks = (s.die d).ricks
  cords : ∀ e ∈ t.agenda, cordOf e.2 ≠ none → e ∈ s.agenda

section
variable {s t u : State}

theorem Looks.refl (s : State) : Looks s s :=
  ⟨rfl, rfl, rfl, rfl, fun _ _ => rfl, fun _ => rfl, fun _ => rfl, fun _ => rfl, fun _ => rfl, fun _ => rfl, fun _ => rfl,
    fun _ h _ => h⟩

theorem Looks.trans (h : Looks s t) (g : Looks t u) : Looks s u where
  cc := g.cc.trans h.cc
  bun := g.bun.trans h.bun
  coord := g.coord.trans h.coord
  extent := g.extent.trans h.extent
  strand n k := (g.strand n k).trans (h.strand n k)
  scratch n := (g.scratch n).trans (h.scratch n)
  fq n := (g.fq n).trans (h.fq n)
  store c := (g.store c).trans (h.store c)
  mem d := (g.mem d).trans (h.mem d)
  bad d := (g.bad d).trans (h.bad d)
  ricks d := (g.ricks d).trans (h.ricks d)
  cords e he hc := h.cords e (g.cords e he hc) hc

/-! ### The small changes -/

theorem cords_insertKey {k : Nat} {i : Event} {l : List (Nat × Event)} (hi : cordOf i = none) :
    ∀ e ∈ insertKey k i l, cordOf e.2 ≠ none → e ∈ l := fun e he hc =>
  (mem_insertKey.1 he).resolve_left fun h => hc (by rw [h]; exact hi)

theorem Looks.sched (h : Looks s t) {cc slot : Nat} {i : Event} (hi : cordOf i = none) : Looks s (t.sched cc slot i) :=
  h.trans { Looks.refl t with cords := cords_insertKey hi }

theorem Looks.soon (h : Looks s t) {b slot : Nat} {i : Event} (hi : cordOf i = none) : Looks s (t.soon b slot i) :=
  h.trans { Looks.refl t with cords := cords_insertKey hi }

theorem Looks.spend (h : Looks s t) : Looks s t.spend := h.trans { Looks.refl t with }

theorem Looks.each {α : Type} {f : State → α → State} (h : Looks s t) {l : List α} (hf : ∀ s x, Looks s (f s x)) :
    Looks s (t.each l f) :=
  h.trans (each_keeps Looks Looks.refl (fun _ _ _ => Looks.trans) l f hf t)

theorem Looks.onDie (h : Looks s t) {d : Nat} {f : Die → Die}
    (hf : ∀ x, (f x).mem = x.mem ∧ (f x).bad = x.bad ∧ (f x).ricks = x.ricks := by exact fun _ => ⟨rfl, rfl, rfl⟩) : Looks s (t.onDie d f) := by
  have hdie {β : Type} {g : Die → β} (hg : ∀ x, g (f x) = g x) (n : Nat) : g ((t.onDie d f).die n) = g (t.die n) := by
    rw [State.die_onDie]
    split
    · next h => rw [h, hg]
    · rfl
  exact h.trans { Looks.refl t with
    mem := hdie fun x => (hf x).1
    bad := hdie fun x => (hf x).2.1
    ricks := hdie fun x => (hf x).2.2 }

theorem Looks.onCluster (h : Looks s t) {c : Nat} {f : Cluster → Cluster} (hf : ∀ x, (f x).store = x.store := by exact fun _ => rfl) :
    Looks s (t.onCluster c f) :=
  h.trans { Looks.refl t with
    store := fun n => by
      rw [State.cluster_onCluster]
      split
      · next h => rw [h, hf]
      · rfl }

theorem Looks.onTile (h : Looks s t) {n : Nat} {f : Tile → Tile}
    (hf : ∀ x, (f x).strands = x.strands ∧ (f x).scratch = x.scratch ∧ (f x).fq = x.fq := by exact fun _ => ⟨rfl, rfl, rfl⟩) : Looks s (t.onTile n f) := by
  have htile {β : Type} {g : Tile → β} (hg : ∀ x, g (f x) = g x) (m : Nat) : g ((t.onTile n f).tile m) = g (t.tile m) := by
    rw [State.tile_onTile]
    split
    · next h => rw [h, hg]
    · rfl
  exact h.trans { Looks.refl t with
    strand := fun m k => congrArg (SMap.get (Strand.reset k) · k) (htile (fun x => (hf x).1) m)
    scratch := htile fun x => (hf x).2.1
    fq := htile fun x => (hf x).2.2 }

/-! ### Reads at a home -/

theorem Looks.startTest (h : Looks s t) {u : TestUnit} : Looks s (t.startTest u) := by
  unfold State.startTest
  split
  · exact h.trans { Looks.refl t with }
  · exact h.sched rfl

theorem Looks.uncorrectable (h : Looks s t) {d off cause rank : Nat} : Looks s (t.uncorrectable d off cause rank) := by
  unfold State.uncorrectable State.memRecord
  exact h.onDie.onDie.startTest

theorem Looks.noteRead (h : Looks s t) {d off n rank : Nat} : Looks s (t.noteRead d off n rank) := by
  unfold State.noteRead
  dsimp only
  split
  · exact h
  · exact h.onDie.each fun u _ => (Looks.refl u).uncorrectable

theorem noteRead_of_clean {d : Nat} (hbad : (s.die d).bad = []) (hwrong : (s.die d).wrong = []) (off n rank : Nat) :
    s.noteRead d off n rank = s := by
  simp [State.noteRead, hbad, hwrong]

/-! ### Translation -/

theorem Looks.readTables (h : Looks s t) {c page : Nat} : Looks s (t.readTables c page) := by
  unfold State.readTables
  exact (h.each fun u _ => (Looks.refl u).noteRead).onCluster

theorem Looks.migrate (h : Looks s t) {d page : Nat} {e : TlbEntry} {rank : Nat} : Looks s (t.migrate d page e rank) := by
  unfold State.migrate
  split
  · exact h.onDie
  · exact h

theorem Looks.touch (h : Looks s t) {c : Nat} {va : DWord} {rank : Nat} : Looks s (t.touch c va rank) := by
  unfold State.touch
  dsimp only
  split
  · exact h
  · split
    · split
      · exact h
      · exact h.onCluster.migrate
    · split
      · split
        · exact h
        · split
          · exact h
          · exact h.onCluster.migrate
      · split
        · exact h
        · refine Looks.soon ?_ rfl
          split
          · exact h.readTables.onCluster
          · exact h.readTables.onCluster.migrate

theorem looks_coreTouch (s : State) (t : Nat) (va : DWord) : Looks s (s.coreTouch t va) := by
  unfold State.coreTouch
  dsimp only
  split
  · exact .refl s
  · exact (Looks.refl s).touch
  · exact (Looks.refl s).touch
  · exact (Looks.refl s).touch.onTile

/-! ### Copies -/

theorem Looks.holderUpdate (h : Looks s t) {d : Nat} {p : BitVec 16} {n : Nat} {add : Bool} :
    Looks s (t.holderUpdate d p n add) := by
  unfold State.holderUpdate
  split
  · exact h.soon rfl
  · exact h.trans { Looks.refl t with }

theorem Looks.dropCopies (h : Looks s t) {d : Nat} {f : Copy → Bool} : Looks s (t.dropCopies d f) := by
  unfold State.dropCopies
  exact h.onDie.each fun u _ => (Looks.refl u).holderUpdate

theorem Looks.copyFrame (h : Looks s t) {d : Nat} {e : TlbEntry} {va : Nat} : Looks s (t.copyFrame d e va) := by
  unfold State.copyFrame
  extract_lets frame page first key out room copied
  split
  · exact h
  · have hroom : Looks s room := by
      unfold room
      split
      · split
        · exact h.spend.dropCopies
        · exact h.spend
      · exact h.spend
    have hcopied : Looks s copied := hroom.onDie
    split
    · exact hcopied.holderUpdate
    · exact hcopied

/-! ### What stays -/

theorem Looks.me (h : Looks s t) : t.me = s.me := by rw [State.me, State.me, h.bun, h.strand]

theorem Looks.sameBytes (h : Looks s t) : SameBytes s t :=
  ⟨fun n a => by rw [h.scratch], fun c a => by rw [h.store], fun d a => by rw [h.mem]⟩

theorem Looks.ownPackage (h : Looks s t) (p : BitVec 16) : t.ownPackage p = s.ownPackage p := by
  rw [State.ownPackage, State.ownPackage, h.coord]

theorem Looks.absent (h : Looks s t) (p : BitVec 16) : t.absent p = s.absent p := by
  rw [State.absent, State.absent, h.extent]

theorem Looks.transit (h : Looks s t) (d : Nat) (p : BitVec 16) : t.transit d p = s.transit d p := by
  rw [State.transit, State.transit, State.route, State.route, h.ownPackage, h.coord, h.extent]

theorem Looks.isBad (h : Looks s t) (d off n : Nat) : t.isBad d off n = s.isBad d off n := by
  rw [State.isBad, State.isBad, h.bad]

theorem Looks.memRead (h : Looks s t) (d off n : Nat) : t.memRead d off n = s.memRead d off n := by
  simp only [State.memRead, h.bad, h.mem, h.isBad]

theorem Looks.entriesOn (h : Looks s t) {n k va size : Nat} (hs : s.entriesOn n k va size = false) :
    t.entriesOn n k va size = false := by
  unfold State.entriesOn at hs ⊢
  rw [h.fq, h.ricks]
  simp only [Bool.or_eq_false_iff] at hs ⊢
  refine ⟨hs.1, List.any_eq_false.2 fun e he => ?_⟩
  have hno := List.any_eq_false.1 hs.2 e
  cases hc : cordOf e.2 with
  | none => simp
  | some c => simpa [hc] using hno (h.cords e he (by simp [hc]))
end
end Sys2Proof.Machine
end

section
/-! The bound of an access under its translation (R103, R105): the access itself does not change what it must wait for. -/
namespace Sys2Proof.Machine

theorem xlateBound_eq (s : State) (ea : DWord) (miss : Bool) : xlateBound s ea miss = localBound s ea miss := rfl

theorem xlateBound_pos (s : State) (ea : DWord) (miss : Bool) : 0 < xlateBound s ea miss := by
  unfold xlateBound; omega

theorem noteRead_clusters (s : State) (d off n rank : Nat) : (s.noteRead d off n rank).clusters = s.clusters := by
  have hstep (u : State) (l : Nat) : (u.uncorrectable d l 1 rank).clusters = u.clusters := by
    unfold State.uncorrectable State.startTest
    dsimp only
    split <;> rfl
  unfold State.noteRead
  dsimp only
  split
  · rfl
  · exact each_keeps (fun a b : State => b.clusters = a.clusters) (fun _ => rfl) (fun _ _ _ h g => g.trans h) _ _
      (fun u l => hstep u l) _

/-- Which pages are walked in a cluster, and for which context, is the same in both. -/
def SameWalks (x y : Cluster) : Prop := y.walks = x.walks ∧ y.ptCtx = x.ptCtx

theorem readTables_walks (s : State) (c page : Nat) : SameWalks (s.cluster c) ((s.readTables c page).cluster c) := by
  unfold State.readTables
  have hread : (s.each (s.walkPath c (page * 65536)) fun s r => s.noteRead (stnOf r.1) r.2.2 8).clusters = s.clusters :=
    each_keeps (fun a b : State => b.clusters = a.clusters) (fun _ => rfl) (fun _ _ _ h g => g.trans h) _ _
      (fun u _ => noteRead_clusters u ..) s
  have hcluster := congrArg (SMap.get Cluster.reset · c) hread
  rw [State.cluster_onCluster_same]
  exact ⟨(congrArg Cluster.walks hcluster :), (congrArg Cluster.ptCtx hcluster :)⟩

theorem migrate_cluster (s : State) (d page : Nat) (e : TlbEntry) (rank n : Nat) :
    (s.migrate d page e rank).cluster n = s.cluster n := by
  unfold State.migrate
  split <;> rfl

/-- A walk that joins the queue for a page stands where the page was looked for. -/
theorem queueAhead_append {x y : Cluster} {page : Nat} {w : Walk} (hnone : x.walking page = none)
    (hw : w.ctx = x.ptCtx ∧ w.page = page) (hctx : y.ptCtx = x.ptCtx) (hwalks : y.walks = x.walks ++ [w]) :
    y.queueAhead page = x.queueAhead page := by
  have hno : ∀ v ∈ x.walks, (v.ctx == x.ptCtx && v.page == page) = false := by
    simpa [Cluster.walking, List.find?_eq_none] using hnone
  rw [Cluster.queueAhead, Cluster.queueAhead, hwalks, hctx, List.findIdx_append, if_neg, List.findIdx_eq_length.2 hno]
  · simp [List.findIdx_cons, hw]
  · rw [List.findIdx_eq_length.2 hno]; exact lt_irrefl _

theorem walkOf_key (s : State) (c page : Nat) : (s.walkOf c page).ctx = (s.cluster c).ptCtx ∧ (s.walkOf c page).page = page := by
  unfold State.walkOf
  split <;> exact ⟨rfl, rfl⟩

/-- An access leaves the place of its own page in the walk queue as it is. -/
theorem queueAhead_touch (s : State) (c : Nat) (va : DWord) (rank : Nat) :
    ((s.touch c va rank).cluster c).queueAhead (va.toNat / 65536) = (s.cluster c).queueAhead (va.toNat / 65536) := by
  unfold State.touch
  dsimp only
  split
  · rfl
  · split
    · split
      · rfl
      · rw [migrate_cluster, State.cluster_onCluster_same]; rfl
    · split
      · split
        · rfl
        · split
          · rfl
          · rw [migrate_cluster, State.cluster_onCluster_same, Cluster.queueAhead, Cluster.queueAhead, List.findIdx_map]
            congr 2
            funext v
            rw [Function.comp_apply]
            split
            · next h => rw [eq_of_beq h]
            · rfl
      · split
        · rfl
        · next hnone _ =>
          obtain ⟨hwalks, hctx⟩ := readTables_walks s c (va.toNat / 65536)
          rw [State.soon_cluster]
          refine queueAhead_append hnone (w := { s.walkOf c (va.toNat / 65536) with
            res := (s.walkOf c (va.toNat / 65536)).res.map (s.counted (c / 32)) }) (walkOf_key s c _) ?_ ?_ <;> split <;>
            simp only [migrate_cluster, State.cluster_onCluster_same, hctx, hwalks]

theorem queueAhead_coreTouch (s : State) (n : Nat) (va : DWord) :
    ((s.coreTouch n va).cluster (clusterOf n)).queueAhead (va.toNat / 65536) =
      (s.cluster (clusterOf n)).queueAhead (va.toNat / 65536) := by
  unfold State.coreTouch
  dsimp only
  split
  · rfl
  · exact queueAhead_touch ..
  · exact queueAhead_touch ..
  · exact queueAhead_touch ..

theorem localBound_coreTouch (s : State) (ea : DWord) (miss : Bool) :
    localBound (s.coreTouch s.bun.tile ea) ea miss = localBound s ea miss := by
  unfold localBound State.missBound State.myCluster
  rw [(looks_coreTouch s s.bun.tile ea).bun, queueAhead_coreTouch]

/-- Where both TLBs hold the page and its accesses are not counted, an access leaves nothing behind. -/
theorem coreTouch_of_lookups {s : State} {ea : DWord} {e : TlbEntry}
    (ht : s.tileLookup s.bun.tile (ea.toNat / 65536) = some e) (hc : (s.cluster s.myCluster).lookup (ea.toNat / 65536) = some e)
    (hea : ea.toNat < 2 ^ 52) (hm : e.mode ≠ 3) : s.coreTouch s.bun.tile ea = s := by
  have hxlate : s.xlate s.myCluster ea = .hit e false := by
    have h := xlate_of_lookup hea hc
    rwa [BitVec.ofNat_toNat, BitVec.setWidth_eq] at h
  have htouch : s.coreTouch s.bun.tile ea = s.touch s.myCluster ea := by
    unfold State.coreTouch
    dsimp only
    rw [ht, show (s.cluster (clusterOf s.bun.tile)).lookup _ = _ from hc]
    rfl
  rw [htouch, touch_hit hxlate hm]

/-- A translation that the tile's TLB holds needs no walk. -/
theorem miss_of_tileLookup {s : State} {ea : DWord} {e f : TlbEntry} {miss : Bool}
    (ht : s.tileLookup s.bun.tile (ea.toNat / 65536) = some e) (h : s.coreXlate s.bun.tile ea = .hit f miss) : miss = false := by
  unfold State.coreXlate at h
  rw [ht] at h
  split at h
  · exact Xlate.noConfusion h
  · exact (Xlate.hit.inj h).2.symm

end Sys2Proof.Machine
end

section
/-! What an M word of global memory leaves for its strand (R103, R149, R248, R306), beside what its translation changes. -/
namespace Sys2Proof.Machine

variable {s t u : State}

/-! ### Frames -/

theorem OnlyMe.bun (h : OnlyMe s t) : t.bun = s.bun := (congrArg State.bun h.1 :)

theorem OnlyMe.otherStrands (h : OnlyMe s t) : OtherStrands s t := by
  obtain ⟨-, htiles, -, hstrands⟩ := h
  intro n k hne
  by_cases hn : n = s.bun.tile
  · subst hn
    exact hstrands k fun hk => hne (by rw [hk])
  · exact congrArg (·.strand k) (htiles n hn)

theorem OnlyMe.sameBytes (h : OnlyMe s t) : SameBytes s t := by
  obtain ⟨hs, htiles, hmine, -⟩ := id h
  refine ⟨fun n a => ?_, fun c a => ?_, fun d a => ?_⟩
  · by_cases hn : n = s.bun.tile
    · subst hn
      rw [State.myTile, State.myTile, h.bun] at hmine
      rw [(congrArg Tile.scratch hmine :)]
    · rw [htiles n hn]
  · have hc : t.clusters = s.clusters := (congrArg State.clusters hs :)
    rw [State.cluster, hc]; rfl
  · have hd : t.dies = s.dies := (congrArg State.dies hs :)
    rw [State.die, hd]; rfl

theorem OtherStrands.trans (h : OtherStrands s t) (hb : t.bun = s.bun) (g : OtherStrands t u) : OtherStrands s u :=
  fun n k hne => (g n k (by rwa [hb])).trans (h n k hne)

theorem Looks.otherStrands (h : Looks s t) : OtherStrands s t := fun n k _ => h.strand n k

theorem quiet_watch (s : State) (d : Dest) (cc : Nat) : Quiet s (s.watch d cc) := by
  unfold State.watch
  split
  · exact ⟨onlyMe_refl s, rfl⟩
  · exact ⟨onlyMe_onMe .., by rw [State.me_onMe]⟩

theorem watchOf_g (g : Reg) (v : DWord) (cc : Nat) : watchOf (.g g v) cc = if g = 0 then [] else [(.g g, cc)] := by
  by_cases hg : g = 0
  · subst hg; rfl
  · have hd : destOf (.g g v) = some (.g g) := if_neg hg
    rw [watchOf, hd, if_neg hg]

theorem board_watch (s : State) (g : Reg) (v : DWord) (cc : Nat) : (s.watch (.g g) cc).me.board = watchOf (.g g v) cc ++ s.me.board := by
  rw [watchOf_g]
  by_cases hg : g = 0
  · subst hg; rfl
  · have hd : (Dest.g g).constant = false := beq_eq_false_iff_ne.2 hg
    rw [State.watch, hd, if_neg Bool.false_ne_true, State.me_onMe, if_neg hg]
    rfl

/-! ### Faults and registers -/

/-- A fault later, once memory has been looked at. -/
theorem Looks.faultsBy (h : Looks s t) {b : Nat} {c : Cause} {e : Nat} {isw : Word} {addr : DWord}
    (g : FaultsLater t u b c e t.me.bundleSeq isw addr) : FaultsBy s u b c e isw addr := by
  obtain ⟨honly, hme, due, i, hlt, hle, hfaults, hcause, hengine, hseq, hisw, haddr, hpc⟩ := g
  rw [h.me] at hme hfaults hseq
  rw [h.cc] at hlt hle
  exact ⟨h.otherStrands.trans h.bun honly.otherStrands, sameBytes_trans h.sameBytes honly.sameBytes, hme, due, i, hlt, hle,
    hfaults, hcause, hengine, hseq, hisw, haddr, hpc.trans (by rw [h.bun])⟩

theorem Looks.loadsBy (h : Looks s t) {b : Nat} {g : Reg} {v : DWord} : LoadsBy s (t.write b (.g g v)) b g v := by
  obtain ⟨⟨honly, hme⟩, hagenda, hboard⟩ := posts_write t b (.g g v)
  rw [h.me] at hme hboard
  rw [h.cc] at hboard
  rw [h.cc, h.bun] at hagenda
  exact ⟨h.otherStrands.trans h.bun honly.otherStrands, sameBytes_trans h.sameBytes honly.sameBytes, hme, hboard,
    hagenda ▸ insertKey_mem ..⟩

/-- What a word watches before its fault is set is part of the fault. -/
theorem Quiet.faultsLater (h : Quiet s t) {b : Nat} {c : Cause} {e seq : Nat} {isw : Word} {addr : DWord}
    (g : FaultsLater t u b c e seq isw addr) : FaultsLater s u b c e seq isw addr := by
  obtain ⟨honly, hme, due, i, hlt, hle, hfaults, hinfo⟩ := g
  have hcc : t.cc = s.cc := (congrArg State.cc h.1.1 :)
  have hsame : t.me.faults = s.me.faults := (congrArg Strand.faults h.2 :)
  rw [hcc] at hlt hle
  rw [hsame] at hfaults
  rw [h.1.bun] at hinfo
  exact ⟨h.1.trans honly, (congrArg (fun x : Strand => { x with faults := s.me.faults, board := s.me.board }) hme :).trans
    (hsame ▸ h.2), due, i, hlt, hle, hfaults, hinfo⟩

theorem lateXlate_faults (s : State) (ea : DWord) (c l : Nat) (miss : Bool) :
    FaultsLater s (s.lateXlate ea c l miss) (localBound s ea miss) .translate 0 s.me.bundleSeq (BitVec.ofNat 32 (c + 16 * l)) ea :=
  faultsLater_add s _ (xlateBound_pos s ea miss) _ _ _ _ _ _ ⟨rfl, rfl, rfl, rfl, rfl, rfl⟩
end Sys2Proof.Machine
end

section
/-! Loads from global memory (R100, R103, R105, R149, R248), by the mode of their page. -/
namespace Sys2Proof.Machine

variable {s : State} {ea : DWord} {size : Nat} {sgn : Bool} {g : Reg}

theorem exec_load_global {r : LoadRow} (hr : r ∈ loadRows) {b : Reg} {i : BitVec 10} {ext : List LWord}
    (halign : (memAddr s b r.size i ext).toNat % r.size = 0) (hx : s.coreXlate s.bun.tile (memAddr s b r.size i ext) ≠ .full) :
    exec (r.word g b .global i ext) s = .next (s.loadGlobal g (memAddr s b r.size i ext) r.size r.sgn) :=
  (exec_load hr ..).trans (guarded_ok ((memCheck_global halign).trans (globalCheck_ok hx)))

/-- The bound of an access that goes to another home and back. -/
def farBound (s : State) (ea : DWord) (e : TlbEntry) (miss : Bool) : Nat := xlateBound s ea miss + 2 * s.transit s.myDie e.peer

theorem farBound_pos (s : State) (ea : DWord) (e : TlbEntry) (miss : Bool) : 0 < farBound s ea e miss :=
  Nat.add_pos_left (xlateBound_pos s ea miss) _

theorem farBound_coreTouch (s : State) (ea : DWord) (e : TlbEntry) (miss : Bool) : localBound s ea miss +
    2 * (s.coreTouch s.bun.tile ea).transit (s.coreTouch s.bun.tile ea).myDie e.peer = farBound s ea e miss := by
  have h := looks_coreTouch s s.bun.tile ea
  rw [h.transit, State.myDie, h.bun]; rfl

/-- The state of a load once it has gone through translation. -/
def State.looked (s : State) (ea : DWord) : State := s.coreTouch s.bun.tile ea

theorem looks_looked (s : State) (ea : DWord) : Looks s (s.looked ea) := looks_coreTouch ..

/-! ### Faults -/

theorem loadGlobal_fault {c l : Nat} {miss : Bool} (h : s.coreXlate s.bun.tile ea = .fault c l miss) :
    s.loadGlobal g ea size sgn = ((s.looked ea).watch (.g g) ((s.looked ea).cc + localBound s ea miss)).lateXlate ea c l miss := by
  unfold State.loadGlobal
  rw [h]
  rfl

theorem localBound_watch (s : State) (d : Dest) (cc : Nat) (ea : DWord) (miss : Bool) :
    localBound (s.watch d cc) ea miss = localBound s ea miss := by
  unfold State.watch
  split <;> rfl

theorem bundleSeq_watch (s : State) (d : Dest) (cc : Nat) : (s.watch d cc).me.bundleSeq = s.me.bundleSeq := by
  have hb : (s.watch d cc).me.bundles = s.me.bundles := (congrArg Strand.bundles (quiet_watch s d cc).2 :)
  rw [Strand.bundleSeq, Strand.bundleSeq, hb]

theorem faultsBy_lateXlate (s : State) (ea : DWord) (c l : Nat) (miss : Bool) :
    FaultsBy s ((s.looked ea).lateXlate ea c l miss) (xlateBound s ea miss) .translate 0 (BitVec.ofNat 32 (c + 16 * l)) ea := by
  rw [xlateBound_eq, ← localBound_coreTouch]
  exact (looks_looked s ea).faultsBy (lateXlate_faults ..)

theorem load_faults {c l : Nat} {miss : Bool} (h : s.coreXlate s.bun.tile ea = .fault c l miss) :
    FaultsBy s (s.loadGlobal g ea size sgn) (xlateBound s ea miss) .translate 0 (BitVec.ofNat 32 (c + 16 * l)) ea := by
  rw [loadGlobal_fault h]
  generalize (s.looked ea).cc + localBound s ea miss = due
  have hlate := lateXlate_faults ((s.looked ea).watch (.g g) due) ea c l miss
  rw [localBound_watch, bundleSeq_watch, State.looked, localBound_coreTouch] at hlate
  exact (looks_looked s ea).faultsBy ((quiet_watch _ (.g g) due).faultsLater hlate)

/-! ### What a load meets at its home -/

/-- The state of a load whose page may be copied (R100). -/
def State.copied (s : State) (ea : DWord) (e : TlbEntry) : State :=
  if e.mode = 2 then (s.looked ea).copyFrame (s.looked ea).myDie e ea.toNat else s.looked ea

/-- The state of a load that has reached its home. -/
def State.atHome (s : State) (ea : DWord) (e : TlbEntry) (size : Nat) : State :=
  (s.copied ea e).noteRead (stnOf e.peer) (e.offset ea.toNat) size 0

theorem looks_copied (s : State) (ea : DWord) (e : TlbEntry) : Looks s (s.copied ea e) := by
  unfold State.copied
  split
  · exact (looks_looked s ea).copyFrame
  · exact looks_looked s ea

theorem looks_atHome (s : State) (ea : DWord) (e : TlbEntry) (size : Nat) : Looks s (s.atHome ea e size) :=
  (looks_copied s ea e).noteRead

/-- The bytes that a load reads at its home. -/
def State.homeBytes (s : State) (ea : DWord) (e : TlbEntry) (size : Nat) : List Byte :=
  (s.atHome ea e size).seen (s.atHome ea e size).me (stnOf e.peer) (e.offset ea.toNat) ea.toNat size

theorem seen_getElem? (s : State) (x : Strand) (d off va : Nat) {n j : Nat} (hj : j < n) :
    (s.seen x d off va n)[j]? = some ((x.ownWrite false (va + j)).getD ((s.memRead d off n).getD j 0)) := by
  have hlen : j < (s.memRead d off n).length := by rwa [memRead_length]
  simp [State.seen, hlen]

theorem homeBytes_getElem? {e : TlbEntry} {j : Nat} (hj : j < size) : (s.homeBytes ea e size)[j]? =
    some ((s.me.ownWrite false (ea.toNat + j)).getD ((s.memRead (stnOf e.peer) (e.offset ea.toNat) size).getD j 0)) := by
  rw [State.homeBytes, seen_getElem? _ _ _ _ _ hj, (looks_atHome s ea e size).me, (looks_atHome s ea e size).memRead]

/-! ### What a load to another home leaves -/

/-- The request that a load sends to another home. -/
def loadRequest (s : State) (ea : DWord) (e : TlbEntry) (size : Nat) (sgn : Bool) (g : Reg) (far : Nat) : RemoteLoad :=
  ⟨ea, e.peer, e.offset ea.toNat, e.mode, size, sgn, g, coreOrigin s, s.cc + far, 0, s.me.bundleSeq, [], none⟩

/-- What a load that goes to another home leaves in its own strand. -/
def State.awaiting (s : State) (g : Reg) (far : Nat) : State :=
  (s.watch (.g g) (s.cc + far)).onMe fun x => x.loads 0 s.me.bundleSeq

theorem awaiting_me (s : State) (g : Reg) (far : Nat) : (s.awaiting g far).me =
    { s.me with board := watchOf (.g g 0) (s.cc + far) ++ s.me.board,
                outst := s.me.outst ++ [⟨0, s.me.bundleSeq, false, none, true⟩] } := by
  have hrest := (quiet_watch s (.g g) (s.cc + far)).2
  have hme : (s.watch (.g g) (s.cc + far)).me = { s.me with board := (s.watch (.g g) (s.cc + far)).me.board } := by
    rw [← hrest]
  rw [State.awaiting, State.me_onMe, hme, board_watch s g 0]
  rfl

theorem onlyMe_awaiting (s : State) (g : Reg) (far : Nat) : OnlyMe s (s.awaiting g far) :=
  (quiet_watch s (.g g) (s.cc + far)).1.trans (onlyMe_onMe ..)

theorem OnlyAgenda.onlyMe {s t : State} (h : OnlyAgenda s t) : OnlyMe s t := by
  obtain ⟨l, rfl⟩ := h
  exact onlyMe_refl s

theorem OnlyAgenda.cc {s t : State} (h : OnlyAgenda s t) : t.cc = s.cc := by obtain ⟨l, rfl⟩ := h; rfl

theorem OnlyAgenda.me {s t : State} (h : OnlyAgenda s t) : t.me = s.me := by obtain ⟨l, rfl⟩ := h; rfl

theorem remoteLoad_only (s : State) (r : RemoteLoad) : OnlyAgenda s (s.remoteLoad r) :=
  (departWhere_only ..).trans ⟨_, rfl⟩

theorem remoteLoad_request (s : State) (r : RemoteLoad) :
    (keyOf s.cc slotLoad, Event.remoteLoadRequest r) ∈ (s.remoteLoad r).agenda := by
  rw [← (departWhere_only s (dieOf r.org.tile) fun q => q.peer == r.peer && q.holds r.org.tile r.org.strand).cc]
  exact insertKey_mem ..

/-! ### Loads, by the mode of their page -/

section
variable {e : TlbEntry} {miss : Bool} (h : s.coreXlate s.bun.tile ea = .hit e miss)
include h

theorem loadGlobal_absent (hm : e.mode ≠ 0) (ha : s.absent e.peer = true) : s.loadGlobal g ea size sgn =
    ((s.looked ea).watch (.g g) ((s.looked ea).cc + farBound s ea e miss)).addFault (s.looked ea).bun.tile (s.looked ea).bun.strand
      ((s.looked ea).dueCc (farBound s ea e miss)) (infoOf (coreOrigin (s.looked ea)) .fabric 5 3 ea) := by
  have hcond : (decide (e.mode ≠ 0) && (s.coreTouch s.bun.tile ea).absent e.peer) = true := by
    rw [decide_eq_true hm, (looks_coreTouch ..).absent, ha]; rfl
  rw [← farBound_coreTouch]
  unfold State.loadGlobal
  rw [h]
  exact if_pos hcond

theorem load_absent (hm : e.mode ≠ 0) (ha : s.absent e.peer = true) :
    FaultsBy s (s.loadGlobal g ea size sgn) (farBound s ea e miss) .fabric 5 3 ea := by
  rw [loadGlobal_absent h hm ha]
  exact (looks_looked s ea).faultsBy
    (faultsLater_watch _ _ _ _ (farBound_pos ..) _ _ _ _ _ _ ⟨rfl, rfl, rfl, rfl, rfl, rfl⟩)

/-! #### At a home of this package -/

theorem loadGlobal_home (hm : e.mode = 0 ∨ (e.mode = 2 ∧ s.absent e.peer = false)) (hown : s.ownPackage e.peer = true)
    (hent : s.entriesOn s.bun.tile s.bun.strand ea.toNat size = false) (hbad : s.isBad (stnOf e.peer) (e.offset ea.toNat) size = false) :
    s.loadGlobal g ea size sgn = (s.atHome ea e size).write (if e.mode = 0 then xlateBound s ea miss else farBound s ea e miss)
      (.g g (loaded sgn ((s.atHome ea e size).seen (s.atHome ea e size).me (stnOf e.peer) (e.offset ea.toNat) ea.toNat size))) := by
  have hlook := looks_coreTouch s s.bun.tile ea
  have hframe := looks_copied s ea e
  have hpresent : ¬(decide (e.mode ≠ 0) && (s.coreTouch s.bun.tile ea).absent e.peer) = true := by
    rw [hlook.absent]
    rcases hm with hm | ⟨-, ha⟩
    · simp [hm]
    · simp [ha]
  have hnear : ¬(decide (e.mode = 1) || decide (e.mode = 3)) = true := by
    rcases hm with hm | ⟨hm, -⟩ <;> simp [hm]
  have hbound : (if e.mode = 2 then localBound s ea miss +
      2 * (s.coreTouch s.bun.tile ea).transit (s.coreTouch s.bun.tile ea).myDie e.peer else localBound s ea miss) =
      if e.mode = 0 then xlateBound s ea miss else farBound s ea e miss := by
    rw [farBound_coreTouch]
    rcases hm with hm | ⟨hm, -⟩ <;> simp [hm, xlateBound_eq]
  have hentries : (s.copied ea e).ownEntries (s.copied ea e).bun.tile (s.copied ea e).bun.strand ea.toNat size = s.copied ea e := by
    rw [State.ownEntries, hframe.bun, hframe.entriesOn hent]; rfl
  have hclean : ¬(s.atHome ea e size).isBad (stnOf e.peer) (e.offset ea.toNat) size = true := by
    rw [(looks_atHome s ea e size).isBad, hbad]; exact Bool.false_ne_true
  have hcopied : (if e.mode = 2 then (s.coreTouch s.bun.tile ea).copyFrame (s.coreTouch s.bun.tile ea).myDie e ea.toNat
      else s.coreTouch s.bun.tile ea) = s.copied ea e := rfl
  unfold State.loadGlobal
  rw [h]
  dsimp only
  rw [if_neg hpresent, if_neg hnear, hbound]
  rw [hcopied, if_pos ((hframe.ownPackage _).trans hown), hentries,
    show (s.copied ea e).noteRead _ _ _ _ = s.atHome ea e size from rfl, if_neg hclean]

section
variable (hm : e.mode = 0 ∨ (e.mode = 2 ∧ s.absent e.peer = false)) (hown : s.ownPackage e.peer = true)
  (hent : s.entriesOn s.bun.tile s.bun.strand ea.toNat size = false) (hbad : s.isBad (stnOf e.peer) (e.offset ea.toNat) size = false)
include hm hown hent hbad

theorem load_home_loadsBy : LoadsBy s (s.loadGlobal g ea size sgn)
    (if e.mode = 0 then xlateBound s ea miss else farBound s ea e miss) g (specLoaded sgn (s.homeBytes ea e size)) := by
  rw [loadGlobal_home h hm hown hent hbad, ← loaded_eq_specLoaded]
  exact (looks_atHome s ea e size).loadsBy

/-- Where the TLBs hold the translation and the home is clean, a load of MODE 00 leaves nothing but its write. -/
theorem load_home_posts (hm0 : e.mode = 0) (ht : s.tileLookup s.bun.tile (ea.toNat / 65536) = some e)
    (hc : (s.cluster s.myCluster).lookup (ea.toNat / 65536) = some e) (hb : (s.die (stnOf e.peer)).bad = [])
    (hw : (s.die (stnOf e.peer)).wrong = []) (hea : ea.toNat < 2 ^ 52) :
    Posts s (s.loadGlobal g ea size sgn) 1024 (.g g (specLoaded sgn (s.homeBytes ea e size))) := by
  have hlooked : s.looked ea = s := coreTouch_of_lookups ht hc hea (by rw [hm0]; decide)
  have hcopied : s.copied ea e = s := by rw [State.copied, hm0, if_neg (by decide), hlooked]
  have hhome : s.atHome ea e size = s := by rw [State.atHome, hcopied, noteRead_of_clean hb hw]
  have hbound : xlateBound s ea miss = 1024 := by rw [miss_of_tileLookup ht h]; rfl
  rw [loadGlobal_home h hm hown hent hbad, if_pos hm0, hbound, State.homeBytes, ← loaded_eq_specLoaded, hhome]
  exact posts_write ..
end

/-! #### At another home -/

theorem loadGlobal_remote (hm : e.mode = 1 ∨ e.mode = 3) (ha : s.absent e.peer = false)
    (hent : s.entriesOn s.bun.tile s.bun.strand ea.toNat size = false) : s.loadGlobal g ea size sgn =
    ((s.looked ea).awaiting g (farBound s ea e miss)).remoteLoad (loadRequest (s.looked ea) ea e size sgn g (farBound s ea e miss)) := by
  have hlook := looks_looked s ea
  have hpresent : ¬(decide (e.mode ≠ 0) && (s.coreTouch s.bun.tile ea).absent e.peer) = true := by
    rw [(looks_coreTouch ..).absent, ha]; simp
  have hother : (decide (e.mode = 1) || decide (e.mode = 3)) = true := by
    rcases hm with hm | hm <;> simp [hm]
  have hentries : ¬(s.looked ea).entriesOn (s.looked ea).bun.tile (s.looked ea).bun.strand ea.toNat size = true := by
    rw [hlook.bun, hlook.entriesOn hent]; exact Bool.false_ne_true
  have hlooked : s.coreTouch s.bun.tile ea = s.looked ea := rfl
  unfold State.loadGlobal
  rw [h]
  dsimp only
  rw [if_neg hpresent, if_pos hother, farBound_coreTouch, hlooked, if_neg hentries]
  rfl

theorem load_remote (hm : e.mode = 1 ∨ e.mode = 3) (ha : s.absent e.peer = false)
    (hent : s.entriesOn s.bun.tile s.bun.strand ea.toNat size = false) :
    OtherStrands s (s.loadGlobal g ea size sgn) ∧ SameBytes s (s.loadGlobal g ea size sgn) ∧
    (s.loadGlobal g ea size sgn).me =
      { s.me with board := watchOf (.g g 0) (s.cc + farBound s ea e miss) ++ s.me.board,
                  outst := s.me.outst ++ [⟨0, s.me.bundleSeq, false, none, true⟩] } ∧
    (keyOf s.cc slotLoad, Event.remoteLoadRequest (loadRequest (s.looked ea) ea e size sgn g (farBound s ea e miss))) ∈
      (s.loadGlobal g ea size sgn).agenda := by
  have hlook := looks_looked s ea
  have hwait := onlyMe_awaiting (s.looked ea) g (farBound s ea e miss)
  have hcc : ((s.looked ea).awaiting g (farBound s ea e miss)).cc = s.cc := (congrArg State.cc hwait.1 :).trans hlook.cc
  rw [loadGlobal_remote h hm ha hent]
  generalize loadRequest (s.looked ea) ea e size sgn g (farBound s ea e miss) = q
  have hsend := remoteLoad_only ((s.looked ea).awaiting g (farBound s ea e miss)) q
  have honly := hwait.trans hsend.onlyMe
  refine ⟨hlook.otherStrands.trans hlook.bun honly.otherStrands, sameBytes_trans hlook.sameBytes honly.sameBytes, ?_, ?_⟩
  · rw [hsend.me, awaiting_me, hlook.me, hlook.cc]
  · rw [← hcc]
    exact remoteLoad_request ..
end
end Sys2Proof.Machine
end

section
/-! Stores to global memory (R100, R103, R149, R150, R248), by the mode of their page. -/
namespace Sys2Proof.Machine

variable {s : State} {ea : DWord} {g : Reg}

theorem exec_store_global {r : StoreRow} (hr : r ∈ storeRows) {b : Reg} {i : BitVec 10} {ext : List LWord}
    (halign : (memAddr s b r.size i ext).toNat % r.size = 0) (hroom : s.myTile.fabCount < 16)
    (hx : s.coreXlate s.bun.tile (memAddr s b r.size i ext) ≠ .full) :
    exec (r.word g b .global i ext) s =
      .next (s.storeGlobal (memAddr s b r.size i ext) (leBytes r.size (s.me.readG g).toNat)) := by
  have hfab : fabRoom s = .ok := need_eq_ok (by rw [decide_eq_true hroom]; rfl) _
  refine (exec_store hr ..).trans (guarded_ok ?_)
  rw [memStCheck, memCheck_global halign, globalCheck_ok hx, hfab]
  exact ite_self _

/-! ### What a store that makes its bytes owned leaves -/

theorem Looks.ownsMe {t u : State} (h : Looks s t) {st : Bool} {a n : Nat} {x : DWord} (g : OwnsMe t u st a n x) :
    OwnsMe s u st a n x := by
  unfold OwnsMe at g ⊢
  rwa [h.me] at g

theorem onLooked_owns (s : State) (ea : DWord) (d off n : Nat) (x : DWord) :
    let t := (s.looked ea).onMe fun y => y.own false ea.toNat d off (leBytes n x.toNat)
    OtherStrands s t ∧ SameBytes s t ∧ OwnsMe s t false ea.toNat n x := by
  have hlook := looks_looked s ea
  obtain ⟨honly, -, howns⟩ := owns_own (s.looked ea) false ea.toNat d off n x
  exact ⟨hlook.otherStrands.trans hlook.bun honly.otherStrands, sameBytes_trans hlook.sameBytes honly.sameBytes, hlook.ownsMe howns⟩

/-! ### What a store that becomes an entry leaves -/

/-- What a store that becomes an entry does to its strand: it sends a fabric command, and folds its bytes into the digest. -/
def State.sendsStore (s : State) (ea : DWord) (bs : List Byte) : State :=
  (s.command 5 true).2.onMe fun x => x.foldBytes ea.toNat bs

theorem onlyMe_sendsStore (s : State) (ea : DWord) (bs : List Byte) : OnlyMe s (s.sendsStore ea bs) := onlyMe_onMe2 ..

theorem sendsStore_me (s : State) (ea : DWord) (bs : List Byte) : ∃ v, (s.sendsStore ea bs).me =
    { s.me with seqs := s.me.seqs.bump 5, digest := v,
                outst := s.me.outst ++ [⟨5, s.me.seqs.fabric, true, s.me.node.map (·.index), false⟩] } := by
  obtain ⟨v, hv⟩ := foldBytes_digest (s.command 5 true).2.me ea.toNat bs
  refine ⟨v, ?_⟩
  rw [State.sendsStore, State.me_onMe, hv, State.command_me]
  rfl

theorem toStation_otherStrands (s : State) (i : FabItem) : OtherStrands s (s.toStation i) := by
  obtain ⟨l, h⟩ := toStation_eq s i
  rw [h]
  intro n k _
  rw [State.onMyTile_def, State.strand_onTile]
  split
  · next hn => rw [hn]; rfl
  · rfl

theorem store_entry_me (s : State) (ea : DWord) (bs : List Byte) (i : FabItem) :
    ((s.sendsStore ea bs).toStation i).me.seqs.fabric = (s.me.seqs.fabric + 1) % 2 ^ 32 ∧
    ((s.sendsStore ea bs).toStation i).me.outst =
      s.me.outst ++ [⟨5, s.me.seqs.fabric, true, s.me.node.map (·.index), false⟩] ∧
    { ((s.sendsStore ea bs).toStation i).me with seqs := s.me.seqs, outst := s.me.outst, digest := s.me.digest } = s.me := by
  obtain ⟨v, hv⟩ := sendsStore_me s ea bs
  rw [State.me_toStation, hv]
  exact ⟨rfl, rfl, rfl⟩

theorem store_entry_frame (s : State) (ea : DWord) (bs : List Byte) (i : FabItem) :
    OtherStrands s ((s.sendsStore ea bs).toStation i) ∧ SameBytes s ((s.sendsStore ea bs).toStation i) := by
  have honly := onlyMe_sendsStore s ea bs
  exact ⟨honly.otherStrands.trans honly.bun (toStation_otherStrands _ _), sameBytes_trans honly.sameBytes (sameBytes_toStation ..)⟩

theorem store_entry_fq (s : State) (ea : DWord) (bs : List Byte) (i : FabItem) :
    ((s.sendsStore ea bs).toStation i).myTile.fq = s.myTile.fq ++ [i] := by
  have hfq : (s.sendsStore ea bs).myTile.fq = s.myTile.fq := (congrArg Tile.fq (onlyMe_sendsStore s ea bs).2.2.1 :)
  rw [State.myTile_toStation, hfq]

/-- The data of an entry are the low bytes of the store's register. -/
theorem entryData_toNat {n : Nat} (hn : n ≤ 8) (x : DWord) :
    (BitVec.ofNat 64 (leNat (leBytes n x.toNat))).toNat = x.toNat % 256 ^ n := by
  have hlt : x.toNat % 256 ^ n < 2 ^ 64 :=
    (Nat.mod_lt _ (by positivity)).trans_le ((Nat.pow_le_pow_right (by decide) hn).trans (by decide))
  rw [leNat_leBytes, BitVec.toNat_ofNat, Nat.mod_eq_of_lt hlt]

theorem storeRows_size {r : StoreRow} (hr : r ∈ storeRows) : r.size ≤ 8 := by
  simp only [storeRows, List.mem_cons, List.not_mem_nil, or_false] at hr
  rcases hr with rfl | rfl | rfl | rfl <;> decide

/-! ### Stores, by the mode of their page -/

theorem store_faults {c l : Nat} {miss : Bool} (h : s.coreXlate s.bun.tile ea = .fault c l miss) (bs : List Byte) :
    FaultsBy s (s.storeGlobal ea bs) (xlateBound s ea miss) .translate 0 (BitVec.ofNat 32 (c + 16 * l)) ea := by
  rw [State.storeGlobal, h]
  exact faultsBy_lateXlate ..

section
variable {e : TlbEntry} {miss : Bool} (h : s.coreXlate s.bun.tile ea = .hit e miss)
include h

theorem store_readOnly (hro : e.ro = true) (bs : List Byte) :
    FaultsBy s (s.storeGlobal ea bs) (xlateBound s ea miss) .translate 0 (BitVec.ofNat 32 (2 + 16 * e.level)) ea := by
  rw [State.storeGlobal, h]
  dsimp only
  rw [if_pos hro]
  exact faultsBy_lateXlate ..

variable (hro : e.ro = false)
include hro

section
variable (hm : e.mode = 1 ∨ e.mode = 3)
include hm

theorem store_narrow {bs : List Byte} (hlen : bs.length < 4) :
    FaultsBy s (s.storeGlobal ea bs) (xlateBound s ea miss) .translate 0 (BitVec.ofNat 32 (8 + 16 * e.level)) ea := by
  have hother : (decide (e.mode = 1) || decide (e.mode = 3)) = true := by rcases hm with hm | hm <;> simp [hm]
  rw [State.storeGlobal, h]
  dsimp only
  rw [if_neg (by rw [hro]; exact Bool.false_ne_true), if_pos hother, if_pos hlen]
  exact faultsBy_lateXlate ..

theorem storeGlobal_entry {bs : List Byte} (hlen : 4 ≤ bs.length) : s.storeGlobal ea bs =
    (s.sendsStore ea bs).toStation
      (.entry .store ea (BitVec.ofNat 64 (leNat bs)) (bs.length == 8) (s.origin s.me.seqs.fabric) s.cc) := by
  have hother : (decide (e.mode = 1) || decide (e.mode = 3)) = true := by rcases hm with hm | hm <;> simp [hm]
  rw [State.storeGlobal, h]
  dsimp only
  rw [if_neg (by rw [hro]; exact Bool.false_ne_true), if_pos hother, if_neg (Nat.not_lt.2 hlen)]
  rfl
end

theorem storeGlobal_own (hm : e.mode = 0) (bs : List Byte) : s.storeGlobal ea bs =
    (s.looked ea).onMe fun x => x.own false ea.toNat (stnOf e.peer) (e.offset ea.toNat) bs := by
  rw [State.storeGlobal, h]
  dsimp only
  rw [if_neg (by rw [hro]; exact Bool.false_ne_true), if_neg (by simp [hm])]
  rfl

end
end Sys2Proof.Machine
end

section
open Sys2Proof Sys2Proof.Machine

/-- Settles O7: each clause is the mode of the page that the address reaches. What translation leaves behind it holds no register,
no byte and no entry (`Looks`), so that the rest of the word acts as on the state before it. -/
theorem globalWords : Obligations.GlobalWords := by
  unfold Obligations.GlobalWords
  intro g b i ext s
  constructor
  · intro r hr ea page halign
    have hexec (hx : s.coreXlate s.bun.tile ea ≠ .full) := exec_load_global (g := g) hr halign hx
    refine ⟨fun c l miss h => ⟨_, hexec (by rw [h]; exact Xlate.noConfusion), load_faults h⟩, fun e miss h => ?_⟩
    replace hexec := hexec (by rw [h]; exact Xlate.noConfusion)
    refine ⟨fun hm ha => ⟨_, hexec, load_absent h hm ha⟩, fun hent => ⟨fun hm hown hbad => ?_, fun hm ha => ?_⟩⟩
    · exact ⟨_, s.homeBytes ea e r.size, hexec, load_home_loadsBy h hm hown hent hbad,
        load_home_posts h hm hown hent hbad, seen_length .., fun j hj => homeBytes_getElem? hj⟩
    · obtain ⟨hothers, hbytes, hme, hsent⟩ := load_remote (g := g) (sgn := r.sgn) h hm ha hent
      refine ⟨_, hexec, hothers, hbytes, ?_, ?_, ?_, _, hsent, rfl, rfl, rfl, rfl, rfl, rfl, ?_⟩
      · rw [hme]; rfl
      · rw [hme]
      · rw [hme]
      · exact congrArg (· + _) (looks_looked s ea).cc
  · intro r hr ea page halign hroom
    have hexec (hx : s.coreXlate s.bun.tile ea ≠ .full) := exec_store_global (g := g) hr halign hroom hx
    refine ⟨fun c l miss h => ⟨_, hexec (by rw [h]; exact Xlate.noConfusion), store_faults h _⟩, fun e miss h => ?_⟩
    replace hexec := hexec (by rw [h]; exact Xlate.noConfusion)
    have hlen : (leBytes r.size (s.me.readG g).toNat).length = r.size := leBytes_length ..
    refine ⟨fun hro => ⟨_, hexec, store_readOnly h hro _⟩,
      fun hro hm hsize => ⟨_, hexec, store_narrow h hro hm (hlen.trans_lt hsize)⟩, fun hro hm hsize => ⟨_, hexec, ?_⟩,
      fun hro hm => ⟨_, hexec, ?_⟩⟩
    · rw [storeGlobal_entry h hro hm (hsize.trans_eq hlen.symm), hlen]
      obtain ⟨hothers, hbytes⟩ := store_entry_frame s ea (leBytes r.size (s.me.readG g).toNat) _
      exact ⟨hothers, hbytes, ⟨_, store_entry_fq .., entryData_toNat (storeRows_size hr) _⟩, store_entry_me ..⟩
    · rw [storeGlobal_own h hro hm]
      obtain ⟨hothers, hbytes, howns⟩ := onLooked_owns s ea (stnOf e.peer) (e.offset ea.toNat) r.size (s.me.readG g)
      refine ⟨hothers, hbytes, howns, fun ht hc hea => ?_⟩
      rw [State.looked, coreTouch_of_lookups ht hc hea (by rw [hm]; decide)]
      exact owns_own ..
end
